-- ==== Sys2Proof/Word.lean ====
section
/-! DEFINITION. Words, bytes and the sparse tables every store of the machine is kept in. -/

namespace Sys2Proof

/-- A byte of memory, of a packet or of a record. -/
abbrev Byte := BitVec 8

/-- A 64-bit word: a Beykor register (R174), a reference time (R5). -/
abbrev DWord := BitVec 64

/-- A sparse table: keys strictly rising, a key that is not listed holds the table's default. -/
abbrev SMap (α : Type) := List (Nat × α)

namespace SMap

variable {α : Type}

/-- The entry at `k`, if one is listed. -/
def find : SMap α → Nat → Option α
  | [], _ => none
  | (j, a) :: m, k => if j = k then some a else find m k

/-- The value at `k`, `d` where none is listed. -/
def get (d : α) (m : SMap α) (k : Nat) : α := (find m k).getD d

/-- List `a` at `k`, keeping the keys rising. -/
def put (k : Nat) (a : α) : SMap α → SMap α
  | [] => [(k, a)]
  | (j, b) :: m =>
    if j = k then (k, a) :: m else if k < j then (k, a) :: (j, b) :: m else (j, b) :: put k a m

/-- Take the entry at `k` out. -/
def del (k : Nat) : SMap α → SMap α
  | [] => []
  | (j, b) :: m => if j = k then m else (j, b) :: del k m

/-- Keys strictly rising, all above `lo` where one is given. -/
def risingFrom (lo : Nat) : SMap α → Bool
  | [] => true
  | (j, _) :: m => decide (lo ≤ j) && risingFrom (j + 1) m

/-- The values of the entries that satisfy `p`, in key order. -/
def valuesOf (p : Nat → α → Bool) (m : SMap α) : List α :=
  (m.filter fun e => p e.1 e.2).map (·.2)

/-- The keys of the entries that satisfy `p`, in order. -/
def keysOf (p : Nat → α → Bool) (m : SMap α) : List Nat :=
  (m.filter fun e => p e.1 e.2).map (·.1)

/-- Change every listed value. -/
def mapVal (f : Nat → α → α) (m : SMap α) : SMap α := m.map fun e => (e.1, f e.1 e.2)

end SMap

/-- Byte memory: what is listed, an unlisted byte reading as 0 (DESIGN CHOICE, log entry 3). -/
abbrev Mem := SMap Byte

namespace Mem

/-- One byte. -/
def read (m : Mem) (a : Nat) : Byte := SMap.get 0 m a

/-- Store one byte; writing 0 takes the entry out, so that equal memories are equal lists. -/
def write (a : Nat) (b : Byte) (m : Mem) : Mem := if b = 0 then SMap.del a m else SMap.put a b m

/-- Store bytes at rising addresses. -/
def writeAll (a : Nat) : List Byte → Mem → Mem
  | [], m => m
  | b :: bs, m => writeAll (a + 1) bs (write a b m)

/-- `n` bytes from `a`. -/
def readAll (m : Mem) (a : Nat) : Nat → List Byte
  | 0 => []
  | n + 1 => read m a :: readAll m (a + 1) n

/-- The canonical form: keys strictly rising and no entry equal to what an unlisted byte reads as. -/
def wf (m : Mem) : Bool := SMap.risingFrom 0 m && m.all fun e => decide (e.2 ≠ 0)

end Mem

/-- Bytes as one number, the first byte least significant (R3). -/
def leNat : List Byte → Nat
  | [] => 0
  | b :: bs => b.toNat + 256 * leNat bs

/-- Bytes as one number, the first byte most significant (R3: wire headers). -/
def beNat (bs : List Byte) : Nat := leNat bs.reverse

/-- `n` bytes of a number, the least significant first. -/
def leBytes : Nat → Nat → List Byte
  | 0, _ => []
  | n + 1, v => BitVec.ofNat 8 v :: leBytes n (v / 256)

/-- `n` bytes of a number, the most significant first. -/
def beBytes (n v : Nat) : List Byte := (leBytes n v).reverse

/-- Bits `lo + w - 1 : lo` of a number. -/
def bitsOf (v lo w : Nat) : Nat := (v / 2 ^ lo) % 2 ^ w

/-- Bit `i` of a number. -/
def bitOf (v i : Nat) : Bool := v.testBit i

/-- 1 for true, 0 for false. -/
def Bool.nat (b : Bool) : Nat := if b then 1 else 0

end Sys2Proof
end

