-- ==== Sys2Proof/Syntax.lean ====
section
/-! DEFINITION. The commands the block takes: one constructor per row of spec/opcode_table.json, and the plain data they carry. -/

namespace Sys2Proof

/-- The four access paths of the register space (R56). -/
inductive Path
  | bar0 | mgmt | jtag | bureau
  deriving DecidableEq, Repr

/-- The path's number in CFG_ERRLOG (R54). -/
def Path.idx : Path → Nat
  | .bar0 => 0
  | .mgmt => 1
  | .jtag => 2
  | .bureau => 3

/-- What the frame around a received packet says (R58 to R62): the logical port it came in on, the UDP
destination port, whether it is an IP fragment, whether ECN is CE, its DSCP, its 802.1Q priority (0 if untagged) and
DEI, the sender's address, and its tag's VID, whether it was tagged, and the MAC address it came from. -/
structure RxMeta where
  lport : Nat := 0
  dport : Nat := 9417
  frag : Bool := false
  ce : Bool := false
  dscp : Nat := 0
  pcp : Nat := 0
  dei : Bool := false
  v6 : Bool := false
  src : Nat := 0
  sport : Nat := 0
  vid : Nat := 0
  tagged : Bool := false
  smac : Nat := 0
  deriving DecidableEq, Repr

/-- A Naley packet as it stands on the wire (R58, R63); its TYPE is the row's. `hxl` is in words, `ent` is byte 6,
`ext` the extension bytes, `tag` the GCM tag when the TAG flag is set, `crc` the trailer as one number. -/
structure Packet where
  ver : Nat := 1
  flags : Nat := 0
  hxl : Nat := 0
  conn : Nat := 0
  ent : Nat := 0
  code : Nat := 0
  psn : Nat := 0
  msgid : Nat := 0
  key : Nat := 0
  offset : Nat := 0
  plen : Nat := 0
  hchk : Nat := 0
  ext : List Byte := []
  payload : List Byte := []
  tag : List Byte := []
  crc : Nat := 0
  deriving DecidableEq, Repr

/-- One generation slot as the restore reads it (R51, R53): where it was read, whether the read ended
well, its numbers, whether the seal word is complete and the body CRC matches, and the body's
register words (byte address, value). -/
structure GenSlot where
  drawer : Nat := 0
  slot : Nat := 0
  readOk : Bool := true
  gen : Nat := 0
  seq : Nat := 0
  sealed : Bool := false
  crcOk : Bool := false
  body : List (Nat × Nat) := []
  deriving DecidableEq, Repr

/-- What the reads of a restore found (R53): the slots, and the standby's copy where a pair has one. -/
structure RestoreRead where
  slots : List GenSlot := []
  peer : Option GenSlot := none
  deriving DecidableEq, Repr

/-- What a configuration or drive-register access returned during admission (R297). -/
structure DriveFacts where
  classCode : Nat := 0x010802
  rdy : Bool := true
  cfs : Bool := false
  mqes : Nat := 1023
  queues : Nat := 15
  cmic0 : Bool := true
  nsExists : Bool := true
  nmic0 : Bool := true
  lbads : Nat := 4096
  metaBytes : Nat := 0
  oncs5 : Bool := true
  resvOk : Bool := true
  vwc : Bool := false
  wceOk : Bool := true
  units : Nat := 0
  nguid : Nat := 0
  eui64 : Nat := 0
  mdtsKib : Nat := 0
  sgl : Bool := false
  dlfeat : Bool := false
  deriving DecidableEq, Repr

/-- The status of an NVMe completion entry: status code type and code, Do Not Retry, the completion's
DW0, and the data the command read where it is a read. -/
structure NvmeStatus where
  sct : Nat := 0
  sc : Nat := 0
  dnr : Bool := false
  dw0 : Nat := 0
  data : List Byte := []
  deriving DecidableEq, Repr

/-- Who asks for a hardware lock (R324): a system Bench command by frame, a Bureau thread, BAR0, an
MGMT connection, or JTAG. -/
inductive LockOwner
  | bench (frame : Nat)
  | bureau (thread : Nat)
  | bar0
  | mgmt (conn : Nat)
  | jtag
  deriving DecidableEq, Repr

/-- The header of a received Hinge frame (R337): version, the SWAP and LAST flags, sequence number, epoch, whether the
trailer's CRC-32C matched (R206), and, for TIME, what the sender tells of its fused count and its DRV_RKEY (R352). -/
structure HingeHdr where
  ver : Nat := 1
  swap : Bool := false
  last : Bool := false
  seq : Nat := 0
  epoch : Nat := 0
  crcOk : Bool := true
  svn : Nat := 0
  rkey : Nat := 0
  deriving DecidableEq, Repr

/-- The event messages of PTP (R25, IEEE 1588-2019). -/
inductive PtpKind
  | sync | delayReq | pdelayReq | pdelayResp
  deriving DecidableEq, Repr

/-- A PTP event message as a port sends or receives it (R25): its kind, domain and transport (coded as
RTU_PTP_CFG.TRANSPORT). The row names beside it the clock it comes from and the master that the best master clock algorithm of
the Bureau selects once it has seen it. -/
structure PtpMsg where
  egress : Bool := false
  kind : PtpKind := .sync
  domain : Nat := 0
  transport : Nat := 0
  deriving DecidableEq, Repr

/-- An edge on REF_FRAME (R24, R32): its time in ns, and whether it is a falling one. -/
structure RefEdge where
  time : Nat := 0
  falling : Bool := false
  deriving DecidableEq, Repr

/-- One section of a state copy or of a sync (R340): its type and its entries as bytes. -/
structure CopySection where
  kind : Nat := 0
  entries : List (List Byte) := []
  deriving DecidableEq, Repr

/-- A Tether frame's 64 bits after the sync word (R344). -/
structure TetherFrame where
  bits : BitVec 64 := 0
  deriving DecidableEq, Repr

/-- The commands and events of the block, in the order of spec/opcode_table.json. -/
inductive Instr
  /-- REGISTER_WRITE (R40): A write to a register that has no row of its own stores, discards or logs the value according to the register's class and its block's run state. -/
  | registerWrite (p : Path) (addr width val : Nat)
  /-- W1C_WRITE (R6): A write to a w1c field clears each bit written as 1; an update that coincides with the write sets the bit after it. -/
  | w1cWrite (p : Path) (addr val coincident : Nat)
  /-- RC_READ (R6): A read of an rc counter returns the count and clears it. -/
  | rcRead (p : Path) (addr coincident : Nat)
  /-- LOW_WORD_READ (R38): A read of the low word of a 64-bit latching register latches the high word for that access path. -/
  | lowWordRead (p : Path) (addr : Nat)
  /-- RTU_START (R31): RTU_CMD.START checks the working-cycle and epoch ranges, loads the measured period and enters WAIT_EDGE or FREE. -/
  | rtuStart (p : Path)
  /-- RTU_STOP (R37): RTU_CMD.STOP stops the unit, or is refused with code 0x0B while any block that uses epochs runs. -/
  | rtuStop (p : Path)
  /-- REFERENCE_EDGE (R32): An edge on REF_FRAME is qualified by interval and window, then updates the period, the lock state or the glitch count. -/
  | referenceEdge (t : RefEdge)
  /-- PTP_VIRTUAL_EDGE (R23): With SRC = PTP, a virtual reference edge occurs at PTP time PHASE + n × PERIOD. -/
  | ptpVirtualEdge (n : Nat)
  /-- PTP_EVENT_MESSAGE (R25): A received PTP message is timestamped and passed to the slave-only servo and the best master clock algorithm, which steer the timebase. -/
  | ptpEventMessage (lport master selected : Nat) (m : PtpMsg)
  /-- PTP_REFERENCE_LOSS (R33): No valid Sync arrives for LOSS_COUNT Sync intervals, so the PTP reference is declared lost. -/
  | ptpReferenceLoss
  /-- MISSED_EDGE (R33): The window of an expected edge closes without a qualified edge, and the miss is counted. -/
  | missedEdge
  /-- LINE_START (R28): The fractional accumulator starts the next line and sets its length, including any slewing of the phase error. -/
  | lineStart
  /-- WORKING_CYCLE_START (R31): The line count wraps to 0 and a new working cycle begins. -/
  | workingCycleStart
  /-- EPOCH_BOUNDARY (R36): An epoch boundary runs its nine actions in their fixed order within 400 ns. -/
  | epochBoundary
  /-- CFG_COMMIT (R44): A write of CFG_COMMIT either ends the commit at once with a result or starts the commit check. -/
  | cfgCommit (p : Path) (gen : Nat)
  /-- COMMIT_CHECK_DONE (R45): The commit check ends, and the commit either passes and seals or is rejected whole. -/
  | commitCheckDone
  /-- CFG_ROLLBACK (R49): CFG_CTRL.ROLLBACK sets ROLLBACK_PENDING so that the previous generation is restored at the next boundary, or is refused. -/
  | cfgRollback (p : Path)
  /-- CFG_DISCARD (R49): CFG_CTRL.DISCARD replaces the pending copy with the current copy, or is refused. -/
  | cfgDiscard (p : Path)
  /-- CFG_VIEW_WRITE (R41): A write of a path's CFG_VIEW selects which copy that path's class-L reads return. -/
  | cfgViewWrite (p : Path) (inst view : Nat)
  /-- ERRLOG_POP (R54): A write of CFG_ERRLOG_POP removes the oldest error-log entry. -/
  | errlogPop (p : Path)
  /-- GENERATION_AREA_WRITE_DONE (R51): A generation body or commit record finishes writing to a ledger drive's generation area. -/
  | generationAreaWriteDone (drawer : Nat) (record ok : Bool)
  /-- GENERATION_RESTORE_DONE (R53): The restore reads finish, and the newest sealed slot becomes current, dropping everything that was pending. -/
  | generationRestoreDone (slots : RestoreRead)
  /-- RX_CMD (R71): A CMD packet is checked, placed and delivered to the dispatcher in CSN order. -/
  | rxCmd (m : RxMeta) (k : Packet)
  /-- RX_DATA (R74): A DATA packet passes the receive checks and is placed at its region offset in arrival order. -/
  | rxData (m : RxMeta) (k : Packet)
  /-- RX_ACK (R81): A received ACK advances the acknowledged PSNs and frees their retained copies. -/
  | rxAck (m : RxMeta) (k : Packet)
  /-- RX_NAK (R84): A received NAK marks its PSN received and fails the message with the status of its reason. -/
  | rxNak (m : RxMeta) (k : Packet)
  /-- RX_FLUSH (R88): A FLUSH asks for confirmation that the DATA it covers has been placed. -/
  | rxFlush (m : RxMeta) (k : Packet)
  /-- RX_FLUSHED (R88): A received FLUSHED confirms that the host has placed the DATA its FLUSH covered. -/
  | rxFlushed (m : RxMeta) (k : Packet)
  /-- RX_PROBE_REQUEST (R73): A PROBE request is answered at once on the same entropy value with its TIMESTAMP copied. -/
  | rxProbeRequest (m : RxMeta) (k : Packet)
  /-- RX_PROBE_REPLY (R73): A PROBE reply makes its entropy value active again and records the round-trip time. -/
  | rxProbeReply (m : RxMeta) (k : Packet)
  /-- CONNECT_REQ (R102): A CONNECT_REQ is authenticated and answered by the first matching row, with CONNECT_ACC or CONNECT_REJ. -/
  | connectReq (m : RxMeta) (k : Packet)
  /-- CTRL_READY (R103): Delivery of READY moves the connection from SETUP to OPEN. -/
  | ctrlReady (m : RxMeta) (k : Packet)
  /-- CTRL_KEEPALIVE (R105): A received CTRL KEEPALIVE counts as traffic for the liveness rule. -/
  | ctrlKeepalive (m : RxMeta) (k : Packet)
  /-- CTRL_CLOSE (R107): A CLOSE delivered in CSN order moves the connection to CLOSING. -/
  | ctrlClose (m : RxMeta) (k : Packet)
  /-- CTRL_CLOSED (R104): An acknowledged CLOSED moves the connection from CLOSING to QUARANTINE. -/
  | ctrlClosed (m : RxMeta) (k : Packet)
  /-- CTRL_RESET (R106): A received RESET tears the connection down into QUARANTINE. -/
  | ctrlReset (m : RxMeta) (k : Packet)
  /-- MGMT_REG_READ (R387): An authorised REG_READ reads COUNT words on the MGMT path and returns them in its response. -/
  | mgmtRegRead (m : RxMeta) (k : Packet)
  /-- MGMT_REG_WRITE (R387): An authorised REG_WRITE writes COUNT words in ascending order and stops at the first refusal. -/
  | mgmtRegWrite (m : RxMeta) (k : Packet)
  /-- MGMT_AREA_WRITE (R387): An authorised AREA_WRITE writes bytes into the Sideboard host area, or returns RANGE. -/
  | mgmtAreaWrite (m : RxMeta) (k : Packet)
  /-- ACK_DELAY_EXPIRY (R82): DELAY nanoseconds after the oldest unacknowledged arrival, an ACK is sent. -/
  | ackDelayExpiry (conn : Nat)
  /-- RETRANSMIT_TIMEOUT (R85): At a boundary, each unacknowledged PSN whose stamp is RTO_EPOCHS old is retransmitted and its entropy value retired. -/
  | retransmitTimeout (conn : Nat)
  /-- RATE_INTERVAL_END (R91): At the end of each rate interval, the sender cuts or raises the connection rate. -/
  | rateIntervalEnd (conn : Nat)
  /-- TRANSMIT_OPPORTUNITY (R222): The port's three-level scheduler picks the next packet to send under the shapers and gates. -/
  | transmitOpportunity (lport : Nat)
  /-- NLT_START (R94): NLT_CMD.START starts a logical port when CAB and SCH run, the instance is in use and it has an address. -/
  | nltStart (p : Path) (lport : Nat)
  /-- NLT_STOP (R94): NLT_CMD.STOP sends RESET 0x05 on every homed connection, takes the port down and flushes it. -/
  | nltStop (p : Path) (lport : Nat)
  /-- LINK_FAULT (R214): The PCS reports a link fault, and the port holds its queued packets. -/
  | linkFault (lport : Nat)
  /-- LINK_RECOVER (R214): A link that recovers within the hold loses nothing. -/
  | linkRecover (lport : Nat)
  /-- PORT_DOWN (R214): When the hold expires, the port goes down and its connections, queues, grants and parks are flushed. -/
  | portDown (lport : Nat)
  /-- PORT_FLUSH_DONE (R214): The flush of a downed port completes, and a stopping NLT instance stops. -/
  | portFlushDone (lport : Nat)
  /-- SETUP_TIMEOUT (R104): A connection in SETUP without READY for SETUP working cycles moves to QUARANTINE. -/
  | setupTimeout (conn : Nat)
  /-- QUARANTINE_END (R104): After QUAR working cycles, with no command running and no scoped region left, the context becomes FREE. -/
  | quarantineEnd (conn : Nat)
  /-- LIVENESS_EXPIRY (R105): A connection silent for LIMIT working cycles is sent RESET 0x02 and torn down. -/
  | livenessExpiry (conn : Nat)
  /-- PARAMS_SEND (R108): After a switch that changes the parameters, PARAMS is sent on every affected OPEN connection. -/
  | paramsSend (lport : Nat)
  /-- CONTEXT_FETCH_DONE (R112): A context fetch ends, and the connection's parked packets resume in order at the TAG check. -/
  | contextFetchDone (conn : Nat)
  /-- CONTEXT_WRITEBACK_DONE (R110): A context write-back ends, and any fetch that waited for it starts. -/
  | contextWritebackDone (conn : Nat)
  /-- CTX_TEARDOWN (R106): CTX_CMD OP 1 sends RESET 0x01 and tears the connection down. -/
  | ctxTeardown (p : Path) (conn : Nat)
  /-- CTX_PIN (R111): CTX_CMD OP 2 pins a connection's context, or is refused beyond CTX_PIN_LIMIT. -/
  | ctxPin (p : Path) (conn : Nat)
  /-- CTX_UNPIN (R111): CTX_CMD OP 3 unpins a connection's context. -/
  | ctxUnpin (p : Path) (conn : Nat)
  /-- CTX_CLOSE (R107): CTX_CMD OP 4 makes the device send CLOSE on the connection. -/
  | ctxClose (p : Path) (conn : Nat)
  /-- READ (R124): The READ opcode reads NBLK blocks, decrypts them and returns them as DATA followed by a FINAL CMPL. -/
  | read (conn : Nat)
  /-- WRITE (R15): The WRITE opcode grants, encrypts, computes parity, records intent and writes its data to the drives. -/
  | write (conn : Nat)
  /-- CMD_FLUSH (R129): The FLUSH opcode sends NVMe Flush to every member that has an enabled volatile write cache. -/
  | cmdFlush (conn : Nat)
  /-- WRITE_ZEROES (R128): The WRITE_ZEROES opcode writes encrypted zeros with their parity. -/
  | writeZeroes (conn : Nat)
  /-- DEALLOCATE (R128): The DEALLOCATE opcode leaves zero ciphertext in the range, by Deallocate or by writes. -/
  | deallocate (conn : Nat)
  /-- COMPARE_WRITE (R127): The COMPARE_WRITE opcode compares the current blocks and writes the new data only if they match. -/
  | compareWrite (conn : Nat)
  /-- ABORT (R146): The ABORT opcode withdraws its target if the target is before its release point. -/
  | abort (conn : Nat)
  /-- REGION_REGISTER (R114): The REGION_REGISTER opcode makes a region entry VALID and returns its key. -/
  | regionRegister (conn : Nat)
  /-- REGION_REVOKE (R116): The REGION_REVOKE opcode sets the region REVOKING until its in-flight count drains. -/
  | regionRevoke (conn : Nat)
  /-- CYCLE_RESERVE (R149): The CYCLE_RESERVE opcode admits a per-cycle reservation against the set's planned bandwidth. -/
  | cycleReserve (conn : Nat)
  /-- CYCLE_RELEASE (R153): The CYCLE_RELEASE opcode ends a reservation; its share leaves the plan at the next boundary. -/
  | cycleRelease (conn : Nat)
  /-- IDENTIFY (R125): The IDENTIFY opcode returns one 4 KiB page for the CNS requested. -/
  | identify (conn : Nat)
  /-- LOG_READ (R126): The LOG_READ opcode returns pages of the subscriber-scoped damaged-stripe or reservation-miss log. -/
  | logRead (conn : Nat)
  /-- CMD_KEEPALIVE (R124): The KEEPALIVE opcode passes through the whole command path and completes. -/
  | cmdKeepalive (conn : Nat)
  /-- USER_COMMAND (R168): A user opcode runs its bound handler under the user-privilege checks. -/
  | userCommand (conn : Nat)
  /-- GRANT_TIMEOUT (R134): A grant that receives no DATA for TIMEOUT working cycles closes, and its command ends with INVALID_FIELD. -/
  | grantTimeout (grant : Nat)
  /-- COMMAND_DISPATCH (R160): A command waiting in the dispatch queue is started on a free thread with its descriptor written. -/
  | commandDispatch (frame thread : Nat)
  /-- COMMAND_RESUME (R159): A parked command whose named tickets are all done resumes on any free thread. -/
  | commandResume (frame thread : Nat) (cached : Bool)
  /-- REQUEST_COMPLETE (R187): An accelerator request completes and its ticket receives its result word. -/
  | requestComplete (owner ticket : Nat)
  /-- USER_WALL_TIMEOUT (R166): A user command that makes no completion request within WALL working cycles faults with 0x0B11. -/
  | userWallTimeout (frame : Nat)
  /-- IMAGE_LOAD (R172): BNC_LOAD_CMD OP 1 starts verifying and loading an image into an EMPTY slot. -/
  | imageLoad (p : Path) (slot : Nat)
  /-- IMAGE_UNLOAD (R164): BNC_LOAD_CMD OP 2 unloads a slot, or is refused while the slot is bound or in use. -/
  | imageUnload (p : Path) (slot : Nat)
  /-- IMAGE_LOAD_DONE (R172): Image verification ends with a result, and on success the slot becomes LOADED. -/
  | imageLoadDone
  /-- ADD (R177): ADD writes ra + rb to rd. -/
  | add (t rd ra rb : Nat)
  /-- SUB (R177): SUB writes ra − rb to rd. -/
  | sub (t rd ra rb : Nat)
  /-- AND (R177): AND writes the bitwise AND of ra and rb to rd. -/
  | and (t rd ra rb : Nat)
  /-- OR (R177): OR writes the bitwise OR of ra and rb to rd. -/
  | or (t rd ra rb : Nat)
  /-- XOR (R177): XOR writes the bitwise XOR of ra and rb to rd. -/
  | xor (t rd ra rb : Nat)
  /-- ANDN (R177): ANDN writes ra AND NOT rb to rd. -/
  | andn (t rd ra rb : Nat)
  /-- SHL (R177): SHL shifts ra left by rb. -/
  | shl (t rd ra rb : Nat)
  /-- SHR (R177): SHR shifts ra right by rb, shifting in zeros. -/
  | shr (t rd ra rb : Nat)
  /-- SAR (R177): SAR shifts ra right by rb, shifting in copies of the sign. -/
  | sar (t rd ra rb : Nat)
  /-- MUL (R177): MUL writes the low 64 bits of ra × rb to rd. -/
  | mul (t rd ra rb : Nat)
  /-- MULHU (R177): MULHU writes the high 64 bits of the unsigned 128-bit product. -/
  | mulhu (t rd ra rb : Nat)
  /-- SEQ (R177): SEQ writes 1 if ra equals rb, else 0. -/
  | seq (t rd ra rb : Nat)
  /-- SNE (R177): SNE writes 1 if ra differs from rb, else 0. -/
  | sne (t rd ra rb : Nat)
  /-- SLT (R177): SLT writes 1 if ra < rb as signed values, else 0. -/
  | slt (t rd ra rb : Nat)
  /-- SLTU (R177): SLTU writes 1 if ra < rb as unsigned values, else 0. -/
  | sltu (t rd ra rb : Nat)
  /-- SEL (R177): SEL writes ra if the old rd is non-zero, else rb. -/
  | sel (t rd ra rb : Nat)
  /-- CLZ (R177): CLZ writes the number of leading zero bits of ra. -/
  | clz (t rd ra : Nat)
  /-- POPC (R177): POPC writes the number of 1 bits of ra. -/
  | popc (t rd ra : Nat)
  /-- ADDI (R178): ADDI adds the sign-extended immediate to ra. -/
  | addi (t rd ra : Nat) (imm : BitVec 16)
  /-- ANDI (R178): ANDI ANDs ra with the zero-extended immediate. -/
  | andi (t rd ra : Nat) (imm : BitVec 16)
  /-- ORI (R178): ORI ORs ra with the zero-extended immediate. -/
  | ori (t rd ra : Nat) (imm : BitVec 16)
  /-- XORI (R178): XORI XORs ra with the zero-extended immediate. -/
  | xori (t rd ra : Nat) (imm : BitVec 16)
  /-- SHLI (R178): SHLI shifts ra left by the immediate. -/
  | shli (t rd ra : Nat) (imm : BitVec 16)
  /-- SHRI (R178): SHRI shifts ra right by the immediate, shifting in zeros. -/
  | shri (t rd ra : Nat) (imm : BitVec 16)
  /-- SARI (R178): SARI shifts ra right arithmetically by the immediate. -/
  | sari (t rd ra : Nat) (imm : BitVec 16)
  /-- SETH (R178): SETHp replaces bits 16p+15:16p of ra with the immediate. -/
  | seth (t p rd ra : Nat) (imm : BitVec 16)
  /-- SEQI (R178): SEQI writes 1 if ra equals the sign-extended immediate, else 0. -/
  | seqi (t rd ra : Nat) (imm : BitVec 16)
  /-- SLTI (R178): SLTI compares ra with the sign-extended immediate as signed values. -/
  | slti (t rd ra : Nat) (imm : BitVec 16)
  /-- SLTIU (R178): SLTIU compares ra with the zero-extended immediate as unsigned values. -/
  | sltiu (t rd ra : Nat) (imm : BitVec 16)
  /-- LOAD (R180): LOAD reads a zero-extended value from local store, the Sideboard or the register space. -/
  | load (t rt ra sp w : Nat) (off : BitVec 12)
  /-- LOADS (R180): LOADS reads a sign-extended value from memory. -/
  | loads (t rt ra sp w : Nat) (off : BitVec 12)
  /-- STORE (R180): STORE writes a value to memory; a Sideboard store is posted. -/
  | store (t rt ra sp w : Nat) (off : BitVec 12)
  /-- AADD (R182): AADD atomically adds rt to a 64-bit Sideboard word and returns the old value. -/
  | aadd (t rt ra : Nat) (off : BitVec 12)
  /-- BZ (R179): BZ branches if ra is zero. -/
  | bz (t ra : Nat) (disp : BitVec 20)
  /-- BNZ (R179): BNZ branches if ra is non-zero. -/
  | bnz (t ra : Nat) (disp : BitVec 20)
  /-- JAL (R179): JAL writes the return address to its register and branches. -/
  | jal (t ra : Nat) (disp : BitVec 20)
  /-- JALR (R179): JALR jumps to the address held in ra and writes the return address to rd. -/
  | jalr (t rd ra : Nat)
  /-- WAIT (R183): WAIT holds the thread until its ticket is done, then writes the result word. -/
  | wait (t rd ra : Nat)
  /-- PARK (R159): PARK saves g16 to g31 and frees the thread unless every named ticket is done. -/
  | park (t ra : Nat)
  /-- DROP (R183): DROP discards a held result or detaches an outstanding ticket. -/
  | drop (t ra : Nat)
  /-- END (R183): END frees the thread; the command keeps its frame. -/
  | endThread (t : Nat)
  /-- RDTIME (R183): RDTIME writes the current reference time. -/
  | rdtime (t rd : Nat)
  /-- RDC (R161): RDC reads a capsule-window word, zero-extended. -/
  | rdc (t rd n : Nat)
  /-- MFENCE (R182): MFENCE holds the thread until its earlier Sideboard stores are visible. -/
  | mfence (t : Nat)
  /-- ERET (R192): ERET restores GIE from PGIE and continues at EPC. -/
  | eret (t : Nat)
  /-- WFI (R192): WFI holds the Bureau thread until an enabled interrupt is pending. -/
  | wfi (t : Nat)
  /-- CSRR (R192): CSRR reads a Bureau control register. -/
  | csrr (t rd imm : Nat)
  /-- CSRW (R192): CSRW writes a Bureau control register. -/
  | csrw (t ra imm : Nat)
  /-- BUREAU_INTERRUPT (R192): An enabled interrupt with GIE set traps the Bureau thread to VEC. -/
  | bureauInterrupt (t : Nat)
  /-- BUREAU_TIMER (R192): The Bureau timer becomes pending when the reference time reaches TCMP. -/
  | bureauTimer (t : Nat)
  /-- XREQ_CELLS (R195): The CELLS request reserves cells across the quads, waiting at limits or the spill threshold. -/
  | xreqCells (t rd ra rb : Nat)
  /-- XREQ_RELEASE (R187): The RELEASE request frees a group's cells as their movers finish. -/
  | xreqRelease (t rd ra rb : Nat)
  /-- XREQ_EMIT_XRDY (R203): EMIT of kind XRDY opens a grant and sends XRDY, capped by the window above the credit threshold. -/
  | xreqEmitXrdy (t rd ra rb : Nat)
  /-- XREQ_EMIT_DATA (R115): EMIT of kind DATA sends DATA packets from cells after the egress and decryption checks. -/
  | xreqEmitData (t rd ra rb : Nat)
  /-- XREQ_EMIT_CMPL (R168): EMIT of kind CMPL is the completion request, released by its class. -/
  | xreqEmitCmpl (t rd ra rb : Nat)
  /-- XREQ_EMIT_CTRL (R188): EMIT of kind CTRL sends a CTRL packet for system or Bureau code. -/
  | xreqEmitCtrl (t rd ra rb : Nat)
  /-- XREQ_EMIT_MGMT (R188): EMIT of kind MGMT sends a MGMT packet for system or Bureau code. -/
  | xreqEmitMgmt (t rd ra rb : Nat)
  /-- XREQ_CIPHER_ENCRYPT (R239): CIPHER OP 0 encrypts blocks with AES-256-XTS under the pair check. -/
  | xreqCipherEncrypt (t rd ra rb : Nat)
  /-- XREQ_CIPHER_DECRYPT (R239): CIPHER OP 1 decrypts blocks with AES-256-XTS under the pair check. -/
  | xreqCipherDecrypt (t rd ra rb : Nat)
  /-- XREQ_PARITY_GEN (R188): PARITY mode GEN computes P and Q for whole stripes. -/
  | xreqParityGen (t rd ra rb : Nat)
  /-- XREQ_PARITY_UPDATE (R188): PARITY mode UPDATE computes new P and Q from old and new data of one member. -/
  | xreqParityUpdate (t rd ra rb : Nat)
  /-- XREQ_PARITY_RECON (R253): PARITY mode RECON recovers up to two lost strips. -/
  | xreqParityRecon (t rd ra rb : Nat)
  /-- XREQ_PARITY_COMPARE (R188): PARITY mode COMPARE finds the first differing 4 KiB block. -/
  | xreqParityCompare (t rd ra rb : Nat)
  /-- XREQ_LEDGER (R258): The LEDGER request writes one intent record per row into the active's Sideboard. -/
  | xreqLedger (t rd ra rb : Nat)
  /-- XREQ_DRIVE_READ (R187): DRIVE OP 0 reads member blocks into cells, reconstructing where needed. -/
  | xreqDriveRead (t rd ra rb : Nat)
  /-- XREQ_DRIVE_WRITE (R189): DRIVE OP 1 writes data, P and Q once the intent record and the dirty map allow it. -/
  | xreqDriveWrite (t rd ra rb : Nat)
  /-- XREQ_DRIVE_FLUSH (R187): DRIVE OP 2 sends NVMe Flush to members. -/
  | xreqDriveFlush (t rd ra rb : Nat)
  /-- XREQ_DRIVE_DEALLOCATE (R187): DRIVE OP 3 sends Dataset Management Deallocate to members. -/
  | xreqDriveDeallocate (t rd ra rb : Nat)
  /-- XREQ_TRACK (R187): The TRACK request takes the command's tracker entry and completes when its drive phase may begin. -/
  | xreqTrack (t rd ra rb : Nat)
  /-- XREQ_CLEAR (R187): The CLEAR request marks the point after which the entry's clear point may fall. -/
  | xreqClear (t rd ra rb : Nat)
  /-- XREQ_DRAW (R151): The DRAW request draws user bytes from a reservation. -/
  | xreqDraw (t rd ra rb : Nat)
  /-- XREQ_MARK (R169): The MARK request marks the command's release point. -/
  | xreqMark (t rd ra rb : Nat)
  /-- XREQ_RCHECK (R115): The RCHECK request applies the region checks without sending. -/
  | xreqRcheck (t rd ra rb : Nat)
  /-- XREQ_FILLED (R187): The FILLED request completes when a group range has been received through grants, or its grant has closed. -/
  | xreqFilled (t rd ra rb : Nat)
  /-- CAB_START (R216): CAB_CMD.START starts the Cabinet and seeds the RED LFSRs. -/
  | cabStart (p : Path)
  /-- CAB_STOP (R216): CAB_CMD.STOP frees every group, or is refused while a dependent block runs. -/
  | cabStop (p : Path)
  /-- APERTURE_READ (R198): A drive read of the aperture returns group or queue-memory bytes, or completes with Completer Abort. -/
  | apertureRead (drawer addr len : Nat)
  /-- APERTURE_WRITE (R198): A drive write to the aperture stores into group cells or queue memory, or is discarded. -/
  | apertureWrite (drawer addr : Nat) (data : List Byte)
  /-- PRP_LIST_READ (R306): A drive read of the PRP list window returns a generated PRP list page. -/
  | prpListRead (drawer addr : Nat)
  /-- SPILL_EXTENT_DONE (R208): An extent finishes writing to the spill area, and its cells are freed. -/
  | spillExtentDone (group first count : Nat)
  /-- SPILL_RETURN_DONE (R210): A spilled extent is back in cells, and the requests that waited for it proceed. -/
  | spillReturnDone (group first : Nat)
  /-- SCH_START (R230): SCH_CMD.START starts the scheduler with policers full and shapers at 0. -/
  | schStart (p : Path)
  /-- SCH_STOP (R230): SCH_CMD.STOP stops the scheduler, or is refused while an NLT instance runs. -/
  | schStop (p : Path)
  /-- GATE_ENTRY (R226): A gate-list entry acts at its shifted line and sets the open gates. -/
  | gateEntry (lport entry : Nat)
  /-- KEY_IMPORT_PLAIN (R235): CPH_KEY_CMD OP 1 imports a key in plain from CPH_KEY_DATA. -/
  | keyImportPlain (p : Path) (slot kind : Nat)
  /-- KEY_IMPORT_KEK (R235): CPH_KEY_CMD OP 2 imports a blob wrapped under a KEK slot. -/
  | keyImportKek (p : Path) (slot kind : Nat)
  /-- KEY_IMPORT_BLOB (R235): CPH_KEY_CMD OP 3 imports a blob wrapped under the device key. -/
  | keyImportBlob (p : Path) (slot kind : Nat)
  /-- KEY_EXPORT (R235): CPH_KEY_CMD OP 4 exports a slot as a device-wrapped blob. -/
  | keyExport (p : Path) (slot : Nat)
  /-- KEY_ERASE (R235): CPH_KEY_CMD OP 5 zeroises an unbound slot. -/
  | keyErase (p : Path) (slot : Nat)
  /-- KEY_OP_DONE (R235): A key operation ends with its result, and CPH_KEY_DATA is cleared. -/
  | keyOpDone
  /-- PAIR_TEST (R241): CPH_PAIR_CMD OP 1 starts the known-answer tests of a quarantined pair. -/
  | pairTest (p : Path) (pair : Nat)
  /-- PAIR_TEST_DONE (R241): The tests end, and the pair returns to service or stays quarantined. -/
  | pairTestDone (pair : Nat) (pass : Bool)
  /-- CIPHER_ITEM_DONE (R239): A cipher item finishes on its pair and is released only if the pair check passes. -/
  | cipherItemDone (pair : Nat) (agree : Bool)
  /-- ENTROPY_HEALTH_FAIL (R245): A continuous health test fails, and the DRBG stops reseeding. -/
  | entropyHealthFail
  /-- PAR_START (R268): PAR_CMD.START starts the parity block. -/
  | parStart (p : Path)
  /-- PAR_STOP (R268): PAR_CMD.STOP stops the parity block, or is refused while DRV or LDG runs. -/
  | parStop (p : Path)
  /-- LDG_START (R53): LDG_CMD.START restores the generation, then starts the ledger with LDG_DRIVES. -/
  | ldgStart (p : Path)
  /-- LDG_STOP (R269): LDG_CMD.STOP stops the ledger, or is refused while any record is unretired. -/
  | ldgStop (p : Path)
  /-- LEDGER_BATCH_DONE (R262): A ledger batch or checkpoint becomes durable on a drive. -/
  | ledgerBatchDone (drawer : Nat) (ok : Bool)
  /-- RESYNC_PIECE_DONE (R264): A resync of open-record or dirty columns completes, and writes into them may proceed. -/
  | resyncPieceDone (set row off count : Nat) (disagree : Bool)
  /-- RB_TARGET (R272): PAR_RB_CMD OP 1 names a replacement Drawer as a lost position's target. -/
  | rbTarget (p : Path) (set pos drawer : Nat)
  /-- RB_RESHAPE (R285): PAR_RB_CMD OP 2 starts widening a set onto the added Drawers. -/
  | rbReshape (p : Path) (set newn : Nat)
  /-- RB_REVIVE (R284): PAR_RB_CMD OP 3 revives an offline set. -/
  | rbRevive (p : Path) (set drawer : Nat)
  /-- RB_PAUSE (R294): PAR_RB_CMD OP 4 pauses rebuild or reshape. -/
  | rbPause (p : Path) (set : Nat)
  /-- RB_RESUME (R294): PAR_RB_CMD OP 5 resumes rebuild or reshape. -/
  | rbResume (p : Path) (set : Nat)
  /-- REBUILD_PIECE_DONE (R275): A rebuild or copy-back piece finishes writing its targets. -/
  | rebuildPieceDone (set : Nat)
  /-- RESHAPE_ROW_DONE (R288): A new reshape row is written and takes its row record. -/
  | reshapeRowDone (set : Nat)
  /-- RESHAPE_STAGING_DONE (R287): Staging of the opening zone completes, so new rows may be written. -/
  | reshapeStagingDone (set : Nat)
  /-- REPAIR_WRITEBACK_DONE (R273): A recovered block's write-back completes, or fails and makes the member lost. -/
  | repairWritebackDone (set pos block : Nat) (ok : Bool)
  /-- DRV_START (R313): DRV_GCMD.START starts the drive-port block. -/
  | drvStart (p : Path)
  /-- DRV_STOP (R313): DRV_GCMD.STOP stops the drive-port block, or is refused while any Drawer runs. -/
  | drvStop (p : Path)
  /-- DRAWER_POWER_ON (R300): DRV_CMD OP 1 takes an OFF Drawer to POWERING. -/
  | drawerPowerOn (p : Path) (d : Nat)
  /-- DRAWER_POWER_OFF (R301): DRV_CMD OP 2 opens this controller's slot path and asserts PERST_N, unless the Drawer is a member or ledger drive. -/
  | drawerPowerOff (p : Path) (d : Nat)
  /-- DRAWER_CONTROLLER_RESET (R300): DRV_CMD OP 3 takes a READY Drawer through an NVMe controller reset. -/
  | drawerControllerReset (p : Path) (d : Nat)
  /-- DRAWER_READMIT (R300): DRV_CMD OP 4 asserts PERST_N for 10 ms and retrains a FAILED Drawer. -/
  | drawerReadmit (p : Path) (d : Nat)
  /-- PRESENCE_DEBOUNCE_END (R300): PRSNT_N held for DEBOUNCE ms moves an EMPTY Drawer to POWERING or OFF. -/
  | presenceDebounceEnd (d : Nat)
  /-- PRESENCE_LOST (R300): PRSNT_N deasserts, and the Drawer becomes EMPTY with its path off. -/
  | presenceLost (d : Nat)
  /-- PERST_DELAY_END (R300): PERST_MS after power-good, PERST_N is released and the Drawer enters TRAINING. -/
  | perstDelayEnd (d : Nat)
  /-- DL_ACTIVE (R300): The drive link reaches DL_Active. -/
  | dlActive (d width speed : Nat) (flit : Bool)
  /-- INIT_DELAY_END (R300): 100 ms after DL_Active, the first configuration request is issued and the Drawer enters INIT. -/
  | initDelayEnd (d : Nat)
  /-- TRAINING_TIMEOUT (R300): TRAIN_MS pass without DL_Active, and the Drawer fails with REASON 1. -/
  | trainingTimeout (d : Nat)
  /-- DRIVE_REGISTER_ACCESS_DONE (R297): A configuration or drive-register access completes and the admission sequence advances. -/
  | driveRegisterAccessDone (d : Nat) (v : DriveFacts)
  /-- DRIVE_LINK_DOWN (R300): The link goes down with presence held; DPC triggers and the Drawer fails with REASON 11. -/
  | driveLinkDown (d : Nat) (cfs : Bool)
  /-- NVME_COMPLETION (R304): A completion-queue entry is matched by SQ, context and rotation, and its command ends with its status. -/
  | nvmeCompletion (d sq cid : Nat) (st : NvmeStatus)
  /-- IO_TIMEOUT (R307): At a boundary, an I/O command past its timeout is aborted, quarantined and recovered or reissued. -/
  | ioTimeout (d sq cid : Nat)
  /-- ADMIN_TIMEOUT (R307): An admin command exceeds DRV_ADMIN_TO, and the Drawer enters RESET. -/
  | adminTimeout (d : Nat)
  /-- PCIE_COMPLETION_TIMEOUT (R307): A non-posted root-port request times out, returns all ones, and leads to RESET or FAILED. -/
  | pcieCompletionTimeout (d : Nat)
  /-- CONTEXT_QUARANTINE_END (R308): Two timeout periods after a timeout, the context is freed or, if the original is unaccounted, the Drawer is reset. -/
  | contextQuarantineEnd (d sq cid : Nat)
  /-- ASYNC_EVENT (R309): A critical warning sets WARNING and, for bits 2 to 4, makes the position lost. -/
  | asyncEvent (d warning : Nat)
  /-- DRIVE_AER_MESSAGE (R295): An AER error from a drive link is logged in the event recorder. -/
  | driveAerMessage (d unc cor : Nat) (hdr : List Byte)
  /-- DRAWER_RESET_DONE (R310): A Drawer reset completes and its ended writes are resubmitted, or it fails with REASON 3. -/
  | drawerResetDone (d : Nat) (ok : Bool)
  /-- SBD_START (R331): SBD_CMD.START starts the Sideboard controller after HBM training. -/
  | sbdStart (p : Path)
  /-- SBD_STOP (R331): SBD_CMD.STOP is always refused after START. -/
  | sbdStop (p : Path)
  /-- BAR2_READ (R316): A BAR2 read returns Sideboard bytes, or 0 in the Bureau area and above 48 GiB. -/
  | bar2Read (off len : Nat)
  /-- BAR2_WRITE (R316): A BAR2 write is performed only in the host area; elsewhere it is discarded and counted. -/
  | bar2Write (off : Nat) (data : List Byte)
  /-- SIDEBOARD_UE (R318): An uncorrectable Sideboard error is logged and handled by the requester's row. -/
  | sideboardUe (requester addr owner : Nat)
  /-- ARBITER_GRANT (R320): Before each burst, the arbiter grants the highest unmasked seat that has a request pending. -/
  | arbiterGrant (arb : Nat)
  /-- SEAT_MASK (R322): A block's mask sideband asserts, and its seat's queued requests are discarded. -/
  | seatMask (arb seat : Nat)
  /-- SEAT_UNMASK (R322): A block's mask sideband deasserts, and its seat starts with an empty queue. -/
  | seatUnmask (arb seat : Nat)
  /-- LOCK_ACQUIRE (R326): An acquire grants a FREE or ABANDONED lock, or returns busy. -/
  | lockAcquire (who : LockOwner) (n : Nat)
  /-- LOCK_RELEASE (R327): A release from the owner with the current GEN frees the lock. -/
  | lockRelease (who : LockOwner) (n gen : Nat)
  /-- LOCK_RENEW (R327): A renew from the owner resets the lease count. -/
  | lockRenew (who : LockOwner) (n gen : Nat)
  /-- LOCK_CLEAN (R327): A clean from the owner clears RECOVER. -/
  | lockClean (who : LockOwner) (n gen : Nat)
  /-- LOCK_STATE_READ (R325): A window load at +0x20 returns the lock's state and GEN, with no effect. -/
  | lockStateRead (who : LockOwner) (n : Nat)
  /-- LOCK_FORCE (R333): LCK OP 5 from the Bureau abandons a HELD lock. -/
  | lockForce (p : Path) (n : Nat)
  /-- LOCK_LEASE_EXPIRY (R329): A lock whose lease count reaches LEASE becomes ABANDONED after the boundary's actions. -/
  | lockLeaseExpiry (n : Nat)
  /-- HNG_START (R353): HNG_CMD OP 1 starts the Hinge block and the role decision. -/
  | hngStart (p : Path)
  /-- HNG_STOP (R359): HNG_CMD OP 2 stops the Hinge block, or is refused while active and paired. -/
  | hngStop (p : Path)
  /-- ROLE_SWAP (R354): HNG_CMD OP 3 drains the active and swaps the roles with no command failing. -/
  | roleSwap (p : Path)
  /-- REJOIN (R347): HNG_CMD OP 4 makes a DETACHED or FENCED part restart synchronisation as a standby. -/
  | rejoin (p : Path)
  /-- DETACH (R347): HNG_CMD OP 5 makes the active detach its standby. -/
  | detach (p : Path)
  /-- HINGE_COPY (R341): A COPY frame's sections are queued for the copy of its epoch. -/
  | hingeCopy (h : HingeHdr) (sections : List CopySection)
  /-- HINGE_COPY_END (R341): COPY_END closes a copy; the standby checks the CRC, applies the copy and sends CONFIRM. -/
  | hingeCopyEnd (h : HingeHdr) (counts : List Nat) (crc : Nat)
  /-- HINGE_CONFIRM (R261): A CONFIRM from the standby confirms the records of its epoch. -/
  | hingeConfirm (h : HingeHdr) (epoch crc result : Nat)
  /-- HINGE_ACK (R339): A Hinge ACK frees the acknowledged frames. -/
  | hingeAck (h : HingeHdr) (seq : Nat)
  /-- HINGE_NAK (R339): A Hinge NAK makes the sender resend from the missing SEQ. -/
  | hingeNak (h : HingeHdr) (seq : Nat)
  /-- HINGE_SYNC (R352): A SYNC frame delivers initial state to a synchronising standby. -/
  | hingeSync (h : HingeHdr) (sections : List CopySection)
  /-- HINGE_TIME (R352): A TIME frame aligns the standby's epoch count and cycle number. -/
  | hingeTime (h : HingeHdr) (time epoch flight : Nat)
  /-- HINGE_RECORDER (R411): A RECORDER frame delivers an extent into the peer area. -/
  | hingeRecorder (h : HingeHdr) (data : List Byte)
  /-- HINGE_RESEND_TIMEOUT (R339): 4 µs after the oldest unacknowledged frame, the sender resends. -/
  | hingeResendTimeout
  /-- HINGE_ACK_TIMER (R339): Every 1 µs, the receiver sends an ACK. -/
  | hingeAckTimer
  /-- HINGE_LINK_DOWN (R336): Hinge lanes fail, and the link retrains narrower or counts as down. -/
  | hingeLinkDown (lanes : Nat)
  /-- TETHER_FRAME (R344): A valid Tether frame keeps its pair live and carries the peer's role, pair state and detach flags. -/
  | tetherFrame (pair : Nat) (f : TetherFrame)
  /-- TETHER_SEND (R344): Every 10 µs, the part sends its 80-bit frame on both Tether pairs. -/
  | tetherSend
  /-- TETHER_SILENT (R346): 30 µs pass without a live frame having CORE_OK, and the Tether path is silent. -/
  | tetherSilent
  /-- COPY_END_MISSED (R346): A COPY_END fails to arrive within GRACE after its boundary; three in a row silence the Hinge. -/
  | copyEndMissed
  /-- WATCHDOG_LAPSE (R345): WDOG epochs pass without a feed, and CORE_OK clears. -/
  | watchdogLapse
  /-- CONTEST_TIMEOUT (R348): A ledger-drive acquire unanswered within CONTEST_US counts that drive as unreachable. -/
  | contestTimeout (drawer : Nat)
  /-- START_DEFER_END (R353): After START_DEFER ms, a STARTING unit 1 contests. -/
  | startDeferEnd
  /-- ANNOUNCE_REPEAT (R350): At 100 µs intervals, the gratuitous ARP or Neighbor Advertisement is repeated. -/
  | announceRepeat
  /-- POWER_FAIL_WARNING (R355): PFW_N asserts; the active stops new work and releases only durable completions. -/
  | powerFailWarning
  /-- PFW_RELEASE (R409): PFW_N releases, and the continuous recorder flush ends. -/
  | pfwRelease
  /-- SLP_START (R376): SLP_CMD.START starts the power block, and enabled feeds turn on. -/
  | slpStart (p : Path)
  /-- SLP_STOP (R376): SLP_CMD.STOP turns every gate off, or is refused while DRV runs or any channel is on. -/
  | slpStop (p : Path)
  /-- SLOT_ON_COMMAND (R361): The Drawer logic commands a slot channel on, and it enters START. -/
  | slotOnCommand (d : Nat)
  /-- SLOT_OFF_COMMAND (R361): The Drawer logic commands a slot channel off, and it enters OFF within 1 µs. -/
  | slotOffCommand (d : Nat)
  /-- START_PHASE_END (R361): 200 µs after START, the channel enters RAMP, or ON when joining. -/
  | startPhaseEnd (d : Nat)
  /-- RAMP_COMPLETE (R361): SG_OUT reaches VIN − 0.3 V, and the channel enters ON. -/
  | rampComplete (d : Nat)
  /-- FAST_TRIP (R363): The path current crosses ITRIP, and the gate is pulled down at full sink current. -/
  | fastTrip (d : Nat)
  /-- LIMITING_START (R364): The fold-back loop takes control of the gate, and the fault timer starts. -/
  | limitingStart (d : Nat)
  /-- LIMITING_END (R364): Limiting ends, and the fault timer returns to 0. -/
  | limitingEnd (d : Nat)
  /-- FAULT_TIMER_EXPIRY (R364): The fault timer reaches TFAULT, and the gate is pulled down with cause TIMER. -/
  | faultTimerExpiry (d : Nat)
  /-- POWER_GOOD_DEBOUNCE_END (R365): The power-good condition has held for 1 ms, and power-good asserts. -/
  | powerGoodDebounceEnd (d : Nat)
  /-- POWER_GOOD_FAIL (R365): The power-good condition fails, and an asserted power-good deasserts. -/
  | powerGoodFail (d : Nat)
  /-- RETRY_DELAY_END (R366): RETRY_MS after a fault, the channel returns to START. -/
  | retryDelayEnd (d : Nat)
  /-- RETRY_COUNT_CLEAR (R361): Power-good held for 1 s clears the retry count. -/
  | retryCountClear (d : Nat)
  /-- CONTROL_LINK_SILENT (R11): The power-die control link is silent for 64 µs, and the channels hold their states. -/
  | controlLinkSilent
  /-- CONTROL_LINK_RECOVER (R11): The control link recovers, and the channels accept commands again. -/
  | controlLinkRecover
  /-- FEED_OVERCURRENT (R369): Feed current crosses FEED ITRIP, and the feed channel enters FAULT. -/
  | feedOvercurrent (f : Nat)
  /-- FEED_REVERSE_CURRENT (R369): Reverse current into the feed passes 2 A, and the feed channel enters FAULT. -/
  | feedReverseCurrent (f : Nat)
  /-- ADC_SAMPLE (R372): Every 10 µs, the ADC samples channel currents and voltages. -/
  | adcSample (bus : Nat) (slots feeds : List (Nat × Nat × Nat))
  /-- MEP_PERST (R378): MEP_PERST_N resets the management link, acting as an FLR and resetting configuration space. -/
  | mepPerst
  /-- CFG_READY_SET (R378): A write of MEP_CTRL.CFG_READY makes the endpoint answer configuration requests. -/
  | cfgReadySet (p : Path)
  /-- FUNCTION_LEVEL_RESET (R383): A written FLR stops requests, aborts DMA and waits for outstanding requests. -/
  | functionLevelReset
  /-- FLR_COMPLETE (R383): Function state returns to reset values and BAR0 locks are abandoned. -/
  | flrComplete
  /-- BME_CLEAR (R383): Clearing Bus Master Enable stops requests and aborts busy DMA channels. -/
  | bmeClear
  /-- BME_SET (R383): Setting Bus Master Enable sends pending MSI-X messages. -/
  | bmeSet
  /-- POWER_STATE_WRITE (R379): A write of the power state moves the endpoint between D0 and D3hot. -/
  | powerStateWrite (d3 : Bool)
  /-- VECTOR_ACK (R382): A write of MEP_VEC_ACK re-arms vectors, and any whose level is still 1 sends a new message. -/
  | vectorAck (p : Path) (mask : Nat)
  /-- MSIX_MASK_CLEAR (R382): Unmasking a pending vector sends its message. -/
  | msixMaskClear (p : Path) (v : Nat)
  /-- L1_IDLE_EXPIRY (R381): After L1_IDLE µs idle, the endpoint requests L1. -/
  | l1IdleExpiry
  /-- DMA_START (R383): A write of MEP_DMA GO starts a copy between the Sideboard and host memory. -/
  | dmaStart (p : Path) (ch ctl : Nat)
  /-- DMA_DONE (R383): A DMA channel ends with its status. -/
  | dmaDone (ch : Nat) (ok : Bool) (data : List Byte)
  /-- ATS_INVALIDATE (R384): An Invalidate Request removes overlapping ATS entries and is answered with an Invalidate Completion. -/
  | atsInvalidate (addr size tag : Nat)
  /-- FW_VERIFY (R398): FWU_CMD OP 1 verifies the staged image. -/
  | fwVerify (p : Path)
  /-- FW_PROGRAM (R399): FWU_CMD OP 2 erases, programs and seals the NOR image. -/
  | fwProgram (p : Path)
  /-- FW_ACTIVATE (R400): FWU_CMD OP 3 hands over to the staged image within the running controller. -/
  | fwActivate (p : Path)
  /-- FW_COMMIT_SVN (R392): FWU_CMD OP 4 blows fuses until the fused count equals the running SVN. -/
  | fwCommitSvn (p : Path)
  /-- FW_WRITE_RECOVERY (R397): FWU_CMD OP 5 writes the recovery record. -/
  | fwWriteRecovery (p : Path)
  /-- FW_CLEAR_STAGING (R398): FWU_CMD OP 6 clears the staging area. -/
  | fwClearStaging (p : Path)
  /-- FW_OP_DONE (R398): A firmware operation ends and sets DONE or FAILED with its result. -/
  | fwOpDone (mismatch : Bool)
  /-- BLK_DATA_WRITE (R396): A write to FWU_BLK_DATA stores a staging word, and the last word advances FWU_BLK_OFF. -/
  | blkDataWrite (p : Path) (idx val : Nat)
  /-- DBG_UNLOCK (R401): FWU_DBG_CMD OP 1 checks the signature and unlocks debug, zeroising every key slot. -/
  | dbgUnlock (p : Path)
  /-- DBG_LOCK (R401): FWU_DBG_CMD OP 2 locks debug and abandons the JTAG locks. -/
  | dbgLock (p : Path)
  /-- BOOT (R394): At reset release, the ROM, loader and Bureau run the start sequence. -/
  | boot
  /-- EVR_FLUSH (R409): EVR_CMD OP 1 starts a recorder flush. -/
  | evrFlush (p : Path)
  /-- EVR_POST (R419): A write of EVR_POST GO from the Bureau posts a firmware-defined record. -/
  | evrPost (p : Path)
  /-- EVR_WINDOW_READ (R408): A read of EVR_WINDOW builds a page, or advances the cursor past the page. -/
  | evrWindowRead (p : Path) (idx : Nat)
  /-- EVR_CUR_WRITE (R408): A write of EVR_CUR sets the cursor and drops the page. -/
  | evrCurWrite (p : Path) (seq : Nat)
  /-- EXTENT_COMMITTED (R410): A recorder extent's commit word reaches a drive, or the peer acknowledges it, and EVR_FLUSHED advances. -/
  | extentCommitted (drawer : Nat) (ok : Bool)
  /-- PMC_CLEAR (R414): PMC_CMD OP 1 returns every counter to 0 at the next boundary. -/
  | pmcClear (p : Path)
  /-- POWER_ON_RESET (R422): PWR_OK low holds the device in power-on reset. -/
  | powerOnReset
  /-- WARM_RESET (R423): RESET_N low starts a warm reset. -/
  | warmReset
  /-- WARM_RESET_CMD (R423): TOP_RESET OP 1 with KEY 0xC0DE starts a warm reset. -/
  | warmResetCmd (p : Path) (key : Nat)
  /-- SHELF_RESET (R426): SHELF_RST_N low starts shelf-reset entry, preserving the Sideboard ledger. -/
  | shelfReset
  /-- SHELF_RESET_CMD (R423): TOP_RESET OP 2 with KEY 0xC0DE starts a shelf reset. -/
  | shelfResetCmd (p : Path) (key : Nat)
  /-- SELF_REFRESH_DONE (R426): Both HBM stacks enter self-refresh, and PRESERVED is set. -/
  | selfRefreshDone
  /-- BLOCK_RESET (R427): TOP_BLKRST starts a per-block reset, or is refused. -/
  | blockReset (p : Path) (block : Nat)
  /-- BLOCK_RESET_DONE (R428): A per-block reset completes, and BLKRST_DONE is set. -/
  | blockResetDone
  /-- THERMAL_WARNING (R446): A sensor reaches WARN, or an HBM stack passes 85 °C, and an event is set. -/
  | thermalWarning (sensor temp : Nat)
  /-- THERMAL_TRIP (R447): A sensor reaches its trip value; the device stops and drives THERMTRIP_N. -/
  | thermalTrip
  /-- CLOCK_LOSS (R444): An input clock has no edge for 1 µs and is handled by its row. -/
  | clockLoss (clk : Nat)
  /-- CLOCK_RETURN (R444): A lost clock returns; HOLD clears for REF_CLK and the unit re-locks. -/
  | clockReturn (clk : Nat)
  /-- HINGE_LINK_UP (R336): The Hinge lanes finish training, so the link comes up or widens again and the Hinge path can become live. -/
  | hingeLinkUp (lanes : Nat)
  /-- MEP_LINK_DOWN (R388): The management link leaves DL_Active for a cause other than MEP_PERST_N or a clock loss, and MEP_EVENT.LINK_DOWN is set. -/
  | mepLinkDown
  /-- MEP_LINK_UP (R378): The management link reaches DL_Active, and MEP_LINK.UP sets. -/
  | mepLinkUp (width : Nat) (top : Bool)
  /-- MSIX_ENABLE (R382): The host sets MSI-X Enable in configuration space, and the vectors left pending are sent. -/
  | msixEnable
  /-- ATS_ENABLE_CLEAR (R384): Clearing the ATS Enable bit empties the translation cache, and later requests use untranslated addresses. -/
  | atsEnableClear
  /-- ENDPOINT_AER_ERROR (R388): The management endpoint detects an uncorrectable error, writes an AER event record and sets MEP_EVENT.AER. -/
  | endpointAerError (unc cor : Nat) (hdr : List Byte)
  /-- ENTROPY_SOURCE_RECOVER (R245): A failed noise source passes its start-up tests again, SRC_FAILED clears, and the DRBG reseeds at its next request. -/
  | entropySourceRecover
  /-- ARP_OR_NEIGHBOR_SOLICITATION (R351): An ARP request or Neighbor Solicitation for a logical port address arrives and is answered by an active part and ignored by a standby. -/
  | arpOrNeighborSolicitation (lport target : Nat) (v6 : Bool)
  /-- DBG_RESET (R328): The DBG domain is reset through JTAG_TRST_N, and every lock held by JTAG becomes ABANDONED. -/
  | dbgReset
  /-- PRSNT_ASSERT (R300): PRSNT_N of an EMPTY Drawer asserts, and the presence debounce starts. -/
  | prsntAssert (d : Nat)
  /-- CSTS_RDY_TIMEOUT (R297): CSTS.RDY has not set within CAP.TO × 500 ms of CC.EN, and the Drawer becomes FAILED with REASON 3. -/
  | cstsRdyTimeout (d : Nat)
  /-- PERST_ASSERT_END (R300): After PERST_N has been asserted for 10 ms under DRV_CMD OP 4, PERST_N is released and the Drawer enters TRAINING. -/
  | perstAssertEnd (d : Nat)
  /-- CQ_HEAD_DOORBELL_DELAY (R304): 1 µs after the last new completion entry, the drive port writes the CQ head doorbell. -/
  | cqHeadDoorbellDelay (d sq : Nat)
  deriving DecidableEq, Repr

end Sys2Proof
end

