-- ==== Sys2Proof/Config.lean ====
section
/-! DEFINITION. What the spec leaves open: free values (constants without a body, so that nothing can be proved of
their value) and the cryptographic primitives the spec names but does not define. -/

namespace Sys2Proof.Config

/-- A value the spec leaves undefined: the n-th one drawn in a run (DESIGN CHOICE, log entry 6). -/
opaque freeValue : Nat → BitVec 64

/-- The n-th byte of a value the spec leaves undefined (DESIGN CHOICE, log entry 6). -/
opaque freeByte : Nat → BitVec 8

/-- The output of the conditioned noise sources and of the DRBG, by draw (R244, R245; DESIGN CHOICE, log entry 8). -/
opaque entropy : Nat → Nat → List Byte

/-- AES-256-XTS of one 256-byte cell of a data unit: encrypt?, key, data-unit number, cell of the unit, its data
(R232, R237; DESIGN CHOICE, log entry 7). -/
opaque xts : Bool → List Byte → Nat → Nat → List Byte → List Byte

/-- AES-256-GCM tag of a packet: key, IV, additional data, plaintext (R80; DESIGN CHOICE, log entry 7). -/
opaque gcmTag : List Byte → List Byte → List Byte → List Byte → List Byte

/-- AES-256-GCM keystream applied to a payload (R80; DESIGN CHOICE, log entry 7). -/
opaque gcmCrypt : List Byte → List Byte → List Byte → List Byte

/-- The SP 800-108 derivation in counter mode with CMAC: key, label and context, bytes out (R101; DESIGN CHOICE, log entry 7). -/
opaque kdf : List Byte → List Byte → Nat → List Byte

/-- AES-CMAC (R102; DESIGN CHOICE, log entry 7). -/
opaque cmac : List Byte → List Byte → List Byte

/-- AES key wrap (encrypt?, key, data): no result where an unwrap fails its check (R235; DESIGN CHOICE, log entry 7). -/
opaque keyWrap : Bool → List Byte → List Byte → Option (List Byte)

/-- SHA-384 (R172, R398; DESIGN CHOICE, log entry 7). -/
opaque sha384 : List Byte → List Byte

/-- ECDSA P-384 verification: public key, digest, signature (R172, R398, R401; DESIGN CHOICE, log entry 7). -/
opaque ecdsaOk : List Byte → List Byte → List Byte → Bool

/-- The 384-bit root-key hash and the root key itself, from the fuses (R391, R401; DESIGN CHOICE, log entry 4). -/
opaque rootKeyHash : List Byte
opaque rootKey : List Byte

/-- The handler bindings a Bureau section holds: for an opcode, which type 2 section of the image and which entry serve it
(R394, DESIGN CHOICE, log entry 45). -/
opaque fwBindings : List Byte → Nat → Option (Nat × Nat)

/-- The 256-bit fused device secret (R234; DESIGN CHOICE, log entry 7). -/
opaque deviceSecret : List Byte

end Sys2Proof.Config
end

