-- ==== Sys2Proof/Machine/Registers.lean ====
section
/-! DEFINITION. The register space as the spec's register tables give it: every field of every register (its byte
address, place, access code, class and reset value, R4, R6, R7), and every register with its copies. -/

namespace Sys2Proof.Reg

/-- The access codes of R6. -/
inductive Acc
  | ro | rw | wo | w1c | rc
  deriving DecidableEq, Repr

/-- The classes of R7. -/
inductive RegClass
  | L | I | S | C | K
  deriving DecidableEq, Repr

/-- One field of one register: `addr` is the byte address of its register (first word, instance 0), `lo` its lowest
bit counted from there, `stride` the bytes from one instance to the next. -/
structure Field where
  addr : Nat
  stride : Nat
  lo : Nat
  width : Nat
  acc : Acc
  cls : RegClass
  reset : Nat → Nat

/-- The key of instance `i` of a field in the register file: its bit address. -/
def Field.key (f : Field) (i : Nat) : Nat := 8 * (f.addr + f.stride * i) + f.lo

/-- One register of the tables: `count` instances, `bytes` long, with its fields. -/
structure Register where
  name : String
  addr : Nat
  count : Nat
  stride : Nat
  bytes : Nat
  fields : List Field

/-- A field whose every instance resets to 0. -/
def zeroReset : Nat → Nat := fun _ => 0

/-- The reset seat maps of R319: by 16 × arbiter + seat. -/
def arbSeatReset (i : Nat) : Nat :=
  (if i / 16 = 2 then
    [0x1F, 0x1F, 0x1F, 0x1F, 0x1F, 0x1F, 0x1F, 0x1F, 0x1F, 6, 3, 2, 1, 4, 0, 5]
  else
    [0x1F, 0x1F, 0x1F, 0x1F, 9, 10, 11, 7, 8, 0, 1, 3, 2, 4, 6, 5]).getD (i % 16) 0x1F

/-! ### RTU -/

def RTU_CMD_STOP : Field := ⟨0x100000, 0x0, 1, 1, .wo, .C, zeroReset⟩
def RTU_CMD_START : Field := ⟨0x100000, 0x0, 0, 1, .wo, .C, zeroReset⟩
def RTU_SRC_REFCLK_SEL : Field := ⟨0x100004, 0x0, 5, 1, .rw, .I, zeroReset⟩
def RTU_SRC_START_MODE : Field := ⟨0x100004, 0x0, 4, 1, .rw, .I, zeroReset⟩
def RTU_SRC_EDGE : Field := ⟨0x100004, 0x0, 3, 1, .rw, .I, zeroReset⟩
def RTU_SRC_FRAME_IF : Field := ⟨0x100004, 0x0, 2, 1, .rw, .I, zeroReset⟩
def RTU_SRC_SRC : Field := ⟨0x100004, 0x0, 0, 2, .rw, .I, zeroReset⟩
def RTU_DIV_D_M1 : Field := ⟨0x100008, 0x0, 16, 12, .rw, .I, zeroReset⟩
def RTU_DIV_M_M1 : Field := ⟨0x100008, 0x0, 0, 12, .rw, .I, zeroReset⟩
def RTU_EPOCH_K : Field := ⟨0x10000C, 0x0, 0, 4, .rw, .L, fun _ => 3⟩
def RTU_NOMPER_PERIOD : Field := ⟨0x100010, 0x0, 0, 46, .rw, .I, fun _ => 546133333333⟩
def RTU_TOL_QUAL_COUNT : Field := ⟨0x100018, 0x0, 10, 6, .rw, .I, fun _ => 8⟩
def RTU_TOL_LOSS_COUNT : Field := ⟨0x100018, 0x0, 4, 4, .rw, .I, fun _ => 3⟩
def RTU_TOL_WIN_SHIFT : Field := ⟨0x100018, 0x0, 0, 4, .rw, .I, fun _ => 6⟩
def RTU_REF_DELAY_DELAY : Field := ⟨0x10001C, 0x0, 0, 32, .rw, .I, zeroReset⟩
def RTU_PTP_PERIOD_PERIOD : Field := ⟨0x100020, 0x0, 0, 32, .rw, .I, zeroReset⟩
def RTU_PTP_PHASE_PHASE : Field := ⟨0x100024, 0x0, 0, 32, .rw, .I, zeroReset⟩
def RTU_PTP_CFG_LPORT : Field := ⟨0x100028, 0x0, 14, 5, .rw, .I, zeroReset⟩
def RTU_PTP_CFG_TRANSPORT : Field := ⟨0x100028, 0x0, 12, 2, .rw, .I, zeroReset⟩
def RTU_PTP_CFG_DELAY_MECH : Field := ⟨0x100028, 0x0, 8, 1, .rw, .I, zeroReset⟩
def RTU_PTP_CFG_DOMAIN : Field := ⟨0x100028, 0x0, 0, 8, .rw, .I, zeroReset⟩
def RTU_IRQ_EN_EN : Field := ⟨0x10002C, 0x0, 0, 5, .rw, .L, zeroReset⟩
def RTU_STATUS_PTP_LOCKED : Field := ⟨0x100040, 0x0, 5, 1, .ro, .S, zeroReset⟩
def RTU_STATUS_SLEWING : Field := ⟨0x100040, 0x0, 4, 1, .ro, .S, zeroReset⟩
def RTU_STATUS_STATE : Field := ⟨0x100040, 0x0, 0, 3, .ro, .S, zeroReset⟩
def RTU_EVENT_START_REFUSED : Field := ⟨0x100044, 0x0, 4, 1, .w1c, .C, zeroReset⟩
def RTU_EVENT_GLITCH : Field := ⟨0x100044, 0x0, 3, 1, .w1c, .C, zeroReset⟩
def RTU_EVENT_LOCKED : Field := ⟨0x100044, 0x0, 2, 1, .w1c, .C, zeroReset⟩
def RTU_EVENT_RELOCK : Field := ⟨0x100044, 0x0, 1, 1, .w1c, .C, zeroReset⟩
def RTU_EVENT_HOLDOVER : Field := ⟨0x100044, 0x0, 0, 1, .w1c, .C, zeroReset⟩
def RTU_NOW_TIME : Field := ⟨0x100048, 0x0, 0, 64, .ro, .S, zeroReset⟩
def RTU_PERIOD_PERIOD : Field := ⟨0x100050, 0x0, 0, 46, .ro, .S, zeroReset⟩
def RTU_EDGE_STAMP_TIME : Field := ⟨0x100058, 0x0, 0, 64, .ro, .S, zeroReset⟩
def RTU_EPOCH_COUNT_COUNT : Field := ⟨0x100060, 0x0, 0, 64, .ro, .S, zeroReset⟩
def RTU_PHASE_ERR_ERR : Field := ⟨0x100068, 0x0, 0, 32, .ro, .S, zeroReset⟩
def RTU_LINE_LEN_LEN : Field := ⟨0x10006C, 0x0, 0, 32, .ro, .S, zeroReset⟩
def RTU_PTP_OFFSET_OFFSET : Field := ⟨0x100070, 0x0, 0, 32, .ro, .S, zeroReset⟩
def RTU_MISSED_EDGES : Field := ⟨0x100080, 0x0, 0, 32, .rc, .K, zeroReset⟩
def RTU_GLITCHES : Field := ⟨0x100084, 0x0, 0, 32, .rc, .K, zeroReset⟩
def RTU_HOLD_CYCLES : Field := ⟨0x100088, 0x0, 0, 32, .rc, .K, zeroReset⟩
def RTU_SLEW_LINES : Field := ⟨0x10008C, 0x0, 0, 32, .rc, .K, zeroReset⟩

/-- The registers of block RTU (R39). -/
def rtuRegisters : List Register := [
  ⟨"RTU_CMD", 0x100000, 1, 0x0, 4, [RTU_CMD_STOP, RTU_CMD_START]⟩,
  ⟨"RTU_SRC", 0x100004, 1, 0x0, 4, [RTU_SRC_REFCLK_SEL, RTU_SRC_START_MODE, RTU_SRC_EDGE, RTU_SRC_FRAME_IF, RTU_SRC_SRC]⟩,
  ⟨"RTU_DIV", 0x100008, 1, 0x0, 4, [RTU_DIV_D_M1, RTU_DIV_M_M1]⟩,
  ⟨"RTU_EPOCH", 0x10000C, 1, 0x0, 4, [RTU_EPOCH_K]⟩,
  ⟨"RTU_NOMPER", 0x100010, 1, 0x0, 8, [RTU_NOMPER_PERIOD]⟩,
  ⟨"RTU_TOL", 0x100018, 1, 0x0, 4, [RTU_TOL_QUAL_COUNT, RTU_TOL_LOSS_COUNT, RTU_TOL_WIN_SHIFT]⟩,
  ⟨"RTU_REF_DELAY", 0x10001C, 1, 0x0, 4, [RTU_REF_DELAY_DELAY]⟩,
  ⟨"RTU_PTP_PERIOD", 0x100020, 1, 0x0, 4, [RTU_PTP_PERIOD_PERIOD]⟩,
  ⟨"RTU_PTP_PHASE", 0x100024, 1, 0x0, 4, [RTU_PTP_PHASE_PHASE]⟩,
  ⟨"RTU_PTP_CFG", 0x100028, 1, 0x0, 4, [RTU_PTP_CFG_LPORT, RTU_PTP_CFG_TRANSPORT, RTU_PTP_CFG_DELAY_MECH, RTU_PTP_CFG_DOMAIN]⟩,
  ⟨"RTU_IRQ_EN", 0x10002C, 1, 0x0, 4, [RTU_IRQ_EN_EN]⟩,
  ⟨"RTU_STATUS", 0x100040, 1, 0x0, 4, [RTU_STATUS_PTP_LOCKED, RTU_STATUS_SLEWING, RTU_STATUS_STATE]⟩,
  ⟨"RTU_EVENT", 0x100044, 1, 0x0, 4, [RTU_EVENT_START_REFUSED, RTU_EVENT_GLITCH, RTU_EVENT_LOCKED, RTU_EVENT_RELOCK, RTU_EVENT_HOLDOVER]⟩,
  ⟨"RTU_NOW", 0x100048, 1, 0x0, 8, [RTU_NOW_TIME]⟩,
  ⟨"RTU_PERIOD", 0x100050, 1, 0x0, 8, [RTU_PERIOD_PERIOD]⟩,
  ⟨"RTU_EDGE_STAMP", 0x100058, 1, 0x0, 8, [RTU_EDGE_STAMP_TIME]⟩,
  ⟨"RTU_EPOCH_COUNT", 0x100060, 1, 0x0, 8, [RTU_EPOCH_COUNT_COUNT]⟩,
  ⟨"RTU_PHASE_ERR", 0x100068, 1, 0x0, 4, [RTU_PHASE_ERR_ERR]⟩,
  ⟨"RTU_LINE_LEN", 0x10006C, 1, 0x0, 4, [RTU_LINE_LEN_LEN]⟩,
  ⟨"RTU_PTP_OFFSET", 0x100070, 1, 0x0, 4, [RTU_PTP_OFFSET_OFFSET]⟩,
  ⟨"RTU_MISSED_EDGES", 0x100080, 1, 0x0, 4, [RTU_MISSED_EDGES]⟩,
  ⟨"RTU_GLITCHES", 0x100084, 1, 0x0, 4, [RTU_GLITCHES]⟩,
  ⟨"RTU_HOLD_CYCLES", 0x100088, 1, 0x0, 4, [RTU_HOLD_CYCLES]⟩,
  ⟨"RTU_SLEW_LINES", 0x10008C, 1, 0x0, 4, [RTU_SLEW_LINES]⟩]

/-! ### CFG -/

def CFG_COMMIT_GEN : Field := ⟨0x200000, 0x0, 0, 32, .wo, .C, zeroReset⟩
def CFG_CTRL_DISCARD : Field := ⟨0x200004, 0x0, 1, 1, .wo, .C, zeroReset⟩
def CFG_CTRL_ROLLBACK : Field := ⟨0x200004, 0x0, 0, 1, .wo, .C, zeroReset⟩
def CFG_STATUS_SWITCH_UNSYNC : Field := ⟨0x200008, 0x0, 5, 1, .ro, .S, zeroReset⟩
def CFG_STATUS_PERSISTING : Field := ⟨0x200008, 0x0, 4, 1, .ro, .S, zeroReset⟩
def CFG_STATUS_PREV_VALID : Field := ⟨0x200008, 0x0, 3, 1, .ro, .S, zeroReset⟩
def CFG_STATUS_ROLLBACK_PENDING : Field := ⟨0x200008, 0x0, 2, 1, .ro, .S, zeroReset⟩
def CFG_STATUS_SEALED : Field := ⟨0x200008, 0x0, 1, 1, .ro, .S, zeroReset⟩
def CFG_STATUS_CHECKING : Field := ⟨0x200008, 0x0, 0, 1, .ro, .S, zeroReset⟩
def CFG_RESULT_INDEX : Field := ⟨0x20000C, 0x0, 16, 16, .ro, .S, zeroReset⟩
def CFG_RESULT_RULE : Field := ⟨0x20000C, 0x0, 8, 8, .ro, .S, zeroReset⟩
def CFG_RESULT_RESULT : Field := ⟨0x20000C, 0x0, 0, 8, .ro, .S, zeroReset⟩
def CFG_GEN_CURRENT_GEN : Field := ⟨0x200010, 0x0, 0, 32, .ro, .S, zeroReset⟩
def CFG_GEN_PENDING_GEN : Field := ⟨0x200014, 0x0, 0, 32, .ro, .S, zeroReset⟩
def CFG_GEN_PREVIOUS_GEN : Field := ⟨0x200018, 0x0, 0, 32, .ro, .S, zeroReset⟩
def CFG_GEN_DURABLE_GEN : Field := ⟨0x20001C, 0x0, 0, 32, .ro, .S, zeroReset⟩
def CFG_SWITCH_TIME_TIME : Field := ⟨0x200020, 0x0, 0, 64, .ro, .S, zeroReset⟩
def CFG_VIEW_VIEW : Field := ⟨0x200028, 0x4, 0, 2, .rw, .C, zeroReset⟩
def CFG_IRQ_EN_EN : Field := ⟨0x200034, 0x0, 0, 5, .rw, .L, zeroReset⟩
def CFG_EVENT_LOST : Field := ⟨0x200038, 0x0, 4, 1, .w1c, .C, zeroReset⟩
def CFG_EVENT_ERRLOG : Field := ⟨0x200038, 0x0, 3, 1, .w1c, .C, zeroReset⟩
def CFG_EVENT_DURABLE : Field := ⟨0x200038, 0x0, 2, 1, .w1c, .C, zeroReset⟩
def CFG_EVENT_REJECTED : Field := ⟨0x200038, 0x0, 1, 1, .w1c, .C, zeroReset⟩
def CFG_EVENT_SWITCHED : Field := ⟨0x200038, 0x0, 0, 1, .w1c, .C, zeroReset⟩
def CFG_BLKRUN_RUN : Field := ⟨0x200040, 0x0, 0, 22, .ro, .S, fun _ => 3719173⟩
def CFG_PATH_RD_ALLOW : Field := ⟨0x200044, 0x8, 0, 22, .rw, .L, fun i => if i == 2 then 0 else 0x3FFFFF⟩
def CFG_PATH_WR_ALLOW : Field := ⟨0x200048, 0x8, 0, 22, .rw, .L, fun i => if i == 0 then 0x3FFFFF else 0⟩
def CFG_ERRLOG_HEAD_ENTRY : Field := ⟨0x200060, 0x0, 0, 128, .ro, .S, zeroReset⟩
def CFG_ERRLOG_POP_POP : Field := ⟨0x200070, 0x0, 0, 1, .wo, .C, zeroReset⟩
def CFG_ERRLOG_LEVEL_LEVEL : Field := ⟨0x200074, 0x0, 0, 7, .ro, .S, zeroReset⟩
def CFG_ERRLOG_LOST : Field := ⟨0x200078, 0x0, 0, 32, .rc, .K, zeroReset⟩
def CFG_COMMITS : Field := ⟨0x200080, 0x0, 0, 32, .rc, .K, zeroReset⟩
def CFG_REJECTS : Field := ⟨0x200084, 0x0, 0, 32, .rc, .K, zeroReset⟩

/-- The registers of block CFG (R57). -/
def cfgRegisters : List Register := [
  ⟨"CFG_COMMIT", 0x200000, 1, 0x0, 4, [CFG_COMMIT_GEN]⟩,
  ⟨"CFG_CTRL", 0x200004, 1, 0x0, 4, [CFG_CTRL_DISCARD, CFG_CTRL_ROLLBACK]⟩,
  ⟨"CFG_STATUS", 0x200008, 1, 0x0, 4, [CFG_STATUS_SWITCH_UNSYNC, CFG_STATUS_PERSISTING, CFG_STATUS_PREV_VALID, CFG_STATUS_ROLLBACK_PENDING, CFG_STATUS_SEALED, CFG_STATUS_CHECKING]⟩,
  ⟨"CFG_RESULT", 0x20000C, 1, 0x0, 4, [CFG_RESULT_INDEX, CFG_RESULT_RULE, CFG_RESULT_RESULT]⟩,
  ⟨"CFG_GEN_CURRENT", 0x200010, 1, 0x0, 4, [CFG_GEN_CURRENT_GEN]⟩,
  ⟨"CFG_GEN_PENDING", 0x200014, 1, 0x0, 4, [CFG_GEN_PENDING_GEN]⟩,
  ⟨"CFG_GEN_PREVIOUS", 0x200018, 1, 0x0, 4, [CFG_GEN_PREVIOUS_GEN]⟩,
  ⟨"CFG_GEN_DURABLE", 0x20001C, 1, 0x0, 4, [CFG_GEN_DURABLE_GEN]⟩,
  ⟨"CFG_SWITCH_TIME", 0x200020, 1, 0x0, 8, [CFG_SWITCH_TIME_TIME]⟩,
  ⟨"CFG_VIEW", 0x200028, 3, 0x4, 4, [CFG_VIEW_VIEW]⟩,
  ⟨"CFG_IRQ_EN", 0x200034, 1, 0x0, 4, [CFG_IRQ_EN_EN]⟩,
  ⟨"CFG_EVENT", 0x200038, 1, 0x0, 4, [CFG_EVENT_LOST, CFG_EVENT_ERRLOG, CFG_EVENT_DURABLE, CFG_EVENT_REJECTED, CFG_EVENT_SWITCHED]⟩,
  ⟨"CFG_BLKRUN", 0x200040, 1, 0x0, 4, [CFG_BLKRUN_RUN]⟩,
  ⟨"CFG_PATH_RD", 0x200044, 3, 0x8, 4, [CFG_PATH_RD_ALLOW]⟩,
  ⟨"CFG_PATH_WR", 0x200048, 3, 0x8, 4, [CFG_PATH_WR_ALLOW]⟩,
  ⟨"CFG_ERRLOG_HEAD", 0x200060, 1, 0x0, 16, [CFG_ERRLOG_HEAD_ENTRY]⟩,
  ⟨"CFG_ERRLOG_POP", 0x200070, 1, 0x0, 4, [CFG_ERRLOG_POP_POP]⟩,
  ⟨"CFG_ERRLOG_LEVEL", 0x200074, 1, 0x0, 4, [CFG_ERRLOG_LEVEL_LEVEL]⟩,
  ⟨"CFG_ERRLOG_LOST", 0x200078, 1, 0x0, 4, [CFG_ERRLOG_LOST]⟩,
  ⟨"CFG_COMMITS", 0x200080, 1, 0x0, 4, [CFG_COMMITS]⟩,
  ⟨"CFG_REJECTS", 0x200084, 1, 0x0, 4, [CFG_REJECTS]⟩]

/-! ### NLT -/

def NLT_UDP_V6 : Field := ⟨0x400000, 0x10000, 17, 1, .rw, .I, fun _ => 1⟩
def NLT_UDP_V4 : Field := ⟨0x400000, 0x10000, 16, 1, .rw, .I, fun _ => 1⟩
def NLT_UDP_DPORT : Field := ⟨0x400000, 0x10000, 0, 16, .rw, .I, fun _ => 9417⟩
def NLT_XPORT_ENT_MAX : Field := ⟨0x400004, 0x10000, 16, 7, .rw, .L, fun _ => 16⟩
def NLT_XPORT_GCM_REQ : Field := ⟨0x400004, 0x10000, 8, 1, .rw, .L, zeroReset⟩
def NLT_XPORT_DATA8K : Field := ⟨0x400004, 0x10000, 0, 1, .rw, .L, fun _ => 1⟩
def NLT_RC_STEP_STEP : Field := ⟨0x400008, 0x10000, 0, 32, .rw, .L, fun _ => 500⟩
def NLT_RC_CUT_CUT : Field := ⟨0x40000C, 0x10000, 0, 8, .rw, .L, fun _ => 64⟩
def NLT_RC_FLOOR_FLOOR : Field := ⟨0x400010, 0x10000, 0, 32, .rw, .L, fun _ => 1000⟩
def NLT_RTO_REORDER : Field := ⟨0x400014, 0x10000, 16, 8, .rw, .L, fun _ => 48⟩
def NLT_RTO_RETRY_MAX : Field := ⟨0x400014, 0x10000, 8, 4, .rw, .L, fun _ => 7⟩
def NLT_RTO_RTO_EPOCHS : Field := ⟨0x400014, 0x10000, 0, 8, .rw, .L, fun _ => 4⟩
def NLT_ACK_COALESCE : Field := ⟨0x400018, 0x10000, 16, 8, .rw, .L, fun _ => 32⟩
def NLT_ACK_DELAY : Field := ⟨0x400018, 0x10000, 0, 16, .rw, .L, fun _ => 2000⟩
def NLT_ECN_ECT_EN : Field := ⟨0x40001C, 0x10000, 0, 1, .rw, .L, fun _ => 1⟩
def NLT_PORTCFG_SPLIT : Field := ⟨0x400020, 0x10000, 0, 2, .rw, .L, zeroReset⟩
def NLT_CMD_STOP : Field := ⟨0x400024, 0x10000, 1, 1, .wo, .C, zeroReset⟩
def NLT_CMD_START : Field := ⟨0x400024, 0x10000, 0, 1, .wo, .C, zeroReset⟩
def NLT_RUN_STOPPING : Field := ⟨0x400028, 0x10000, 1, 1, .ro, .S, zeroReset⟩
def NLT_RUN_RUN : Field := ⟨0x400028, 0x10000, 0, 1, .ro, .S, zeroReset⟩
def NLT_IRQ_EN_EN : Field := ⟨0x400040, 0x10000, 0, 3, .rw, .L, zeroReset⟩
def NLT_EVENT_CMD_REFUSED : Field := ⟨0x400044, 0x10000, 2, 1, .w1c, .C, zeroReset⟩
def NLT_EVENT_GCM_FAIL : Field := ⟨0x400044, 0x10000, 1, 1, .w1c, .C, zeroReset⟩
def NLT_EVENT_RETRY_EXHAUSTED : Field := ⟨0x400044, 0x10000, 0, 1, .w1c, .C, zeroReset⟩
def NLT_RX_PKTS : Field := ⟨0x400080, 0x10000, 0, 32, .rc, .K, zeroReset⟩
def NLT_TX_PKTS : Field := ⟨0x400084, 0x10000, 0, 32, .rc, .K, zeroReset⟩
def NLT_DROP_HDR : Field := ⟨0x400088, 0x10000, 0, 32, .rc, .K, zeroReset⟩
def NLT_DROP_CRC : Field := ⟨0x40008C, 0x10000, 0, 32, .rc, .K, zeroReset⟩
def NLT_DROP_GCM : Field := ⟨0x400090, 0x10000, 0, 32, .rc, .K, zeroReset⟩
def NLT_DROP_WINDOW : Field := ⟨0x400094, 0x10000, 0, 32, .rc, .K, zeroReset⟩
def NLT_DUP : Field := ⟨0x400098, 0x10000, 0, 32, .rc, .K, zeroReset⟩
def NLT_NAK_TX : Field := ⟨0x40009C, 0x10000, 0, 32, .rc, .K, zeroReset⟩
def NLT_NAK_RX : Field := ⟨0x4000A0, 0x10000, 0, 32, .rc, .K, zeroReset⟩
def NLT_RETX_TO : Field := ⟨0x4000A4, 0x10000, 0, 32, .rc, .K, zeroReset⟩
def NLT_RETX_FAST : Field := ⟨0x4000A8, 0x10000, 0, 32, .rc, .K, zeroReset⟩
def NLT_CE_RX : Field := ⟨0x4000AC, 0x10000, 0, 32, .rc, .K, zeroReset⟩
def NLT_CUTS : Field := ⟨0x4000B0, 0x10000, 0, 32, .rc, .K, zeroReset⟩
def NLT_PROBES : Field := ⟨0x4000B4, 0x10000, 0, 32, .rc, .K, zeroReset⟩
def NLT_ADDR4_ADDR : Field := ⟨0x400100, 0x10000, 0, 32, .rw, .I, zeroReset⟩
def NLT_ADDR6_ADDR : Field := ⟨0x400104, 0x10000, 0, 128, .rw, .I, zeroReset⟩
def NLT_PARK_LEVEL_LEVEL : Field := ⟨0x400120, 0x10000, 0, 12, .ro, .S, zeroReset⟩
def NLT_PARK_PKTS : Field := ⟨0x400180, 0x10000, 0, 32, .rc, .K, zeroReset⟩
def NLT_PARK_DROP : Field := ⟨0x400184, 0x10000, 0, 32, .rc, .K, zeroReset⟩
def NLT_CONN_NAK : Field := ⟨0x400188, 0x10000, 0, 32, .rc, .K, zeroReset⟩

/-- The registers of block NLT (R93, R94, R119). -/
def nltRegisters : List Register := [
  ⟨"NLT_UDP", 0x400000, 32, 0x10000, 4, [NLT_UDP_V6, NLT_UDP_V4, NLT_UDP_DPORT]⟩,
  ⟨"NLT_XPORT", 0x400004, 32, 0x10000, 4, [NLT_XPORT_ENT_MAX, NLT_XPORT_GCM_REQ, NLT_XPORT_DATA8K]⟩,
  ⟨"NLT_RC_STEP", 0x400008, 32, 0x10000, 4, [NLT_RC_STEP_STEP]⟩,
  ⟨"NLT_RC_CUT", 0x40000C, 32, 0x10000, 4, [NLT_RC_CUT_CUT]⟩,
  ⟨"NLT_RC_FLOOR", 0x400010, 32, 0x10000, 4, [NLT_RC_FLOOR_FLOOR]⟩,
  ⟨"NLT_RTO", 0x400014, 32, 0x10000, 4, [NLT_RTO_REORDER, NLT_RTO_RETRY_MAX, NLT_RTO_RTO_EPOCHS]⟩,
  ⟨"NLT_ACK", 0x400018, 32, 0x10000, 4, [NLT_ACK_COALESCE, NLT_ACK_DELAY]⟩,
  ⟨"NLT_ECN", 0x40001C, 32, 0x10000, 4, [NLT_ECN_ECT_EN]⟩,
  ⟨"NLT_PORTCFG", 0x400020, 32, 0x10000, 4, [NLT_PORTCFG_SPLIT]⟩,
  ⟨"NLT_CMD", 0x400024, 32, 0x10000, 4, [NLT_CMD_STOP, NLT_CMD_START]⟩,
  ⟨"NLT_RUN", 0x400028, 32, 0x10000, 4, [NLT_RUN_STOPPING, NLT_RUN_RUN]⟩,
  ⟨"NLT_IRQ_EN", 0x400040, 32, 0x10000, 4, [NLT_IRQ_EN_EN]⟩,
  ⟨"NLT_EVENT", 0x400044, 32, 0x10000, 4, [NLT_EVENT_CMD_REFUSED, NLT_EVENT_GCM_FAIL, NLT_EVENT_RETRY_EXHAUSTED]⟩,
  ⟨"NLT_RX_PKTS", 0x400080, 32, 0x10000, 4, [NLT_RX_PKTS]⟩,
  ⟨"NLT_TX_PKTS", 0x400084, 32, 0x10000, 4, [NLT_TX_PKTS]⟩,
  ⟨"NLT_DROP_HDR", 0x400088, 32, 0x10000, 4, [NLT_DROP_HDR]⟩,
  ⟨"NLT_DROP_CRC", 0x40008C, 32, 0x10000, 4, [NLT_DROP_CRC]⟩,
  ⟨"NLT_DROP_GCM", 0x400090, 32, 0x10000, 4, [NLT_DROP_GCM]⟩,
  ⟨"NLT_DROP_WINDOW", 0x400094, 32, 0x10000, 4, [NLT_DROP_WINDOW]⟩,
  ⟨"NLT_DUP", 0x400098, 32, 0x10000, 4, [NLT_DUP]⟩,
  ⟨"NLT_NAK_TX", 0x40009C, 32, 0x10000, 4, [NLT_NAK_TX]⟩,
  ⟨"NLT_NAK_RX", 0x4000A0, 32, 0x10000, 4, [NLT_NAK_RX]⟩,
  ⟨"NLT_RETX_TO", 0x4000A4, 32, 0x10000, 4, [NLT_RETX_TO]⟩,
  ⟨"NLT_RETX_FAST", 0x4000A8, 32, 0x10000, 4, [NLT_RETX_FAST]⟩,
  ⟨"NLT_CE_RX", 0x4000AC, 32, 0x10000, 4, [NLT_CE_RX]⟩,
  ⟨"NLT_CUTS", 0x4000B0, 32, 0x10000, 4, [NLT_CUTS]⟩,
  ⟨"NLT_PROBES", 0x4000B4, 32, 0x10000, 4, [NLT_PROBES]⟩,
  ⟨"NLT_ADDR4", 0x400100, 32, 0x10000, 4, [NLT_ADDR4_ADDR]⟩,
  ⟨"NLT_ADDR6", 0x400104, 32, 0x10000, 16, [NLT_ADDR6_ADDR]⟩,
  ⟨"NLT_PARK_LEVEL", 0x400120, 32, 0x10000, 4, [NLT_PARK_LEVEL_LEVEL]⟩,
  ⟨"NLT_PARK_PKTS", 0x400180, 32, 0x10000, 4, [NLT_PARK_PKTS]⟩,
  ⟨"NLT_PARK_DROP", 0x400184, 32, 0x10000, 4, [NLT_PARK_DROP]⟩,
  ⟨"NLT_CONN_NAK", 0x400188, 32, 0x10000, 4, [NLT_CONN_NAK]⟩]

/-! ### CTX -/

def CTX_LIVE_LIMIT : Field := ⟨0x800000, 0x0, 8, 16, .rw, .L, fun _ => 64⟩
def CTX_LIVE_IDLE : Field := ⟨0x800000, 0x0, 0, 8, .rw, .L, fun _ => 8⟩
def CTX_SETUP_QUAR : Field := ⟨0x800004, 0x0, 8, 8, .rw, .L, fun _ => 4⟩
def CTX_SETUP_SETUP : Field := ⟨0x800004, 0x0, 0, 8, .rw, .L, fun _ => 4⟩
def CTX_PIN_LIMIT_LIMIT : Field := ⟨0x800008, 0x0, 0, 15, .rw, .L, fun _ => 8192⟩
def CTX_GCM_LIMIT_LIMIT : Field := ⟨0x80000C, 0x0, 0, 13, .rw, .L, fun _ => 4096⟩
def CTX_REG_LIMIT_LIMIT : Field := ⟨0x800010, 0x0, 0, 19, .rw, .L, fun _ => 256⟩
def CTX_CMD_CONN : Field := ⟨0x800020, 0x0, 4, 24, .wo, .C, zeroReset⟩
def CTX_CMD_OP : Field := ⟨0x800020, 0x0, 0, 4, .wo, .C, zeroReset⟩
def CTX_STATUS_PINNED : Field := ⟨0x800040, 0x0, 16, 15, .ro, .S, zeroReset⟩
def CTX_STATUS_CACHED : Field := ⟨0x800040, 0x0, 0, 15, .ro, .S, zeroReset⟩
def CTX_OPEN_COUNT : Field := ⟨0x800044, 0x0, 0, 19, .ro, .S, zeroReset⟩
def CTX_REGIONS_COUNT : Field := ⟨0x800048, 0x0, 0, 19, .ro, .S, zeroReset⟩
def CTX_IRQ_EN_EN : Field := ⟨0x800050, 0x0, 0, 4, .rw, .L, zeroReset⟩
def CTX_EVENT_CMD_REFUSED : Field := ⟨0x800054, 0x0, 3, 1, .w1c, .C, zeroReset⟩
def CTX_EVENT_REGION_FULL : Field := ⟨0x800054, 0x0, 2, 1, .w1c, .C, zeroReset⟩
def CTX_EVENT_PARK_FULL : Field := ⟨0x800054, 0x0, 1, 1, .w1c, .C, zeroReset⟩
def CTX_EVENT_LIVE_TEARDOWN : Field := ⟨0x800054, 0x0, 0, 1, .w1c, .C, zeroReset⟩
def CTX_HITS : Field := ⟨0x800080, 0x0, 0, 32, .rc, .K, zeroReset⟩
def CTX_MISSES : Field := ⟨0x800084, 0x0, 0, 32, .rc, .K, zeroReset⟩
def CTX_EVICTS : Field := ⟨0x800088, 0x0, 0, 32, .rc, .K, zeroReset⟩
def CTX_SETUPS : Field := ⟨0x80008C, 0x0, 0, 32, .rc, .K, zeroReset⟩
def CTX_REJECTS : Field := ⟨0x800090, 0x0, 0, 32, .rc, .K, zeroReset⟩
def CTX_TEARDOWNS : Field := ⟨0x800094, 0x0, 0, 32, .rc, .K, zeroReset⟩
def CTX_KEEPALIVES : Field := ⟨0x800098, 0x0, 0, 32, .rc, .K, zeroReset⟩
def CTX_REVOKES : Field := ⟨0x80009C, 0x0, 0, 32, .rc, .K, zeroReset⟩

/-- The registers of block CTX (R118). -/
def ctxRegisters : List Register := [
  ⟨"CTX_LIVE", 0x800000, 1, 0x0, 4, [CTX_LIVE_LIMIT, CTX_LIVE_IDLE]⟩,
  ⟨"CTX_SETUP", 0x800004, 1, 0x0, 4, [CTX_SETUP_QUAR, CTX_SETUP_SETUP]⟩,
  ⟨"CTX_PIN_LIMIT", 0x800008, 1, 0x0, 4, [CTX_PIN_LIMIT_LIMIT]⟩,
  ⟨"CTX_GCM_LIMIT", 0x80000C, 1, 0x0, 4, [CTX_GCM_LIMIT_LIMIT]⟩,
  ⟨"CTX_REG_LIMIT", 0x800010, 1, 0x0, 4, [CTX_REG_LIMIT_LIMIT]⟩,
  ⟨"CTX_CMD", 0x800020, 1, 0x0, 4, [CTX_CMD_CONN, CTX_CMD_OP]⟩,
  ⟨"CTX_STATUS", 0x800040, 1, 0x0, 4, [CTX_STATUS_PINNED, CTX_STATUS_CACHED]⟩,
  ⟨"CTX_OPEN", 0x800044, 1, 0x0, 4, [CTX_OPEN_COUNT]⟩,
  ⟨"CTX_REGIONS", 0x800048, 1, 0x0, 4, [CTX_REGIONS_COUNT]⟩,
  ⟨"CTX_IRQ_EN", 0x800050, 1, 0x0, 4, [CTX_IRQ_EN_EN]⟩,
  ⟨"CTX_EVENT", 0x800054, 1, 0x0, 4, [CTX_EVENT_CMD_REFUSED, CTX_EVENT_REGION_FULL, CTX_EVENT_PARK_FULL, CTX_EVENT_LIVE_TEARDOWN]⟩,
  ⟨"CTX_HITS", 0x800080, 1, 0x0, 4, [CTX_HITS]⟩,
  ⟨"CTX_MISSES", 0x800084, 1, 0x0, 4, [CTX_MISSES]⟩,
  ⟨"CTX_EVICTS", 0x800088, 1, 0x0, 4, [CTX_EVICTS]⟩,
  ⟨"CTX_SETUPS", 0x80008C, 1, 0x0, 4, [CTX_SETUPS]⟩,
  ⟨"CTX_REJECTS", 0x800090, 1, 0x0, 4, [CTX_REJECTS]⟩,
  ⟨"CTX_TEARDOWNS", 0x800094, 1, 0x0, 4, [CTX_TEARDOWNS]⟩,
  ⟨"CTX_KEEPALIVES", 0x800098, 1, 0x0, 4, [CTX_KEEPALIVES]⟩,
  ⟨"CTX_REVOKES", 0x80009C, 1, 0x0, 4, [CTX_REVOKES]⟩]

/-! ### CMD -/

def CMD_LIMITS_CONN_MAX : Field := ⟨0xC00000, 0x0, 0, 17, .rw, .L, fun _ => 4096⟩
def CMD_GRANT_TIMEOUT : Field := ⟨0xC00004, 0x0, 0, 8, .rw, .L, fun _ => 4⟩
def CMD_RSV_WR_BW : Field := ⟨0xC00100, 0x8, 0, 32, .rw, .L, zeroReset⟩
def CMD_RSV_RD_BW : Field := ⟨0xC00104, 0x8, 0, 32, .rw, .L, zeroReset⟩
def CMD_VOLBIND_VALID : Field := ⟨0xC10000, 0x4, 31, 1, .rw, .L, zeroReset⟩
def CMD_VOLBIND_WRITE : Field := ⟨0xC10000, 0x4, 30, 1, .rw, .L, zeroReset⟩
def CMD_VOLBIND_READ : Field := ⟨0xC10000, 0x4, 29, 1, .rw, .L, zeroReset⟩
def CMD_VOLBIND_SUB : Field := ⟨0xC10000, 0x4, 14, 12, .rw, .L, zeroReset⟩
def CMD_VOLBIND_VOLUME : Field := ⟨0xC10000, 0x4, 0, 14, .rw, .L, zeroReset⟩
def CMD_INFLIGHT_COUNT : Field := ⟨0xC00040, 0x0, 0, 17, .ro, .S, zeroReset⟩
def CMD_TRACKED_COUNT : Field := ⟨0xC00044, 0x0, 0, 17, .ro, .S, zeroReset⟩
def CMD_WAITING_COUNT : Field := ⟨0xC00048, 0x0, 0, 17, .ro, .S, zeroReset⟩
def CMD_RSV_ACTIVE_COUNT : Field := ⟨0xC0004C, 0x0, 0, 12, .ro, .S, zeroReset⟩
def CMD_IRQ_EN_EN : Field := ⟨0xC00050, 0x0, 0, 5, .rw, .L, zeroReset⟩
def CMD_EVENT_GRANT_TIMEOUT : Field := ⟨0xC00054, 0x0, 4, 1, .w1c, .C, zeroReset⟩
def CMD_EVENT_BUSY : Field := ⟨0xC00054, 0x0, 3, 1, .w1c, .C, zeroReset⟩
def CMD_EVENT_RSV_REFUSED : Field := ⟨0xC00054, 0x0, 2, 1, .w1c, .C, zeroReset⟩
def CMD_EVENT_RSV_MISSED : Field := ⟨0xC00054, 0x0, 1, 1, .w1c, .C, zeroReset⟩
def CMD_EVENT_TAG_CONFLICT : Field := ⟨0xC00054, 0x0, 0, 1, .w1c, .C, zeroReset⟩
def CMD_DISPATCHED : Field := ⟨0xC00080, 0x0, 0, 32, .rc, .K, zeroReset⟩
def CMD_BUSY : Field := ⟨0xC00084, 0x0, 0, 32, .rc, .K, zeroReset⟩
def CMD_ABORTED : Field := ⟨0xC00088, 0x0, 0, 32, .rc, .K, zeroReset⟩
def CMD_ABORT_MISS : Field := ⟨0xC0008C, 0x0, 0, 32, .rc, .K, zeroReset⟩
def CMD_WAITS : Field := ⟨0xC00090, 0x0, 0, 32, .rc, .K, zeroReset⟩
def CMD_HELD : Field := ⟨0xC00094, 0x0, 0, 32, .rc, .K, zeroReset⟩
def CMD_RSV_MISSED : Field := ⟨0xC00098, 0x0, 0, 32, .rc, .K, zeroReset⟩
def CMD_TAG_CONFLICT : Field := ⟨0xC0009C, 0x0, 0, 32, .rc, .K, zeroReset⟩
def CMD_GRANT_TIMEOUTS : Field := ⟨0xC000A0, 0x0, 0, 32, .rc, .K, zeroReset⟩

/-- The registers of block CMD (R154). -/
def cmdRegisters : List Register := [
  ⟨"CMD_LIMITS", 0xC00000, 1, 0x0, 4, [CMD_LIMITS_CONN_MAX]⟩,
  ⟨"CMD_GRANT", 0xC00004, 1, 0x0, 4, [CMD_GRANT_TIMEOUT]⟩,
  ⟨"CMD_RSV_WR", 0xC00100, 8, 0x8, 4, [CMD_RSV_WR_BW]⟩,
  ⟨"CMD_RSV_RD", 0xC00104, 8, 0x8, 4, [CMD_RSV_RD_BW]⟩,
  ⟨"CMD_VOLBIND", 0xC10000, 32768, 0x4, 4, [CMD_VOLBIND_VALID, CMD_VOLBIND_WRITE, CMD_VOLBIND_READ, CMD_VOLBIND_SUB, CMD_VOLBIND_VOLUME]⟩,
  ⟨"CMD_INFLIGHT", 0xC00040, 1, 0x0, 4, [CMD_INFLIGHT_COUNT]⟩,
  ⟨"CMD_TRACKED", 0xC00044, 1, 0x0, 4, [CMD_TRACKED_COUNT]⟩,
  ⟨"CMD_WAITING", 0xC00048, 1, 0x0, 4, [CMD_WAITING_COUNT]⟩,
  ⟨"CMD_RSV_ACTIVE", 0xC0004C, 1, 0x0, 4, [CMD_RSV_ACTIVE_COUNT]⟩,
  ⟨"CMD_IRQ_EN", 0xC00050, 1, 0x0, 4, [CMD_IRQ_EN_EN]⟩,
  ⟨"CMD_EVENT", 0xC00054, 1, 0x0, 4, [CMD_EVENT_GRANT_TIMEOUT, CMD_EVENT_BUSY, CMD_EVENT_RSV_REFUSED, CMD_EVENT_RSV_MISSED, CMD_EVENT_TAG_CONFLICT]⟩,
  ⟨"CMD_DISPATCHED", 0xC00080, 1, 0x0, 4, [CMD_DISPATCHED]⟩,
  ⟨"CMD_BUSY", 0xC00084, 1, 0x0, 4, [CMD_BUSY]⟩,
  ⟨"CMD_ABORTED", 0xC00088, 1, 0x0, 4, [CMD_ABORTED]⟩,
  ⟨"CMD_ABORT_MISS", 0xC0008C, 1, 0x0, 4, [CMD_ABORT_MISS]⟩,
  ⟨"CMD_WAITS", 0xC00090, 1, 0x0, 4, [CMD_WAITS]⟩,
  ⟨"CMD_HELD", 0xC00094, 1, 0x0, 4, [CMD_HELD]⟩,
  ⟨"CMD_RSV_MISSED", 0xC00098, 1, 0x0, 4, [CMD_RSV_MISSED]⟩,
  ⟨"CMD_TAG_CONFLICT", 0xC0009C, 1, 0x0, 4, [CMD_TAG_CONFLICT]⟩,
  ⟨"CMD_GRANT_TIMEOUTS", 0xC000A0, 1, 0x0, 4, [CMD_GRANT_TIMEOUTS]⟩]

/-! ### BNC -/

def BNC_LOAD_ADDR_ADDR : Field := ⟨0x1000000, 0x0, 0, 36, .rw, .C, zeroReset⟩
def BNC_LOAD_CMD_SLOT : Field := ⟨0x1000008, 0x0, 4, 6, .wo, .C, zeroReset⟩
def BNC_LOAD_CMD_OP : Field := ⟨0x1000008, 0x0, 0, 2, .wo, .C, zeroReset⟩
def BNC_LOAD_STATUS_BUSY : Field := ⟨0x100000C, 0x0, 31, 1, .ro, .S, zeroReset⟩
def BNC_LOAD_STATUS_RESULT : Field := ⟨0x100000C, 0x0, 16, 8, .ro, .S, zeroReset⟩
def BNC_LOAD_STATUS_SLOT : Field := ⟨0x100000C, 0x0, 0, 6, .ro, .S, zeroReset⟩
def BNC_USER_LIMITS_WALL : Field := ⟨0x1000010, 0x0, 24, 8, .rw, .L, fun _ => 64⟩
def BNC_USER_LIMITS_ISSUE : Field := ⟨0x1000010, 0x0, 0, 24, .rw, .L, fun _ => 256⟩
def BNC_USER_CELLS_CELLS : Field := ⟨0x1000014, 0x0, 0, 20, .rw, .L, fun _ => 65536⟩
def BNC_THREADS_COUNT : Field := ⟨0x1000040, 0x0, 0, 17, .ro, .S, zeroReset⟩
def BNC_PARKED_COUNT : Field := ⟨0x1000044, 0x0, 0, 17, .ro, .S, zeroReset⟩
def BNC_DISPATCH_Q_COUNT : Field := ⟨0x1000048, 0x0, 0, 17, .ro, .S, zeroReset⟩
def BNC_CODE_USED_COUNT : Field := ⟨0x100004C, 0x0, 0, 17, .ro, .S, zeroReset⟩
def BNC_IRQ_EN_EN : Field := ⟨0x1000050, 0x0, 0, 4, .rw, .L, zeroReset⟩
def BNC_EVENT_LOAD_FAILED : Field := ⟨0x1000054, 0x0, 3, 1, .w1c, .C, zeroReset⟩
def BNC_EVENT_LOAD_DONE : Field := ⟨0x1000054, 0x0, 2, 1, .w1c, .C, zeroReset⟩
def BNC_EVENT_SYS_FAULT : Field := ⟨0x1000054, 0x0, 1, 1, .w1c, .C, zeroReset⟩
def BNC_EVENT_USER_FAULT : Field := ⟨0x1000054, 0x0, 0, 1, .w1c, .C, zeroReset⟩
def BNC_FAULT_MSGID : Field := ⟨0x1000060, 0x0, 96, 32, .ro, .S, zeroReset⟩
def BNC_FAULT_CONN : Field := ⟨0x1000060, 0x0, 64, 24, .ro, .S, zeroReset⟩
def BNC_FAULT_PC : Field := ⟨0x1000060, 0x0, 32, 32, .ro, .S, zeroReset⟩
def BNC_FAULT_CODE : Field := ⟨0x1000060, 0x0, 16, 16, .ro, .S, zeroReset⟩
def BNC_FAULT_OPCODE : Field := ⟨0x1000060, 0x0, 8, 8, .ro, .S, zeroReset⟩
def BNC_FAULT_SLOT : Field := ⟨0x1000060, 0x0, 0, 6, .ro, .S, zeroReset⟩
def BNC_SLOT_STATE_STATE : Field := ⟨0x1000100, 0x8, 30, 2, .ro, .S, zeroReset⟩
def BNC_SLOT_STATE_KIND : Field := ⟨0x1000100, 0x8, 29, 1, .ro, .S, zeroReset⟩
def BNC_SLOT_STATE_BOUND_PREV : Field := ⟨0x1000100, 0x8, 26, 1, .ro, .S, zeroReset⟩
def BNC_SLOT_STATE_BOUND_CUR : Field := ⟨0x1000100, 0x8, 25, 1, .ro, .S, zeroReset⟩
def BNC_SLOT_STATE_BOUND_PEND : Field := ⟨0x1000100, 0x8, 24, 1, .ro, .S, zeroReset⟩
def BNC_SLOT_STATE_CODE_KIB : Field := ⟨0x1000100, 0x8, 0, 9, .ro, .S, zeroReset⟩
def BNC_SLOT_REFS_COUNT : Field := ⟨0x1000104, 0x8, 0, 17, .ro, .S, zeroReset⟩
def BNC_HANDLER_VALID : Field := ⟨0x1001000, 0x4, 31, 1, .rw, .L, zeroReset⟩
def BNC_HANDLER_SLOT : Field := ⟨0x1001000, 0x4, 8, 6, .rw, .L, zeroReset⟩
def BNC_HANDLER_ENTRY : Field := ⟨0x1001000, 0x4, 0, 8, .rw, .L, zeroReset⟩
def BNC_DISPATCHES : Field := ⟨0x1000080, 0x0, 0, 32, .rc, .K, zeroReset⟩
def BNC_RESUMES : Field := ⟨0x1000084, 0x0, 0, 32, .rc, .K, zeroReset⟩
def BNC_PARKS : Field := ⟨0x1000088, 0x0, 0, 32, .rc, .K, zeroReset⟩
def BNC_FRAME_MISSES : Field := ⟨0x100008C, 0x0, 0, 32, .rc, .K, zeroReset⟩
def BNC_DISPATCH_WAITS : Field := ⟨0x1000090, 0x0, 0, 32, .rc, .K, zeroReset⟩
def BNC_USER_FAULTS : Field := ⟨0x1000094, 0x0, 0, 32, .rc, .K, zeroReset⟩
def BNC_SYS_FAULTS : Field := ⟨0x1000098, 0x0, 0, 32, .rc, .K, zeroReset⟩

/-- The registers of block BNC (R173). -/
def bncRegisters : List Register := [
  ⟨"BNC_LOAD_ADDR", 0x1000000, 1, 0x0, 8, [BNC_LOAD_ADDR_ADDR]⟩,
  ⟨"BNC_LOAD_CMD", 0x1000008, 1, 0x0, 4, [BNC_LOAD_CMD_SLOT, BNC_LOAD_CMD_OP]⟩,
  ⟨"BNC_LOAD_STATUS", 0x100000C, 1, 0x0, 4, [BNC_LOAD_STATUS_BUSY, BNC_LOAD_STATUS_RESULT, BNC_LOAD_STATUS_SLOT]⟩,
  ⟨"BNC_USER_LIMITS", 0x1000010, 1, 0x0, 4, [BNC_USER_LIMITS_WALL, BNC_USER_LIMITS_ISSUE]⟩,
  ⟨"BNC_USER_CELLS", 0x1000014, 1, 0x0, 4, [BNC_USER_CELLS_CELLS]⟩,
  ⟨"BNC_THREADS", 0x1000040, 1, 0x0, 4, [BNC_THREADS_COUNT]⟩,
  ⟨"BNC_PARKED", 0x1000044, 1, 0x0, 4, [BNC_PARKED_COUNT]⟩,
  ⟨"BNC_DISPATCH_Q", 0x1000048, 1, 0x0, 4, [BNC_DISPATCH_Q_COUNT]⟩,
  ⟨"BNC_CODE_USED", 0x100004C, 1, 0x0, 4, [BNC_CODE_USED_COUNT]⟩,
  ⟨"BNC_IRQ_EN", 0x1000050, 1, 0x0, 4, [BNC_IRQ_EN_EN]⟩,
  ⟨"BNC_EVENT", 0x1000054, 1, 0x0, 4, [BNC_EVENT_LOAD_FAILED, BNC_EVENT_LOAD_DONE, BNC_EVENT_SYS_FAULT, BNC_EVENT_USER_FAULT]⟩,
  ⟨"BNC_FAULT", 0x1000060, 1, 0x0, 16, [BNC_FAULT_MSGID, BNC_FAULT_CONN, BNC_FAULT_PC, BNC_FAULT_CODE, BNC_FAULT_OPCODE, BNC_FAULT_SLOT]⟩,
  ⟨"BNC_SLOT_STATE", 0x1000100, 64, 0x8, 4, [BNC_SLOT_STATE_STATE, BNC_SLOT_STATE_KIND, BNC_SLOT_STATE_BOUND_PREV, BNC_SLOT_STATE_BOUND_CUR, BNC_SLOT_STATE_BOUND_PEND, BNC_SLOT_STATE_CODE_KIB]⟩,
  ⟨"BNC_SLOT_REFS", 0x1000104, 64, 0x8, 4, [BNC_SLOT_REFS_COUNT]⟩,
  ⟨"BNC_HANDLER", 0x1001000, 256, 0x4, 4, [BNC_HANDLER_VALID, BNC_HANDLER_SLOT, BNC_HANDLER_ENTRY]⟩,
  ⟨"BNC_DISPATCHES", 0x1000080, 1, 0x0, 4, [BNC_DISPATCHES]⟩,
  ⟨"BNC_RESUMES", 0x1000084, 1, 0x0, 4, [BNC_RESUMES]⟩,
  ⟨"BNC_PARKS", 0x1000088, 1, 0x0, 4, [BNC_PARKS]⟩,
  ⟨"BNC_FRAME_MISSES", 0x100008C, 1, 0x0, 4, [BNC_FRAME_MISSES]⟩,
  ⟨"BNC_DISPATCH_WAITS", 0x1000090, 1, 0x0, 4, [BNC_DISPATCH_WAITS]⟩,
  ⟨"BNC_USER_FAULTS", 0x1000094, 1, 0x0, 4, [BNC_USER_FAULTS]⟩,
  ⟨"BNC_SYS_FAULTS", 0x1000098, 1, 0x0, 4, [BNC_SYS_FAULTS]⟩]

/-! ### CAB -/

def CAB_CMD_STOP : Field := ⟨0x1400000, 0x0, 1, 1, .wo, .C, zeroReset⟩
def CAB_CMD_START : Field := ⟨0x1400000, 0x0, 0, 1, .wo, .C, zeroReset⟩
def CAB_RESERVE_CELLS : Field := ⟨0x1400004, 0x0, 0, 20, .rw, .I, fun _ => 16384⟩
def CAB_FILL_CREDIT_CELLS : Field := ⟨0x1400008, 0x0, 0, 20, .rw, .L, fun _ => 458752⟩
def CAB_FILL_START_CELLS : Field := ⟨0x140000C, 0x0, 0, 20, .rw, .L, fun _ => 491520⟩
def CAB_FILL_SPILL_CELLS : Field := ⟨0x1400010, 0x0, 0, 20, .rw, .L, fun _ => 557056⟩
def CAB_WINDOW_CELLS : Field := ⟨0x1400014, 0x0, 0, 20, .rw, .L, fun _ => 8192⟩
def CAB_SYSLIM_CELLS : Field := ⟨0x1400018, 0x0, 0, 20, .rw, .L, fun _ => 32768⟩
def CAB_PORTDOWN_HOLD : Field := ⟨0x140001C, 0x0, 0, 16, .rw, .L, fun _ => 100⟩
def CAB_SPILL_CFG_AHEAD : Field := ⟨0x1400020, 0x0, 12, 20, .rw, .L, fun _ => 4096⟩
def CAB_SPILL_CFG_RATE : Field := ⟨0x1400020, 0x0, 0, 9, .rw, .L, fun _ => 400⟩
def CAB_SPILL_BASE_ADDR : Field := ⟨0x1400028, 0x0, 0, 36, .rw, .I, zeroReset⟩
def CAB_SPILL_SIZE_MIB : Field := ⟨0x1400030, 0x0, 0, 16, .rw, .I, zeroReset⟩
def CAB_APERTURE_BASE : Field := ⟨0x1400038, 0x0, 43, 21, .rw, .I, fun _ => 8⟩
def CAB_IRQ_EN_EN : Field := ⟨0x1400040, 0x0, 0, 6, .rw, .L, zeroReset⟩
def CAB_EVENT_CMD_REFUSED : Field := ⟨0x1400044, 0x0, 5, 1, .w1c, .C, zeroReset⟩
def CAB_EVENT_APERTURE_ERR : Field := ⟨0x1400044, 0x0, 4, 1, .w1c, .C, zeroReset⟩
def CAB_EVENT_LIMIT_DROP : Field := ⟨0x1400044, 0x0, 3, 1, .w1c, .C, zeroReset⟩
def CAB_EVENT_PORT_FLUSH : Field := ⟨0x1400044, 0x0, 2, 1, .w1c, .C, zeroReset⟩
def CAB_EVENT_SPILL_FULL : Field := ⟨0x1400044, 0x0, 1, 1, .w1c, .C, zeroReset⟩
def CAB_EVENT_STALL : Field := ⟨0x1400044, 0x0, 0, 1, .w1c, .C, zeroReset⟩
def CAB_FILL_CELLS : Field := ⟨0x1400060, 0x0, 0, 20, .ro, .S, zeroReset⟩
def CAB_SPILLED_CELLS : Field := ⟨0x1400064, 0x0, 0, 28, .ro, .S, zeroReset⟩
def CAB_STATE_RESERVE_USED : Field := ⟨0x1400068, 0x0, 3, 1, .ro, .S, zeroReset⟩
def CAB_STATE_STALLED : Field := ⟨0x1400068, 0x0, 2, 1, .ro, .S, zeroReset⟩
def CAB_STATE_SPILLING : Field := ⟨0x1400068, 0x0, 1, 1, .ro, .S, zeroReset⟩
def CAB_STATE_CREDIT_CAP : Field := ⟨0x1400068, 0x0, 0, 1, .ro, .S, zeroReset⟩
def CAB_GRED_MIN : Field := ⟨0x1400100, 0x10, 0, 20, .rw, .L, fun _ => 458752⟩
def CAB_GRED_MAX : Field := ⟨0x1400100, 0x10, 32, 20, .rw, .L, fun _ => 557056⟩
def CAB_GRED_ACTION : Field := ⟨0x1400100, 0x10, 88, 1, .rw, .L, fun c => if c == 2 then 1 else 0⟩
def CAB_GRED_PMAX : Field := ⟨0x1400100, 0x10, 64, 17, .rw, .L, fun c => [6554, 32768, 65536].getD c 0⟩
def CAB_RED_MIN : Field := ⟨0x1401000, 0x10, 0, 20, .rw, .L, fun _ => 32768⟩
def CAB_RED_MAX : Field := ⟨0x1401000, 0x10, 32, 20, .rw, .L, fun _ => 65536⟩
def CAB_RED_ACTION : Field := ⟨0x1401000, 0x10, 88, 1, .rw, .L, fun i => if i % 3 == 2 then 1 else 0⟩
def CAB_RED_PMAX : Field := ⟨0x1401000, 0x10, 64, 17, .rw, .L, fun i => [6554, 16384, 65536].getD (i % 3) 0⟩
def CAB_PORTLIM_CELLS : Field := ⟨0x1400200, 0x4, 0, 20, .rw, .L, fun _ => 262144⟩
def CAB_PORTFILL_DOWN : Field := ⟨0x1400280, 0x4, 31, 1, .ro, .S, zeroReset⟩
def CAB_PORTFILL_HOLDING : Field := ⟨0x1400280, 0x4, 30, 1, .ro, .S, zeroReset⟩
def CAB_PORTFILL_CELLS : Field := ⟨0x1400280, 0x4, 0, 20, .ro, .S, zeroReset⟩
def CAB_CLASSLIM_PROF_OUT : Field := ⟨0x1400400, 0x4, 24, 4, .rw, .L, zeroReset⟩
def CAB_CLASSLIM_PROF_IN : Field := ⟨0x1400400, 0x4, 20, 4, .rw, .L, zeroReset⟩
def CAB_CLASSLIM_CELLS : Field := ⟨0x1400400, 0x4, 0, 20, .rw, .L, fun _ => 65536⟩
def CAB_ACCFILL_CELLS : Field := ⟨0x1400800, 0x4, 0, 20, .ro, .S, zeroReset⟩
def CAB_TAIL_BAD : Field := ⟨0x1400080, 0x0, 0, 32, .rc, .K, zeroReset⟩
def CAB_LIMIT_DROP : Field := ⟨0x1400084, 0x0, 0, 32, .rc, .K, zeroReset⟩
def CAB_RED_MARK_IN : Field := ⟨0x1400088, 0x0, 0, 32, .rc, .K, zeroReset⟩
def CAB_RED_MARK_OUT : Field := ⟨0x140008C, 0x0, 0, 32, .rc, .K, zeroReset⟩
def CAB_RED_DROP : Field := ⟨0x1400090, 0x0, 0, 32, .rc, .K, zeroReset⟩
def CAB_SPILL_OUT : Field := ⟨0x1400094, 0x0, 0, 32, .rc, .K, zeroReset⟩
def CAB_SPILL_IN : Field := ⟨0x1400098, 0x0, 0, 32, .rc, .K, zeroReset⟩
def CAB_STALLS : Field := ⟨0x140009C, 0x0, 0, 32, .rc, .K, zeroReset⟩
def CAB_WINDOW_CAPS : Field := ⟨0x14000A0, 0x0, 0, 32, .rc, .K, zeroReset⟩
def CAB_FLUSHES : Field := ⟨0x14000A4, 0x0, 0, 32, .rc, .K, zeroReset⟩
def CAB_FLUSH_CELLS : Field := ⟨0x14000A8, 0x0, 0, 32, .rc, .K, zeroReset⟩
def CAB_APERTURE_ERR : Field := ⟨0x14000AC, 0x0, 0, 32, .rc, .K, zeroReset⟩
def CAB_QUAD_SKIPS : Field := ⟨0x14000B0, 0x0, 0, 32, .rc, .K, zeroReset⟩
def CAB_PEAK_FILL : Field := ⟨0x14000B4, 0x0, 0, 32, .rc, .K, zeroReset⟩

/-- The registers of block CAB (R216). -/
def cabRegisters : List Register := [
  ⟨"CAB_CMD", 0x1400000, 1, 0x0, 4, [CAB_CMD_STOP, CAB_CMD_START]⟩,
  ⟨"CAB_RESERVE", 0x1400004, 1, 0x0, 4, [CAB_RESERVE_CELLS]⟩,
  ⟨"CAB_FILL_CREDIT", 0x1400008, 1, 0x0, 4, [CAB_FILL_CREDIT_CELLS]⟩,
  ⟨"CAB_FILL_START", 0x140000C, 1, 0x0, 4, [CAB_FILL_START_CELLS]⟩,
  ⟨"CAB_FILL_SPILL", 0x1400010, 1, 0x0, 4, [CAB_FILL_SPILL_CELLS]⟩,
  ⟨"CAB_WINDOW", 0x1400014, 1, 0x0, 4, [CAB_WINDOW_CELLS]⟩,
  ⟨"CAB_SYSLIM", 0x1400018, 1, 0x0, 4, [CAB_SYSLIM_CELLS]⟩,
  ⟨"CAB_PORTDOWN", 0x140001C, 1, 0x0, 4, [CAB_PORTDOWN_HOLD]⟩,
  ⟨"CAB_SPILL_CFG", 0x1400020, 1, 0x0, 4, [CAB_SPILL_CFG_AHEAD, CAB_SPILL_CFG_RATE]⟩,
  ⟨"CAB_SPILL_BASE", 0x1400028, 1, 0x0, 8, [CAB_SPILL_BASE_ADDR]⟩,
  ⟨"CAB_SPILL_SIZE", 0x1400030, 1, 0x0, 4, [CAB_SPILL_SIZE_MIB]⟩,
  ⟨"CAB_APERTURE", 0x1400038, 1, 0x0, 8, [CAB_APERTURE_BASE]⟩,
  ⟨"CAB_IRQ_EN", 0x1400040, 1, 0x0, 4, [CAB_IRQ_EN_EN]⟩,
  ⟨"CAB_EVENT", 0x1400044, 1, 0x0, 4, [CAB_EVENT_CMD_REFUSED, CAB_EVENT_APERTURE_ERR, CAB_EVENT_LIMIT_DROP, CAB_EVENT_PORT_FLUSH, CAB_EVENT_SPILL_FULL, CAB_EVENT_STALL]⟩,
  ⟨"CAB_FILL", 0x1400060, 1, 0x0, 4, [CAB_FILL_CELLS]⟩,
  ⟨"CAB_SPILLED", 0x1400064, 1, 0x0, 4, [CAB_SPILLED_CELLS]⟩,
  ⟨"CAB_STATE", 0x1400068, 1, 0x0, 4, [CAB_STATE_RESERVE_USED, CAB_STATE_STALLED, CAB_STATE_SPILLING, CAB_STATE_CREDIT_CAP]⟩,
  ⟨"CAB_GRED", 0x1400100, 3, 0x10, 12, [CAB_GRED_MIN, CAB_GRED_MAX, CAB_GRED_ACTION, CAB_GRED_PMAX]⟩,
  ⟨"CAB_RED", 0x1401000, 48, 0x10, 12, [CAB_RED_MIN, CAB_RED_MAX, CAB_RED_ACTION, CAB_RED_PMAX]⟩,
  ⟨"CAB_PORTLIM", 0x1400200, 32, 0x4, 4, [CAB_PORTLIM_CELLS]⟩,
  ⟨"CAB_PORTFILL", 0x1400280, 32, 0x4, 4, [CAB_PORTFILL_DOWN, CAB_PORTFILL_HOLDING, CAB_PORTFILL_CELLS]⟩,
  ⟨"CAB_CLASSLIM", 0x1400400, 256, 0x4, 4, [CAB_CLASSLIM_PROF_OUT, CAB_CLASSLIM_PROF_IN, CAB_CLASSLIM_CELLS]⟩,
  ⟨"CAB_ACCFILL", 0x1400800, 256, 0x4, 4, [CAB_ACCFILL_CELLS]⟩,
  ⟨"CAB_TAIL_BAD", 0x1400080, 1, 0x0, 4, [CAB_TAIL_BAD]⟩,
  ⟨"CAB_LIMIT_DROP", 0x1400084, 1, 0x0, 4, [CAB_LIMIT_DROP]⟩,
  ⟨"CAB_RED_MARK_IN", 0x1400088, 1, 0x0, 4, [CAB_RED_MARK_IN]⟩,
  ⟨"CAB_RED_MARK_OUT", 0x140008C, 1, 0x0, 4, [CAB_RED_MARK_OUT]⟩,
  ⟨"CAB_RED_DROP", 0x1400090, 1, 0x0, 4, [CAB_RED_DROP]⟩,
  ⟨"CAB_SPILL_OUT", 0x1400094, 1, 0x0, 4, [CAB_SPILL_OUT]⟩,
  ⟨"CAB_SPILL_IN", 0x1400098, 1, 0x0, 4, [CAB_SPILL_IN]⟩,
  ⟨"CAB_STALLS", 0x140009C, 1, 0x0, 4, [CAB_STALLS]⟩,
  ⟨"CAB_WINDOW_CAPS", 0x14000A0, 1, 0x0, 4, [CAB_WINDOW_CAPS]⟩,
  ⟨"CAB_FLUSHES", 0x14000A4, 1, 0x0, 4, [CAB_FLUSHES]⟩,
  ⟨"CAB_FLUSH_CELLS", 0x14000A8, 1, 0x0, 4, [CAB_FLUSH_CELLS]⟩,
  ⟨"CAB_APERTURE_ERR", 0x14000AC, 1, 0x0, 4, [CAB_APERTURE_ERR]⟩,
  ⟨"CAB_QUAD_SKIPS", 0x14000B0, 1, 0x0, 4, [CAB_QUAD_SKIPS]⟩,
  ⟨"CAB_PEAK_FILL", 0x14000B4, 1, 0x0, 4, [CAB_PEAK_FILL]⟩]

/-! ### SCH -/

def SCH_CMD_STOP : Field := ⟨0x1800000, 0x0, 1, 1, .wo, .C, zeroReset⟩
def SCH_CMD_START : Field := ⟨0x1800000, 0x0, 0, 1, .wo, .C, zeroReset⟩
def SCH_QUANTUM_BYTES : Field := ⟨0x1800004, 0x0, 0, 16, .rw, .L, fun _ => 1024⟩
def SCH_POL_MON_SUB : Field := ⟨0x1800008, 0x0, 0, 12, .rw, .L, zeroReset⟩
def SCH_DSCP_COLOUR_COLOUR : Field := ⟨0x1800010, 0x4, 0, 32, .rw, .L, zeroReset⟩
def SCH_IRQ_EN_EN : Field := ⟨0x1800040, 0x0, 0, 3, .rw, .L, zeroReset⟩
def SCH_EVENT_CMD_REFUSED : Field := ⟨0x1800044, 0x0, 2, 1, .w1c, .C, zeroReset⟩
def SCH_EVENT_POL_DROP : Field := ⟨0x1800044, 0x0, 1, 1, .w1c, .C, zeroReset⟩
def SCH_EVENT_GATE_SWAP : Field := ⟨0x1800044, 0x0, 0, 1, .w1c, .C, zeroReset⟩
def SCH_POL_GREEN : Field := ⟨0x1800080, 0x0, 0, 32, .rc, .K, zeroReset⟩
def SCH_POL_YELLOW : Field := ⟨0x1800084, 0x0, 0, 32, .rc, .K, zeroReset⟩
def SCH_POL_RED : Field := ⟨0x1800088, 0x0, 0, 32, .rc, .K, zeroReset⟩
def SCH_POL_DROP : Field := ⟨0x180008C, 0x0, 0, 32, .rc, .K, zeroReset⟩
def SCH_PORT_RATE : Field := ⟨0x1800100, 0x10, 0, 32, .rw, .L, zeroReset⟩
def SCH_PORT_BURST : Field := ⟨0x1800100, 0x10, 32, 32, .rw, .L, zeroReset⟩
def SCH_SVC_RATE : Field := ⟨0x1800400, 0x10, 0, 32, .rw, .L, zeroReset⟩
def SCH_SVC_BURST : Field := ⟨0x1800400, 0x10, 32, 32, .rw, .L, zeroReset⟩
def SCH_SVC_EN : Field := ⟨0x1800400, 0x10, 95, 1, .rw, .L, fun _ => 1⟩
def SCH_SVC_WEIGHT : Field := ⟨0x1800400, 0x10, 64, 8, .rw, .L, fun _ => 1⟩
def SCH_GATE_CTL_EN : Field := ⟨0x1801400, 0x4, 31, 1, .rw, .L, zeroReset⟩
def SCH_GATE_CTL_SHIFT : Field := ⟨0x1801400, 0x4, 16, 12, .rw, .L, zeroReset⟩
def SCH_GATE_CTL_COUNT : Field := ⟨0x1801400, 0x4, 0, 9, .rw, .L, fun _ => 1⟩
def SCH_GATE_STATE_ENTRY : Field := ⟨0x1801480, 0x4, 8, 8, .ro, .S, zeroReset⟩
def SCH_GATE_STATE_OPEN : Field := ⟨0x1801480, 0x4, 0, 8, .ro, .S, fun _ => 255⟩
def SCH_GUARD_HOLDS : Field := ⟨0x1801500, 0x4, 0, 32, .rc, .K, zeroReset⟩
def SCH_CLASS_PKTS : Field := ⟨0x1801600, 0x4, 0, 32, .rc, .K, zeroReset⟩
def SCH_SUB_RATE : Field := ⟨0x1804000, 0x20, 0, 32, .rw, .L, zeroReset⟩
def SCH_SUB_BURST : Field := ⟨0x1804000, 0x20, 32, 32, .rw, .L, zeroReset⟩
def SCH_SUB_EN : Field := ⟨0x1804000, 0x20, 95, 1, .rw, .L, zeroReset⟩
def SCH_SUB_AWARE : Field := ⟨0x1804000, 0x20, 94, 1, .rw, .L, fun _ => 1⟩
def SCH_SUB_RED_DROP : Field := ⟨0x1804000, 0x20, 93, 1, .rw, .L, zeroReset⟩
def SCH_SUB_WEIGHT : Field := ⟨0x1804000, 0x20, 64, 8, .rw, .L, fun _ => 1⟩
def SCH_SUB_CIR : Field := ⟨0x1804000, 0x20, 96, 32, .rw, .L, zeroReset⟩
def SCH_SUB_CBS : Field := ⟨0x1804000, 0x20, 128, 32, .rw, .L, zeroReset⟩
def SCH_SUB_PIR : Field := ⟨0x1804000, 0x20, 160, 32, .rw, .L, zeroReset⟩
def SCH_SUB_PBS : Field := ⟨0x1804000, 0x20, 192, 32, .rw, .L, zeroReset⟩
def SCH_GATE_LIST_OPEN : Field := ⟨0x1B00000, 0x4, 16, 8, .rw, .L, fun _ => 255⟩
def SCH_GATE_LIST_LINE : Field := ⟨0x1B00000, 0x4, 0, 12, .rw, .L, zeroReset⟩

/-- The registers of block SCH (R230). -/
def schRegisters : List Register := [
  ⟨"SCH_CMD", 0x1800000, 1, 0x0, 4, [SCH_CMD_STOP, SCH_CMD_START]⟩,
  ⟨"SCH_QUANTUM", 0x1800004, 1, 0x0, 4, [SCH_QUANTUM_BYTES]⟩,
  ⟨"SCH_POL_MON", 0x1800008, 1, 0x0, 4, [SCH_POL_MON_SUB]⟩,
  ⟨"SCH_DSCP_COLOUR", 0x1800010, 4, 0x4, 4, [SCH_DSCP_COLOUR_COLOUR]⟩,
  ⟨"SCH_IRQ_EN", 0x1800040, 1, 0x0, 4, [SCH_IRQ_EN_EN]⟩,
  ⟨"SCH_EVENT", 0x1800044, 1, 0x0, 4, [SCH_EVENT_CMD_REFUSED, SCH_EVENT_POL_DROP, SCH_EVENT_GATE_SWAP]⟩,
  ⟨"SCH_POL_GREEN", 0x1800080, 1, 0x0, 4, [SCH_POL_GREEN]⟩,
  ⟨"SCH_POL_YELLOW", 0x1800084, 1, 0x0, 4, [SCH_POL_YELLOW]⟩,
  ⟨"SCH_POL_RED", 0x1800088, 1, 0x0, 4, [SCH_POL_RED]⟩,
  ⟨"SCH_POL_DROP", 0x180008C, 1, 0x0, 4, [SCH_POL_DROP]⟩,
  ⟨"SCH_PORT", 0x1800100, 32, 0x10, 8, [SCH_PORT_RATE, SCH_PORT_BURST]⟩,
  ⟨"SCH_SVC", 0x1800400, 256, 0x10, 12, [SCH_SVC_RATE, SCH_SVC_BURST, SCH_SVC_EN, SCH_SVC_WEIGHT]⟩,
  ⟨"SCH_GATE_CTL", 0x1801400, 32, 0x4, 4, [SCH_GATE_CTL_EN, SCH_GATE_CTL_SHIFT, SCH_GATE_CTL_COUNT]⟩,
  ⟨"SCH_GATE_STATE", 0x1801480, 32, 0x4, 4, [SCH_GATE_STATE_ENTRY, SCH_GATE_STATE_OPEN]⟩,
  ⟨"SCH_GUARD_HOLDS", 0x1801500, 32, 0x4, 4, [SCH_GUARD_HOLDS]⟩,
  ⟨"SCH_CLASS_PKTS", 0x1801600, 256, 0x4, 4, [SCH_CLASS_PKTS]⟩,
  ⟨"SCH_SUB", 0x1804000, 4096, 0x20, 28, [SCH_SUB_RATE, SCH_SUB_BURST, SCH_SUB_EN, SCH_SUB_AWARE, SCH_SUB_RED_DROP, SCH_SUB_WEIGHT, SCH_SUB_CIR, SCH_SUB_CBS, SCH_SUB_PIR, SCH_SUB_PBS]⟩,
  ⟨"SCH_GATE_LIST", 0x1B00000, 8192, 0x4, 4, [SCH_GATE_LIST_OPEN, SCH_GATE_LIST_LINE]⟩]

/-! ### CPH -/

def CPH_CTRM_SHUFFLE : Field := ⟨0x1C00004, 0x0, 8, 1, .rw, .L, fun _ => 1⟩
def CPH_CTRM_DENSITY : Field := ⟨0x1C00004, 0x0, 0, 8, .rw, .L, fun _ => 8⟩
def CPH_PAIR_CMD_OP : Field := ⟨0x1C00008, 0x0, 8, 2, .wo, .C, zeroReset⟩
def CPH_PAIR_CMD_PAIR : Field := ⟨0x1C00008, 0x0, 0, 7, .wo, .C, zeroReset⟩
def CPH_SCHED_DEPTH : Field := ⟨0x1C0000C, 0x0, 16, 8, .rw, .L, fun _ => 16⟩
def CPH_SCHED_W_NET : Field := ⟨0x1C0000C, 0x0, 8, 8, .rw, .L, fun _ => 1⟩
def CPH_SCHED_W_XTS : Field := ⟨0x1C0000C, 0x0, 0, 8, .rw, .L, fun _ => 1⟩
def CPH_KEY_CMD_OP : Field := ⟨0x1C00010, 0x0, 24, 4, .wo, .C, zeroReset⟩
def CPH_KEY_CMD_KIND : Field := ⟨0x1C00010, 0x0, 20, 4, .wo, .C, zeroReset⟩
def CPH_KEY_CMD_SLOT : Field := ⟨0x1C00010, 0x0, 0, 13, .wo, .C, zeroReset⟩
def CPH_KEY_KEK_SLOT : Field := ⟨0x1C00014, 0x0, 0, 13, .rw, .C, zeroReset⟩
def CPH_KEY_STATUS_BUSY : Field := ⟨0x1C00018, 0x0, 31, 1, .ro, .S, zeroReset⟩
def CPH_KEY_STATUS_RESULT : Field := ⟨0x1C00018, 0x0, 0, 8, .ro, .S, zeroReset⟩
def CPH_IRQ_EN_EN : Field := ⟨0x1C00040, 0x0, 0, 7, .rw, .L, zeroReset⟩
def CPH_EVENT_CMD_REFUSED : Field := ⟨0x1C00044, 0x0, 6, 1, .w1c, .C, zeroReset⟩
def CPH_EVENT_ENTROPY_FAIL : Field := ⟨0x1C00044, 0x0, 5, 1, .w1c, .C, zeroReset⟩
def CPH_EVENT_NO_PAIR : Field := ⟨0x1C00044, 0x0, 4, 1, .w1c, .C, zeroReset⟩
def CPH_EVENT_QUARANTINE : Field := ⟨0x1C00044, 0x0, 3, 1, .w1c, .C, zeroReset⟩
def CPH_EVENT_MISMATCH : Field := ⟨0x1C00044, 0x0, 2, 1, .w1c, .C, zeroReset⟩
def CPH_EVENT_KEY_FAILED : Field := ⟨0x1C00044, 0x0, 1, 1, .w1c, .C, zeroReset⟩
def CPH_EVENT_KEY_DONE : Field := ⟨0x1C00044, 0x0, 0, 1, .w1c, .C, zeroReset⟩
def CPH_STATUS_SRC_FAILED : Field := ⟨0x1C00060, 0x0, 8, 1, .ro, .S, zeroReset⟩
def CPH_STATUS_DRBG_READY : Field := ⟨0x1C00060, 0x0, 7, 1, .ro, .S, zeroReset⟩
def CPH_STATUS_PAIRS : Field := ⟨0x1C00060, 0x0, 0, 7, .ro, .S, zeroReset⟩
def CPH_KEY_DATA_DATA : Field := ⟨0x1C00100, 0x4, 0, 32, .wo, .C, zeroReset⟩
def CPH_KEY_BLOB_BLOB : Field := ⟨0x1C00180, 0x4, 0, 32, .ro, .S, zeroReset⟩
def CPH_PAIR_STATE_COUNT : Field := ⟨0x1C00200, 0x4, 4, 2, .ro, .S, zeroReset⟩
def CPH_PAIR_STATE_STATE : Field := ⟨0x1C00200, 0x4, 0, 2, .ro, .S, zeroReset⟩
def CPH_ITEMS_XTS : Field := ⟨0x1C00080, 0x0, 0, 32, .rc, .K, zeroReset⟩
def CPH_ITEMS_GCM : Field := ⟨0x1C00084, 0x0, 0, 32, .rc, .K, zeroReset⟩
def CPH_MISMATCHES : Field := ⟨0x1C00088, 0x0, 0, 32, .rc, .K, zeroReset⟩
def CPH_SCHED_LOADS : Field := ⟨0x1C0008C, 0x0, 0, 32, .rc, .K, zeroReset⟩
def CPH_DUMMY_ROUNDS : Field := ⟨0x1C00090, 0x0, 0, 32, .rc, .K, zeroReset⟩
def CPH_HEALTH_FAILS : Field := ⟨0x1C00094, 0x0, 0, 32, .rc, .K, zeroReset⟩
def CPH_SUBKEY_VALID : Field := ⟨0x1C10000, 0x4, 31, 1, .rw, .L, zeroReset⟩
def CPH_SUBKEY_SLOT : Field := ⟨0x1C10000, 0x4, 0, 13, .rw, .L, zeroReset⟩
def CPH_VOLKEY_VALID : Field := ⟨0x1C20000, 0x4, 31, 1, .rw, .L, zeroReset⟩
def CPH_VOLKEY_SLOT : Field := ⟨0x1C20000, 0x4, 0, 13, .rw, .L, zeroReset⟩

/-- The registers of block CPH (R247). -/
def cphRegisters : List Register := [
  ⟨"CPH_CTRM", 0x1C00004, 1, 0x0, 4, [CPH_CTRM_SHUFFLE, CPH_CTRM_DENSITY]⟩,
  ⟨"CPH_PAIR_CMD", 0x1C00008, 1, 0x0, 4, [CPH_PAIR_CMD_OP, CPH_PAIR_CMD_PAIR]⟩,
  ⟨"CPH_SCHED", 0x1C0000C, 1, 0x0, 4, [CPH_SCHED_DEPTH, CPH_SCHED_W_NET, CPH_SCHED_W_XTS]⟩,
  ⟨"CPH_KEY_CMD", 0x1C00010, 1, 0x0, 4, [CPH_KEY_CMD_OP, CPH_KEY_CMD_KIND, CPH_KEY_CMD_SLOT]⟩,
  ⟨"CPH_KEY_KEK", 0x1C00014, 1, 0x0, 4, [CPH_KEY_KEK_SLOT]⟩,
  ⟨"CPH_KEY_STATUS", 0x1C00018, 1, 0x0, 4, [CPH_KEY_STATUS_BUSY, CPH_KEY_STATUS_RESULT]⟩,
  ⟨"CPH_IRQ_EN", 0x1C00040, 1, 0x0, 4, [CPH_IRQ_EN_EN]⟩,
  ⟨"CPH_EVENT", 0x1C00044, 1, 0x0, 4, [CPH_EVENT_CMD_REFUSED, CPH_EVENT_ENTROPY_FAIL, CPH_EVENT_NO_PAIR, CPH_EVENT_QUARANTINE, CPH_EVENT_MISMATCH, CPH_EVENT_KEY_FAILED, CPH_EVENT_KEY_DONE]⟩,
  ⟨"CPH_STATUS", 0x1C00060, 1, 0x0, 4, [CPH_STATUS_SRC_FAILED, CPH_STATUS_DRBG_READY, CPH_STATUS_PAIRS]⟩,
  ⟨"CPH_KEY_DATA", 0x1C00100, 20, 0x4, 4, [CPH_KEY_DATA_DATA]⟩,
  ⟨"CPH_KEY_BLOB", 0x1C00180, 20, 0x4, 4, [CPH_KEY_BLOB_BLOB]⟩,
  ⟨"CPH_PAIR_STATE", 0x1C00200, 72, 0x4, 4, [CPH_PAIR_STATE_COUNT, CPH_PAIR_STATE_STATE]⟩,
  ⟨"CPH_ITEMS_XTS", 0x1C00080, 1, 0x0, 4, [CPH_ITEMS_XTS]⟩,
  ⟨"CPH_ITEMS_GCM", 0x1C00084, 1, 0x0, 4, [CPH_ITEMS_GCM]⟩,
  ⟨"CPH_MISMATCHES", 0x1C00088, 1, 0x0, 4, [CPH_MISMATCHES]⟩,
  ⟨"CPH_SCHED_LOADS", 0x1C0008C, 1, 0x0, 4, [CPH_SCHED_LOADS]⟩,
  ⟨"CPH_DUMMY_ROUNDS", 0x1C00090, 1, 0x0, 4, [CPH_DUMMY_ROUNDS]⟩,
  ⟨"CPH_HEALTH_FAILS", 0x1C00094, 1, 0x0, 4, [CPH_HEALTH_FAILS]⟩,
  ⟨"CPH_SUBKEY", 0x1C10000, 4096, 0x4, 4, [CPH_SUBKEY_VALID, CPH_SUBKEY_SLOT]⟩,
  ⟨"CPH_VOLKEY", 0x1C20000, 16384, 0x4, 4, [CPH_VOLKEY_VALID, CPH_VOLKEY_SLOT]⟩]

/-! ### PAR -/

def PAR_CMD_STOP : Field := ⟨0x2000000, 0x0, 1, 1, .wo, .C, zeroReset⟩
def PAR_CMD_START : Field := ⟨0x2000000, 0x0, 0, 1, .wo, .C, zeroReset⟩
def PAR_IRQ_EN_EN : Field := ⟨0x2000040, 0x0, 0, 3, .rw, .L, zeroReset⟩
def PAR_EVENT_CMD_REFUSED : Field := ⟨0x2000044, 0x0, 2, 1, .w1c, .C, zeroReset⟩
def PAR_EVENT_DISAGREE : Field := ⟨0x2000044, 0x0, 1, 1, .w1c, .C, zeroReset⟩
def PAR_EVENT_DEGRADED : Field := ⟨0x2000044, 0x0, 0, 1, .w1c, .C, zeroReset⟩
def PAR_SET_EN : Field := ⟨0x2000100, 0x10, 31, 1, .rw, .L, zeroReset⟩
def PAR_SET_S_M16 : Field := ⟨0x2000100, 0x10, 12, 3, .rw, .L, fun _ => 2⟩
def PAR_SET_H : Field := ⟨0x2000100, 0x10, 8, 2, .rw, .L, zeroReset⟩
def PAR_SET_N : Field := ⟨0x2000100, 0x10, 0, 5, .rw, .L, fun _ => 10⟩
def PAR_SET_BASE_LO : Field := ⟨0x2000100, 0x10, 32, 32, .rw, .L, fun _ => 2097152⟩
def PAR_SET_BASE_HI : Field := ⟨0x2000100, 0x10, 64, 16, .rw, .L, zeroReset⟩
def PAR_SET_ROWS : Field := ⟨0x2000100, 0x10, 96, 32, .rw, .L, zeroReset⟩
def PAR_SETMEM_DRAWER : Field := ⟨0x2000200, 0x4, 0, 6, .rw, .L, zeroReset⟩
def PAR_SET_STATE_STATE : Field := ⟨0x2000600, 0x8, 0, 3, .ro, .S, zeroReset⟩
def PAR_SET_STATE_LOST : Field := ⟨0x2000600, 0x8, 32, 26, .ro, .S, zeroReset⟩
def PAR_VOL_VALID : Field := ⟨0x2010000, 0x10, 31, 1, .rw, .L, zeroReset⟩
def PAR_VOL_SET : Field := ⟨0x2010000, 0x10, 16, 3, .rw, .L, zeroReset⟩
def PAR_VOL_BASE_HI : Field := ⟨0x2010000, 0x10, 0, 16, .rw, .L, zeroReset⟩
def PAR_VOL_BASE_LO : Field := ⟨0x2010000, 0x10, 32, 32, .rw, .L, zeroReset⟩
def PAR_VOL_SIZE_LO : Field := ⟨0x2010000, 0x10, 64, 32, .rw, .L, zeroReset⟩
def PAR_VOL_SIZE_HI : Field := ⟨0x2010000, 0x10, 96, 16, .rw, .L, zeroReset⟩
def PAR_FULL : Field := ⟨0x2000080, 0x0, 0, 32, .rc, .K, zeroReset⟩
def PAR_RECON_W : Field := ⟨0x2000084, 0x0, 0, 32, .rc, .K, zeroReset⟩
def PAR_UPDATE : Field := ⟨0x2000088, 0x0, 0, 32, .rc, .K, zeroReset⟩
def PAR_CHAINED : Field := ⟨0x200008C, 0x0, 0, 32, .rc, .K, zeroReset⟩
def PAR_RESYNC : Field := ⟨0x2000090, 0x0, 0, 32, .rc, .K, zeroReset⟩
def PAR_DISAGREE : Field := ⟨0x2000094, 0x0, 0, 32, .rc, .K, zeroReset⟩
def PAR_RB_CMD_NEWN : Field := ⟨0x2000800, 0x0, 27, 5, .wo, .C, zeroReset⟩
def PAR_RB_CMD_DRAWER : Field := ⟨0x2000800, 0x0, 21, 6, .wo, .C, zeroReset⟩
def PAR_RB_CMD_POS : Field := ⟨0x2000800, 0x0, 16, 5, .wo, .C, zeroReset⟩
def PAR_RB_CMD_SET : Field := ⟨0x2000800, 0x0, 8, 3, .wo, .C, zeroReset⟩
def PAR_RB_CMD_OP : Field := ⟨0x2000800, 0x0, 0, 4, .wo, .C, zeroReset⟩
def PAR_RB_RESULT_OP : Field := ⟨0x2000804, 0x0, 8, 8, .ro, .S, zeroReset⟩
def PAR_RB_RESULT_RESULT : Field := ⟨0x2000804, 0x0, 0, 8, .ro, .S, zeroReset⟩
def PAR_RS_ADD_MASK : Field := ⟨0x2000808, 0x0, 0, 48, .rw, .C, zeroReset⟩
def PAR_RB_RATE_RATE : Field := ⟨0x2000810, 0x4, 0, 32, .rw, .L, fun _ => 20000⟩
def PAR_RB_CFG_MEDIA_MAX : Field := ⟨0x2000830, 0x0, 0, 8, .rw, .L, fun _ => 64⟩
def PAR_RB_IRQ_EN_EN : Field := ⟨0x2000840, 0x0, 0, 7, .rw, .L, zeroReset⟩
def PAR_RB_EVENT_CMD_REFUSED : Field := ⟨0x2000844, 0x0, 6, 1, .w1c, .C, zeroReset⟩
def PAR_RB_EVENT_DMG_FULL : Field := ⟨0x2000844, 0x0, 5, 1, .w1c, .C, zeroReset⟩
def PAR_RB_EVENT_RESHAPED : Field := ⟨0x2000844, 0x0, 4, 1, .w1c, .C, zeroReset⟩
def PAR_RB_EVENT_OFFLINE : Field := ⟨0x2000844, 0x0, 3, 1, .w1c, .C, zeroReset⟩
def PAR_RB_EVENT_DAMAGE : Field := ⟨0x2000844, 0x0, 2, 1, .w1c, .C, zeroReset⟩
def PAR_RB_EVENT_NEED_TARGET : Field := ⟨0x2000844, 0x0, 1, 1, .w1c, .C, zeroReset⟩
def PAR_RB_EVENT_REBUILT : Field := ⟨0x2000844, 0x0, 0, 1, .w1c, .C, zeroReset⟩
def PAR_DMG_COUNT_COUNT : Field := ⟨0x2000850, 0x0, 0, 13, .ro, .S, zeroReset⟩
def PAR_RB_STATE_PHASE : Field := ⟨0x2000900, 0x40, 30, 2, .ro, .S, zeroReset⟩
def PAR_RB_STATE_STAGING : Field := ⟨0x2000900, 0x40, 29, 1, .ro, .S, zeroReset⟩
def PAR_RB_STATE_NEWN : Field := ⟨0x2000900, 0x40, 24, 5, .ro, .S, zeroReset⟩
def PAR_RB_STATE_CURSOR_LO : Field := ⟨0x2000900, 0x40, 32, 32, .ro, .S, zeroReset⟩
def PAR_RB_STATE_CURSOR_HI : Field := ⟨0x2000900, 0x40, 64, 16, .ro, .S, zeroReset⟩
def PAR_RB_STATE_CKPT_LO : Field := ⟨0x2000900, 0x40, 96, 32, .ro, .S, zeroReset⟩
def PAR_RB_STATE_CKPT_HI : Field := ⟨0x2000900, 0x40, 128, 16, .ro, .S, zeroReset⟩
def PAR_RB_STATE_SPARES : Field := ⟨0x2000900, 0x40, 160, 16, .ro, .S, fun _ => 65535⟩
def PAR_RB_STATE_UNCOVERED : Field := ⟨0x2000900, 0x40, 192, 32, .ro, .S, zeroReset⟩
def PAR_POSMAP_LOST : Field := ⟨0x2000C00, 0x4, 31, 1, .ro, .S, zeroReset⟩
def PAR_POSMAP_REBUILT : Field := ⟨0x2000C00, 0x4, 30, 1, .ro, .S, zeroReset⟩
def PAR_POSMAP_TKIND : Field := ⟨0x2000C00, 0x4, 28, 2, .ro, .S, zeroReset⟩
def PAR_POSMAP_TARGET : Field := ⟨0x2000C00, 0x4, 8, 6, .ro, .S, zeroReset⟩
def PAR_POSMAP_DRAWER : Field := ⟨0x2000C00, 0x4, 0, 6, .ro, .S, zeroReset⟩
def PAR_RB_ROWS : Field := ⟨0x2000880, 0x0, 0, 32, .rc, .K, zeroReset⟩
def PAR_RS_ROWS : Field := ⟨0x2000884, 0x0, 0, 32, .rc, .K, zeroReset⟩
def PAR_REPAIRS : Field := ⟨0x2000888, 0x0, 0, 32, .rc, .K, zeroReset⟩
def PAR_DEG_READS : Field := ⟨0x200088C, 0x0, 0, 32, .rc, .K, zeroReset⟩
def PAR_DMG_RECORDED : Field := ⟨0x2000890, 0x0, 0, 32, .rc, .K, zeroReset⟩
def PAR_DMG_CLEARED : Field := ⟨0x2000894, 0x0, 0, 32, .rc, .K, zeroReset⟩

/-- The registers of block PAR (R268, R294). -/
def parRegisters : List Register := [
  ⟨"PAR_CMD", 0x2000000, 1, 0x0, 4, [PAR_CMD_STOP, PAR_CMD_START]⟩,
  ⟨"PAR_IRQ_EN", 0x2000040, 1, 0x0, 4, [PAR_IRQ_EN_EN]⟩,
  ⟨"PAR_EVENT", 0x2000044, 1, 0x0, 4, [PAR_EVENT_CMD_REFUSED, PAR_EVENT_DISAGREE, PAR_EVENT_DEGRADED]⟩,
  ⟨"PAR_SET", 0x2000100, 8, 0x10, 16, [PAR_SET_EN, PAR_SET_S_M16, PAR_SET_H, PAR_SET_N, PAR_SET_BASE_LO, PAR_SET_BASE_HI, PAR_SET_ROWS]⟩,
  ⟨"PAR_SETMEM", 0x2000200, 256, 0x4, 4, [PAR_SETMEM_DRAWER]⟩,
  ⟨"PAR_SET_STATE", 0x2000600, 8, 0x8, 8, [PAR_SET_STATE_STATE, PAR_SET_STATE_LOST]⟩,
  ⟨"PAR_VOL", 0x2010000, 16384, 0x10, 16, [PAR_VOL_VALID, PAR_VOL_SET, PAR_VOL_BASE_HI, PAR_VOL_BASE_LO, PAR_VOL_SIZE_LO, PAR_VOL_SIZE_HI]⟩,
  ⟨"PAR_FULL", 0x2000080, 1, 0x0, 4, [PAR_FULL]⟩,
  ⟨"PAR_RECON_W", 0x2000084, 1, 0x0, 4, [PAR_RECON_W]⟩,
  ⟨"PAR_UPDATE", 0x2000088, 1, 0x0, 4, [PAR_UPDATE]⟩,
  ⟨"PAR_CHAINED", 0x200008C, 1, 0x0, 4, [PAR_CHAINED]⟩,
  ⟨"PAR_RESYNC", 0x2000090, 1, 0x0, 4, [PAR_RESYNC]⟩,
  ⟨"PAR_DISAGREE", 0x2000094, 1, 0x0, 4, [PAR_DISAGREE]⟩,
  ⟨"PAR_RB_CMD", 0x2000800, 1, 0x0, 4, [PAR_RB_CMD_NEWN, PAR_RB_CMD_DRAWER, PAR_RB_CMD_POS, PAR_RB_CMD_SET, PAR_RB_CMD_OP]⟩,
  ⟨"PAR_RB_RESULT", 0x2000804, 1, 0x0, 4, [PAR_RB_RESULT_OP, PAR_RB_RESULT_RESULT]⟩,
  ⟨"PAR_RS_ADD", 0x2000808, 1, 0x0, 8, [PAR_RS_ADD_MASK]⟩,
  ⟨"PAR_RB_RATE", 0x2000810, 8, 0x4, 4, [PAR_RB_RATE_RATE]⟩,
  ⟨"PAR_RB_CFG", 0x2000830, 1, 0x0, 4, [PAR_RB_CFG_MEDIA_MAX]⟩,
  ⟨"PAR_RB_IRQ_EN", 0x2000840, 1, 0x0, 4, [PAR_RB_IRQ_EN_EN]⟩,
  ⟨"PAR_RB_EVENT", 0x2000844, 1, 0x0, 4, [PAR_RB_EVENT_CMD_REFUSED, PAR_RB_EVENT_DMG_FULL, PAR_RB_EVENT_RESHAPED, PAR_RB_EVENT_OFFLINE, PAR_RB_EVENT_DAMAGE, PAR_RB_EVENT_NEED_TARGET, PAR_RB_EVENT_REBUILT]⟩,
  ⟨"PAR_DMG_COUNT", 0x2000850, 1, 0x0, 4, [PAR_DMG_COUNT_COUNT]⟩,
  ⟨"PAR_RB_STATE", 0x2000900, 8, 0x40, 28, [PAR_RB_STATE_PHASE, PAR_RB_STATE_STAGING, PAR_RB_STATE_NEWN, PAR_RB_STATE_CURSOR_LO, PAR_RB_STATE_CURSOR_HI, PAR_RB_STATE_CKPT_LO, PAR_RB_STATE_CKPT_HI, PAR_RB_STATE_SPARES, PAR_RB_STATE_UNCOVERED]⟩,
  ⟨"PAR_POSMAP", 0x2000C00, 256, 0x4, 4, [PAR_POSMAP_LOST, PAR_POSMAP_REBUILT, PAR_POSMAP_TKIND, PAR_POSMAP_TARGET, PAR_POSMAP_DRAWER]⟩,
  ⟨"PAR_RB_ROWS", 0x2000880, 1, 0x0, 4, [PAR_RB_ROWS]⟩,
  ⟨"PAR_RS_ROWS", 0x2000884, 1, 0x0, 4, [PAR_RS_ROWS]⟩,
  ⟨"PAR_REPAIRS", 0x2000888, 1, 0x0, 4, [PAR_REPAIRS]⟩,
  ⟨"PAR_DEG_READS", 0x200088C, 1, 0x0, 4, [PAR_DEG_READS]⟩,
  ⟨"PAR_DMG_RECORDED", 0x2000890, 1, 0x0, 4, [PAR_DMG_RECORDED]⟩,
  ⟨"PAR_DMG_CLEARED", 0x2000894, 1, 0x0, 4, [PAR_DMG_CLEARED]⟩]

/-! ### LDG -/

def LDG_CMD_STOP : Field := ⟨0x2400000, 0x0, 1, 1, .wo, .C, zeroReset⟩
def LDG_CMD_START : Field := ⟨0x2400000, 0x0, 0, 1, .wo, .C, zeroReset⟩
def LDG_DRIVES_B : Field := ⟨0x2400004, 0x0, 8, 6, .rw, .I, fun _ => 24⟩
def LDG_DRIVES_A : Field := ⟨0x2400004, 0x0, 0, 6, .rw, .I, zeroReset⟩
def LDG_CAND_MASK : Field := ⟨0x2400008, 0x0, 0, 48, .rw, .L, fun _ => 281474976710655⟩
def LDG_REGION_RETAIN : Field := ⟨0x2400010, 0x0, 0, 8, .rw, .L, fun _ => 64⟩
def LDG_IRQ_EN_EN : Field := ⟨0x2400040, 0x0, 0, 5, .rw, .L, zeroReset⟩
def LDG_EVENT_CONFIRM_LATE : Field := ⟨0x2400044, 0x0, 4, 1, .w1c, .C, zeroReset⟩
def LDG_EVENT_NO_RING : Field := ⟨0x2400044, 0x0, 3, 1, .w1c, .C, zeroReset⟩
def LDG_EVENT_NO_CANDIDATE : Field := ⟨0x2400044, 0x0, 2, 1, .w1c, .C, zeroReset⟩
def LDG_EVENT_REPLACED : Field := ⟨0x2400044, 0x0, 1, 1, .w1c, .C, zeroReset⟩
def LDG_EVENT_DRIVE_LOST : Field := ⟨0x2400044, 0x0, 0, 1, .w1c, .C, zeroReset⟩
def LDG_ACTIVE_REPLACING : Field := ⟨0x2400060, 0x0, 16, 1, .ro, .S, zeroReset⟩
def LDG_ACTIVE_B : Field := ⟨0x2400060, 0x0, 8, 6, .ro, .S, fun _ => 63⟩
def LDG_ACTIVE_A : Field := ⟨0x2400060, 0x0, 0, 6, .ro, .S, fun _ => 63⟩
def LDG_STATUS_SOLO : Field := ⟨0x2400064, 0x0, 31, 1, .ro, .S, zeroReset⟩
def LDG_STATUS_OPEN : Field := ⟨0x2400064, 0x0, 0, 17, .ro, .S, zeroReset⟩
def LDG_DIRTY_COUNT : Field := ⟨0x2400068, 0x0, 0, 32, .ro, .S, zeroReset⟩
def LDG_BSEQ_BSEQ : Field := ⟨0x2400070, 0x0, 0, 64, .ro, .S, zeroReset⟩
def LDG_RECORDS : Field := ⟨0x2400080, 0x0, 0, 32, .rc, .K, zeroReset⟩
def LDG_RETIRES : Field := ⟨0x2400084, 0x0, 0, 32, .rc, .K, zeroReset⟩
def LDG_BATCHES : Field := ⟨0x2400088, 0x0, 0, 32, .rc, .K, zeroReset⟩
def LDG_DIRTY_WAITS : Field := ⟨0x240008C, 0x0, 0, 32, .rc, .K, zeroReset⟩
def LDG_SLOT_WAITS : Field := ⟨0x2400090, 0x0, 0, 32, .rc, .K, zeroReset⟩

/-- The registers of block LDG (R269). -/
def ldgRegisters : List Register := [
  ⟨"LDG_CMD", 0x2400000, 1, 0x0, 4, [LDG_CMD_STOP, LDG_CMD_START]⟩,
  ⟨"LDG_DRIVES", 0x2400004, 1, 0x0, 4, [LDG_DRIVES_B, LDG_DRIVES_A]⟩,
  ⟨"LDG_CAND", 0x2400008, 1, 0x0, 8, [LDG_CAND_MASK]⟩,
  ⟨"LDG_REGION", 0x2400010, 1, 0x0, 4, [LDG_REGION_RETAIN]⟩,
  ⟨"LDG_IRQ_EN", 0x2400040, 1, 0x0, 4, [LDG_IRQ_EN_EN]⟩,
  ⟨"LDG_EVENT", 0x2400044, 1, 0x0, 4, [LDG_EVENT_CONFIRM_LATE, LDG_EVENT_NO_RING, LDG_EVENT_NO_CANDIDATE, LDG_EVENT_REPLACED, LDG_EVENT_DRIVE_LOST]⟩,
  ⟨"LDG_ACTIVE", 0x2400060, 1, 0x0, 4, [LDG_ACTIVE_REPLACING, LDG_ACTIVE_B, LDG_ACTIVE_A]⟩,
  ⟨"LDG_STATUS", 0x2400064, 1, 0x0, 4, [LDG_STATUS_SOLO, LDG_STATUS_OPEN]⟩,
  ⟨"LDG_DIRTY", 0x2400068, 1, 0x0, 4, [LDG_DIRTY_COUNT]⟩,
  ⟨"LDG_BSEQ", 0x2400070, 1, 0x0, 8, [LDG_BSEQ_BSEQ]⟩,
  ⟨"LDG_RECORDS", 0x2400080, 1, 0x0, 4, [LDG_RECORDS]⟩,
  ⟨"LDG_RETIRES", 0x2400084, 1, 0x0, 4, [LDG_RETIRES]⟩,
  ⟨"LDG_BATCHES", 0x2400088, 1, 0x0, 4, [LDG_BATCHES]⟩,
  ⟨"LDG_DIRTY_WAITS", 0x240008C, 1, 0x0, 4, [LDG_DIRTY_WAITS]⟩,
  ⟨"LDG_SLOT_WAITS", 0x2400090, 1, 0x0, 4, [LDG_SLOT_WAITS]⟩]

/-! ### DRV -/

def DRV_CFG_HP_AUTO : Field := ⟨0x2800000, 0x10000, 31, 1, .rw, .L, fun _ => 1⟩
def DRV_CFG_PLP : Field := ⟨0x2800000, 0x10000, 30, 1, .rw, .L, zeroReset⟩
def DRV_CFG_SRIS : Field := ⟨0x2800000, 0x10000, 29, 1, .rw, .L, zeroReset⟩
def DRV_NSID_NSID : Field := ⟨0x2800004, 0x10000, 0, 32, .rw, .L, fun _ => 1⟩
def DRV_CMD_OP : Field := ⟨0x2800008, 0x10000, 0, 4, .wo, .C, zeroReset⟩
def DRV_CMD_RESULT_RESULT : Field := ⟨0x280000C, 0x10000, 0, 8, .ro, .S, zeroReset⟩
def DRV_IRQ_EN_EN : Field := ⟨0x2800040, 0x10000, 0, 9, .rw, .L, zeroReset⟩
def DRV_EVENT_WIDTH : Field := ⟨0x2800044, 0x10000, 8, 1, .w1c, .C, zeroReset⟩
def DRV_EVENT_FENCED : Field := ⟨0x2800044, 0x10000, 7, 1, .w1c, .C, zeroReset⟩
def DRV_EVENT_CMD_REFUSED : Field := ⟨0x2800044, 0x10000, 6, 1, .w1c, .C, zeroReset⟩
def DRV_EVENT_WARNING : Field := ⟨0x2800044, 0x10000, 5, 1, .w1c, .C, zeroReset⟩
def DRV_EVENT_LATE : Field := ⟨0x2800044, 0x10000, 4, 1, .w1c, .C, zeroReset⟩
def DRV_EVENT_TIMEOUT : Field := ⟨0x2800044, 0x10000, 3, 1, .w1c, .C, zeroReset⟩
def DRV_EVENT_REMOVED : Field := ⟨0x2800044, 0x10000, 2, 1, .w1c, .C, zeroReset⟩
def DRV_EVENT_FAILED : Field := ⟨0x2800044, 0x10000, 1, 1, .w1c, .C, zeroReset⟩
def DRV_EVENT_READY : Field := ⟨0x2800044, 0x10000, 0, 1, .w1c, .C, zeroReset⟩
def DRV_STATE_PG : Field := ⟨0x2800060, 0x10000, 25, 1, .ro, .S, zeroReset⟩
def DRV_STATE_PRESENT : Field := ⟨0x2800060, 0x10000, 24, 1, .ro, .S, zeroReset⟩
def DRV_STATE_FLIT : Field := ⟨0x2800060, 0x10000, 23, 1, .ro, .S, zeroReset⟩
def DRV_STATE_WIDTH : Field := ⟨0x2800060, 0x10000, 21, 2, .ro, .S, zeroReset⟩
def DRV_STATE_SPEED : Field := ⟨0x2800060, 0x10000, 18, 3, .ro, .S, zeroReset⟩
def DRV_STATE_REASON : Field := ⟨0x2800060, 0x10000, 8, 8, .ro, .S, zeroReset⟩
def DRV_STATE_STATE : Field := ⟨0x2800060, 0x10000, 0, 3, .ro, .S, zeroReset⟩
def DRV_OUT_QUAR : Field := ⟨0x2800064, 0x10000, 16, 16, .ro, .S, zeroReset⟩
def DRV_OUT_OUT : Field := ⟨0x2800064, 0x10000, 0, 16, .ro, .S, zeroReset⟩
def DRV_CAP_UNITS : Field := ⟨0x2800068, 0x10000, 0, 48, .ro, .S, zeroReset⟩
def DRV_FMT_SGL : Field := ⟨0x2800070, 0x10000, 17, 1, .ro, .S, zeroReset⟩
def DRV_FMT_LBA4K : Field := ⟨0x2800070, 0x10000, 16, 1, .ro, .S, zeroReset⟩
def DRV_FMT_MDTS_KIB : Field := ⟨0x2800070, 0x10000, 0, 16, .ro, .S, zeroReset⟩
def DRV_NGUID_ID : Field := ⟨0x2800080, 0x10000, 0, 128, .ro, .S, zeroReset⟩
def DRV_WARN_CW : Field := ⟨0x2800090, 0x10000, 0, 8, .ro, .S, zeroReset⟩
def DRV_SUBMITTED : Field := ⟨0x28000C0, 0x10000, 0, 32, .rc, .K, zeroReset⟩
def DRV_TO_READ : Field := ⟨0x28000C4, 0x10000, 0, 32, .rc, .K, zeroReset⟩
def DRV_TO_WRITE : Field := ⟨0x28000C8, 0x10000, 0, 32, .rc, .K, zeroReset⟩
def DRV_LATE : Field := ⟨0x28000CC, 0x10000, 0, 32, .rc, .K, zeroReset⟩
def DRV_STRAY : Field := ⟨0x28000D0, 0x10000, 0, 32, .rc, .K, zeroReset⟩
def DRV_LATE_DMA : Field := ⟨0x28000D4, 0x10000, 0, 32, .rc, .K, zeroReset⟩
def DRV_CTO : Field := ⟨0x28000D8, 0x10000, 0, 32, .rc, .K, zeroReset⟩
def DRV_RESETS : Field := ⟨0x28000DC, 0x10000, 0, 32, .rc, .K, zeroReset⟩
def DRV_MEDIA_ERR : Field := ⟨0x28000E0, 0x10000, 0, 32, .rc, .K, zeroReset⟩
def DRV_REISSUES : Field := ⟨0x28000E4, 0x10000, 0, 32, .rc, .K, zeroReset⟩
def DRV_GCMD_STOP : Field := ⟨0x2B00000, 0x0, 1, 1, .wo, .C, zeroReset⟩
def DRV_GCMD_START : Field := ⟨0x2B00000, 0x0, 0, 1, .wo, .C, zeroReset⟩
def DRV_TIMEOUT_WR : Field := ⟨0x2B00004, 0x0, 16, 16, .rw, .L, fun _ => 64⟩
def DRV_TIMEOUT_RD : Field := ⟨0x2B00004, 0x0, 0, 16, .rw, .L, fun _ => 32⟩
def DRV_ADMIN_TO_CYCLES : Field := ⟨0x2B00008, 0x0, 0, 8, .rw, .L, fun _ => 64⟩
def DRV_HP_TRAIN_MS : Field := ⟨0x2B0000C, 0x0, 24, 8, .rw, .L, fun _ => 100⟩
def DRV_HP_DEBOUNCE : Field := ⟨0x2B0000C, 0x0, 16, 8, .rw, .L, fun _ => 50⟩
def DRV_HP_PERST_MS : Field := ⟨0x2B0000C, 0x0, 0, 16, .rw, .L, fun _ => 100⟩
def DRV_PCIE_CTO_US : Field := ⟨0x2B00010, 0x0, 0, 16, .rw, .L, fun _ => 50000⟩
def DRV_LIMIT_MAX_OUT : Field := ⟨0x2B00014, 0x0, 0, 14, .rw, .L, fun _ => 2048⟩
def DRV_RKEY_KEY : Field := ⟨0x2B00018, 0x0, 0, 64, .rw, .I, zeroReset⟩
def DRV_INFLIGHT_COUNT : Field := ⟨0x2B00040, 0x0, 0, 18, .ro, .S, zeroReset⟩
def DRV_GEVENT_POOL_WAIT : Field := ⟨0x2B00044, 0x0, 1, 1, .w1c, .C, zeroReset⟩
def DRV_GEVENT_CMD_REFUSED : Field := ⟨0x2B00044, 0x0, 0, 1, .w1c, .C, zeroReset⟩
def DRV_GIRQ_EN_EN : Field := ⟨0x2B00048, 0x0, 0, 2, .rw, .L, zeroReset⟩

/-- The registers of block DRV (R312, R313). -/
def drvRegisters : List Register := [
  ⟨"DRV_CFG", 0x2800000, 48, 0x10000, 4, [DRV_CFG_HP_AUTO, DRV_CFG_PLP, DRV_CFG_SRIS]⟩,
  ⟨"DRV_NSID", 0x2800004, 48, 0x10000, 4, [DRV_NSID_NSID]⟩,
  ⟨"DRV_CMD", 0x2800008, 48, 0x10000, 4, [DRV_CMD_OP]⟩,
  ⟨"DRV_CMD_RESULT", 0x280000C, 48, 0x10000, 4, [DRV_CMD_RESULT_RESULT]⟩,
  ⟨"DRV_IRQ_EN", 0x2800040, 48, 0x10000, 4, [DRV_IRQ_EN_EN]⟩,
  ⟨"DRV_EVENT", 0x2800044, 48, 0x10000, 4, [DRV_EVENT_WIDTH, DRV_EVENT_FENCED, DRV_EVENT_CMD_REFUSED, DRV_EVENT_WARNING, DRV_EVENT_LATE, DRV_EVENT_TIMEOUT, DRV_EVENT_REMOVED, DRV_EVENT_FAILED, DRV_EVENT_READY]⟩,
  ⟨"DRV_STATE", 0x2800060, 48, 0x10000, 4, [DRV_STATE_PG, DRV_STATE_PRESENT, DRV_STATE_FLIT, DRV_STATE_WIDTH, DRV_STATE_SPEED, DRV_STATE_REASON, DRV_STATE_STATE]⟩,
  ⟨"DRV_OUT", 0x2800064, 48, 0x10000, 4, [DRV_OUT_QUAR, DRV_OUT_OUT]⟩,
  ⟨"DRV_CAP", 0x2800068, 48, 0x10000, 8, [DRV_CAP_UNITS]⟩,
  ⟨"DRV_FMT", 0x2800070, 48, 0x10000, 4, [DRV_FMT_SGL, DRV_FMT_LBA4K, DRV_FMT_MDTS_KIB]⟩,
  ⟨"DRV_NGUID", 0x2800080, 48, 0x10000, 16, [DRV_NGUID_ID]⟩,
  ⟨"DRV_WARN", 0x2800090, 48, 0x10000, 4, [DRV_WARN_CW]⟩,
  ⟨"DRV_SUBMITTED", 0x28000C0, 48, 0x10000, 4, [DRV_SUBMITTED]⟩,
  ⟨"DRV_TO_READ", 0x28000C4, 48, 0x10000, 4, [DRV_TO_READ]⟩,
  ⟨"DRV_TO_WRITE", 0x28000C8, 48, 0x10000, 4, [DRV_TO_WRITE]⟩,
  ⟨"DRV_LATE", 0x28000CC, 48, 0x10000, 4, [DRV_LATE]⟩,
  ⟨"DRV_STRAY", 0x28000D0, 48, 0x10000, 4, [DRV_STRAY]⟩,
  ⟨"DRV_LATE_DMA", 0x28000D4, 48, 0x10000, 4, [DRV_LATE_DMA]⟩,
  ⟨"DRV_CTO", 0x28000D8, 48, 0x10000, 4, [DRV_CTO]⟩,
  ⟨"DRV_RESETS", 0x28000DC, 48, 0x10000, 4, [DRV_RESETS]⟩,
  ⟨"DRV_MEDIA_ERR", 0x28000E0, 48, 0x10000, 4, [DRV_MEDIA_ERR]⟩,
  ⟨"DRV_REISSUES", 0x28000E4, 48, 0x10000, 4, [DRV_REISSUES]⟩,
  ⟨"DRV_GCMD", 0x2B00000, 1, 0x0, 4, [DRV_GCMD_STOP, DRV_GCMD_START]⟩,
  ⟨"DRV_TIMEOUT", 0x2B00004, 1, 0x0, 4, [DRV_TIMEOUT_WR, DRV_TIMEOUT_RD]⟩,
  ⟨"DRV_ADMIN_TO", 0x2B00008, 1, 0x0, 4, [DRV_ADMIN_TO_CYCLES]⟩,
  ⟨"DRV_HP", 0x2B0000C, 1, 0x0, 4, [DRV_HP_TRAIN_MS, DRV_HP_DEBOUNCE, DRV_HP_PERST_MS]⟩,
  ⟨"DRV_PCIE", 0x2B00010, 1, 0x0, 4, [DRV_PCIE_CTO_US]⟩,
  ⟨"DRV_LIMIT", 0x2B00014, 1, 0x0, 4, [DRV_LIMIT_MAX_OUT]⟩,
  ⟨"DRV_RKEY", 0x2B00018, 1, 0x0, 8, [DRV_RKEY_KEY]⟩,
  ⟨"DRV_INFLIGHT", 0x2B00040, 1, 0x0, 4, [DRV_INFLIGHT_COUNT]⟩,
  ⟨"DRV_GEVENT", 0x2B00044, 1, 0x0, 4, [DRV_GEVENT_POOL_WAIT, DRV_GEVENT_CMD_REFUSED]⟩,
  ⟨"DRV_GIRQ_EN", 0x2B00048, 1, 0x0, 4, [DRV_GIRQ_EN_EN]⟩]

/-! ### SBD -/

def SBD_CMD_STOP : Field := ⟨0x2C00000, 0x0, 1, 1, .wo, .C, zeroReset⟩
def SBD_CMD_START : Field := ⟨0x2C00000, 0x0, 0, 1, .wo, .C, zeroReset⟩
def SBD_BAR2_BASE_BASE : Field := ⟨0x2C00008, 0x0, 28, 8, .rw, .L, fun _ => 32⟩
def SBD_STATUS_TRAINED1 : Field := ⟨0x2C00010, 0x0, 1, 1, .ro, .S, zeroReset⟩
def SBD_STATUS_TRAINED0 : Field := ⟨0x2C00010, 0x0, 0, 1, .ro, .S, zeroReset⟩
def SBD_UE_ADDR_REQ : Field := ⟨0x2C00018, 0x0, 36, 4, .ro, .S, zeroReset⟩
def SBD_UE_ADDR_ADDR : Field := ⟨0x2C00018, 0x0, 0, 36, .ro, .S, zeroReset⟩
def SBD_IRQ_EN_EN : Field := ⟨0x2C00040, 0x0, 0, 4, .rw, .L, zeroReset⟩
def SBD_EVENT_CMD_REFUSED : Field := ⟨0x2C00044, 0x0, 3, 1, .w1c, .C, zeroReset⟩
def SBD_EVENT_BAR2_REFUSED : Field := ⟨0x2C00044, 0x0, 2, 1, .w1c, .C, zeroReset⟩
def SBD_EVENT_UE : Field := ⟨0x2C00044, 0x0, 1, 1, .w1c, .C, zeroReset⟩
def SBD_EVENT_CE : Field := ⟨0x2C00044, 0x0, 0, 1, .w1c, .C, zeroReset⟩
def SBD_CE : Field := ⟨0x2C00080, 0x0, 0, 32, .rc, .K, zeroReset⟩
def SBD_UE : Field := ⟨0x2C00084, 0x0, 0, 32, .rc, .K, zeroReset⟩
def SBD_BAR2_REFUSED : Field := ⟨0x2C00088, 0x0, 0, 32, .rc, .K, zeroReset⟩

/-- The registers of block SBD (R331). -/
def sbdRegisters : List Register := [
  ⟨"SBD_CMD", 0x2C00000, 1, 0x0, 4, [SBD_CMD_STOP, SBD_CMD_START]⟩,
  ⟨"SBD_BAR2_BASE", 0x2C00008, 1, 0x0, 8, [SBD_BAR2_BASE_BASE]⟩,
  ⟨"SBD_STATUS", 0x2C00010, 1, 0x0, 4, [SBD_STATUS_TRAINED1, SBD_STATUS_TRAINED0]⟩,
  ⟨"SBD_UE_ADDR", 0x2C00018, 1, 0x0, 8, [SBD_UE_ADDR_REQ, SBD_UE_ADDR_ADDR]⟩,
  ⟨"SBD_IRQ_EN", 0x2C00040, 1, 0x0, 4, [SBD_IRQ_EN_EN]⟩,
  ⟨"SBD_EVENT", 0x2C00044, 1, 0x0, 4, [SBD_EVENT_CMD_REFUSED, SBD_EVENT_BAR2_REFUSED, SBD_EVENT_UE, SBD_EVENT_CE]⟩,
  ⟨"SBD_CE", 0x2C00080, 1, 0x0, 4, [SBD_CE]⟩,
  ⟨"SBD_UE", 0x2C00084, 1, 0x0, 4, [SBD_UE]⟩,
  ⟨"SBD_BAR2_REFUSED", 0x2C00088, 1, 0x0, 4, [SBD_BAR2_REFUSED]⟩]

/-! ### ARB -/

def ARB_SEAT_REQ : Field := ⟨0x3000000, 0x4, 0, 5, .rw, .L, arbSeatReset⟩
def ARB_STARVE_TH_BURSTS : Field := ⟨0x3000100, 0x4, 0, 20, .rw, .L, fun _ => 65536⟩
def ARB_MASKED_SEAT : Field := ⟨0x3000110, 0x4, 0, 16, .ro, .S, zeroReset⟩
def ARB_STARVED_SEAT : Field := ⟨0x3000120, 0x4, 0, 16, .w1c, .C, zeroReset⟩
def ARB_IRQ_EN_EN : Field := ⟨0x3000140, 0x0, 0, 3, .rw, .L, zeroReset⟩
def ARB_EVENT_STARVE : Field := ⟨0x3000144, 0x0, 0, 3, .w1c, .C, zeroReset⟩
def ARB_WAITMAX_BURSTS : Field := ⟨0x3000200, 0x4, 0, 20, .rc, .K, zeroReset⟩
def ARB_GRANTS : Field := ⟨0x3000300, 0x4, 0, 32, .rc, .K, zeroReset⟩

/-- The registers of block ARB (R332). -/
def arbRegisters : List Register := [
  ⟨"ARB_SEAT", 0x3000000, 48, 0x4, 4, [ARB_SEAT_REQ]⟩,
  ⟨"ARB_STARVE_TH", 0x3000100, 3, 0x4, 4, [ARB_STARVE_TH_BURSTS]⟩,
  ⟨"ARB_MASKED", 0x3000110, 3, 0x4, 4, [ARB_MASKED_SEAT]⟩,
  ⟨"ARB_STARVED", 0x3000120, 3, 0x4, 4, [ARB_STARVED_SEAT]⟩,
  ⟨"ARB_IRQ_EN", 0x3000140, 1, 0x0, 4, [ARB_IRQ_EN_EN]⟩,
  ⟨"ARB_EVENT", 0x3000144, 1, 0x0, 4, [ARB_EVENT_STARVE]⟩,
  ⟨"ARB_WAITMAX", 0x3000200, 48, 0x4, 4, [ARB_WAITMAX_BURSTS]⟩,
  ⟨"ARB_GRANTS", 0x3000300, 48, 0x4, 4, [ARB_GRANTS]⟩]

/-! ### LCK -/

def LCK_LOCK_STATE : Field := ⟨0x3100000, 0x20, 30, 2, .ro, .S, zeroReset⟩
def LCK_LOCK_RECOVER : Field := ⟨0x3100000, 0x20, 29, 1, .ro, .S, zeroReset⟩
def LCK_LOCK_KIND : Field := ⟨0x3100000, 0x20, 24, 3, .ro, .S, zeroReset⟩
def LCK_LOCK_ID : Field := ⟨0x3100000, 0x20, 0, 24, .ro, .S, zeroReset⟩
def LCK_LOCK_HELD : Field := ⟨0x3100000, 0x20, 56, 8, .ro, .S, zeroReset⟩
def LCK_LOCK_GEN : Field := ⟨0x3100000, 0x20, 32, 24, .ro, .S, zeroReset⟩
def LCK_LOCK_OP : Field := ⟨0x3100000, 0x20, 92, 4, .wo, .C, zeroReset⟩
def LCK_LOCK_CMDGEN : Field := ⟨0x3100000, 0x20, 64, 24, .wo, .C, zeroReset⟩
def LCK_LOCK_LEASE : Field := ⟨0x3100000, 0x20, 96, 8, .rw, .L, zeroReset⟩
def LCK_RESULT_OUTCOME : Field := ⟨0x3102000, 0x4, 30, 2, .ro, .S, zeroReset⟩
def LCK_RESULT_GEN : Field := ⟨0x3102000, 0x4, 0, 24, .ro, .S, zeroReset⟩
def LCK_IRQ_EN_EN : Field := ⟨0x3102040, 0x0, 0, 3, .rw, .L, zeroReset⟩
def LCK_EVENT_STALE : Field := ⟨0x3102044, 0x0, 2, 1, .w1c, .C, zeroReset⟩
def LCK_EVENT_LEASE : Field := ⟨0x3102044, 0x0, 1, 1, .w1c, .C, zeroReset⟩
def LCK_EVENT_ABANDONED : Field := ⟨0x3102044, 0x0, 0, 1, .w1c, .C, zeroReset⟩
def LCK_ACQUIRES : Field := ⟨0x3102080, 0x0, 0, 32, .rc, .K, zeroReset⟩
def LCK_BUSY : Field := ⟨0x3102084, 0x0, 0, 32, .rc, .K, zeroReset⟩
def LCK_ABANDONS : Field := ⟨0x3102088, 0x0, 0, 32, .rc, .K, zeroReset⟩
def LCK_STALE : Field := ⟨0x310208C, 0x0, 0, 32, .rc, .K, zeroReset⟩

/-- The registers of block LCK (R333). -/
def lckRegisters : List Register := [
  ⟨"LCK_LOCK", 0x3100000, 256, 0x20, 16, [LCK_LOCK_STATE, LCK_LOCK_RECOVER, LCK_LOCK_KIND, LCK_LOCK_ID, LCK_LOCK_HELD, LCK_LOCK_GEN, LCK_LOCK_OP, LCK_LOCK_CMDGEN, LCK_LOCK_LEASE]⟩,
  ⟨"LCK_RESULT", 0x3102000, 3, 0x4, 4, [LCK_RESULT_OUTCOME, LCK_RESULT_GEN]⟩,
  ⟨"LCK_IRQ_EN", 0x3102040, 1, 0x0, 4, [LCK_IRQ_EN_EN]⟩,
  ⟨"LCK_EVENT", 0x3102044, 1, 0x0, 4, [LCK_EVENT_STALE, LCK_EVENT_LEASE, LCK_EVENT_ABANDONED]⟩,
  ⟨"LCK_ACQUIRES", 0x3102080, 1, 0x0, 4, [LCK_ACQUIRES]⟩,
  ⟨"LCK_BUSY", 0x3102084, 1, 0x0, 4, [LCK_BUSY]⟩,
  ⟨"LCK_ABANDONS", 0x3102088, 1, 0x0, 4, [LCK_ABANDONS]⟩,
  ⟨"LCK_STALE", 0x310208C, 1, 0x0, 4, [LCK_STALE]⟩]

/-! ### HNG -/

def HNG_CMD_OP : Field := ⟨0x3400000, 0x0, 0, 4, .wo, .C, zeroReset⟩
def HNG_CFG_PAIR_EN : Field := ⟨0x3400004, 0x0, 31, 1, .rw, .I, fun _ => 1⟩
def HNG_CFG_LANES_MIN : Field := ⟨0x3400004, 0x0, 16, 4, .rw, .I, fun _ => 4⟩
def HNG_CFG_START_DEFER : Field := ⟨0x3400004, 0x0, 0, 16, .rw, .I, fun _ => 100⟩
def HNG_TO_WDOG : Field := ⟨0x3400008, 0x0, 28, 4, .rw, .L, fun _ => 2⟩
def HNG_TO_GRACE : Field := ⟨0x3400008, 0x0, 16, 8, .rw, .L, fun _ => 2⟩
def HNG_TO_CONTEST_US : Field := ⟨0x3400008, 0x0, 0, 16, .rw, .L, fun _ => 1000⟩
def HNG_IRQ_EN_EN : Field := ⟨0x3400040, 0x0, 0, 9, .rw, .L, zeroReset⟩
def HNG_EVENT_CMD_REFUSED : Field := ⟨0x3400044, 0x0, 8, 1, .w1c, .C, zeroReset⟩
def HNG_EVENT_PAIR_REFUSED : Field := ⟨0x3400044, 0x0, 7, 1, .w1c, .C, zeroReset⟩
def HNG_EVENT_SWAPPED : Field := ⟨0x3400044, 0x0, 6, 1, .w1c, .C, zeroReset⟩
def HNG_EVENT_SYNCED : Field := ⟨0x3400044, 0x0, 5, 1, .w1c, .C, zeroReset⟩
def HNG_EVENT_DETACHED : Field := ⟨0x3400044, 0x0, 4, 1, .w1c, .C, zeroReset⟩
def HNG_EVENT_FENCED : Field := ⟨0x3400044, 0x0, 3, 1, .w1c, .C, zeroReset⟩
def HNG_EVENT_TOOK_OVER : Field := ⟨0x3400044, 0x0, 2, 1, .w1c, .C, zeroReset⟩
def HNG_EVENT_PEER_ABSENT : Field := ⟨0x3400044, 0x0, 1, 1, .w1c, .C, zeroReset⟩
def HNG_EVENT_DEGRADED : Field := ⟨0x3400044, 0x0, 0, 1, .w1c, .C, zeroReset⟩
def HNG_STATUS_REFUSE : Field := ⟨0x3400060, 0x0, 28, 4, .ro, .S, zeroReset⟩
def HNG_STATUS_LANES : Field := ⟨0x3400060, 0x0, 24, 4, .ro, .S, zeroReset⟩
def HNG_STATUS_TETHER1 : Field := ⟨0x3400060, 0x0, 21, 1, .ro, .S, zeroReset⟩
def HNG_STATUS_TETHER0 : Field := ⟨0x3400060, 0x0, 20, 1, .ro, .S, zeroReset⟩
def HNG_STATUS_PEER_CORE_OK : Field := ⟨0x3400060, 0x0, 19, 1, .ro, .S, zeroReset⟩
def HNG_STATUS_PEER_PAIR : Field := ⟨0x3400060, 0x0, 16, 3, .ro, .S, zeroReset⟩
def HNG_STATUS_PEER_ROLE : Field := ⟨0x3400060, 0x0, 14, 2, .ro, .S, zeroReset⟩
def HNG_STATUS_UNIT : Field := ⟨0x3400060, 0x0, 8, 1, .ro, .S, zeroReset⟩
def HNG_STATUS_PAIR : Field := ⟨0x3400060, 0x0, 2, 3, .ro, .S, zeroReset⟩
def HNG_STATUS_ROLE : Field := ⟨0x3400060, 0x0, 0, 2, .ro, .S, zeroReset⟩
def HNG_CONFIRMED_EPOCH : Field := ⟨0x3400068, 0x0, 0, 64, .ro, .S, zeroReset⟩
def HNG_PHASE_SUB : Field := ⟨0x3400070, 0x0, 0, 32, .ro, .S, zeroReset⟩
def HNG_CONTEST_OUTCOME : Field := ⟨0x3400074, 0x0, 16, 2, .ro, .S, zeroReset⟩
def HNG_CONTEST_B : Field := ⟨0x3400074, 0x0, 4, 4, .ro, .S, zeroReset⟩
def HNG_CONTEST_A : Field := ⟨0x3400074, 0x0, 0, 4, .ro, .S, zeroReset⟩
def HNG_TX_FRAMES : Field := ⟨0x3400080, 0x0, 0, 32, .rc, .K, zeroReset⟩
def HNG_RX_FRAMES : Field := ⟨0x3400084, 0x0, 0, 32, .rc, .K, zeroReset⟩
def HNG_RETX : Field := ⟨0x3400088, 0x0, 0, 32, .rc, .K, zeroReset⟩
def HNG_CRC_ERR : Field := ⟨0x340008C, 0x0, 0, 32, .rc, .K, zeroReset⟩
def HNG_COPY_KIB : Field := ⟨0x3400090, 0x0, 0, 32, .rc, .K, zeroReset⟩
def HNG_TETHER_MISS : Field := ⟨0x3400094, 0x0, 0, 32, .rc, .K, zeroReset⟩
def HNG_CONTESTS : Field := ⟨0x3400098, 0x0, 0, 32, .rc, .K, zeroReset⟩

/-- The registers of block HNG (R359). -/
def hngRegisters : List Register := [
  ⟨"HNG_CMD", 0x3400000, 1, 0x0, 4, [HNG_CMD_OP]⟩,
  ⟨"HNG_CFG", 0x3400004, 1, 0x0, 4, [HNG_CFG_PAIR_EN, HNG_CFG_LANES_MIN, HNG_CFG_START_DEFER]⟩,
  ⟨"HNG_TO", 0x3400008, 1, 0x0, 4, [HNG_TO_WDOG, HNG_TO_GRACE, HNG_TO_CONTEST_US]⟩,
  ⟨"HNG_IRQ_EN", 0x3400040, 1, 0x0, 4, [HNG_IRQ_EN_EN]⟩,
  ⟨"HNG_EVENT", 0x3400044, 1, 0x0, 4, [HNG_EVENT_CMD_REFUSED, HNG_EVENT_PAIR_REFUSED, HNG_EVENT_SWAPPED, HNG_EVENT_SYNCED, HNG_EVENT_DETACHED, HNG_EVENT_FENCED, HNG_EVENT_TOOK_OVER, HNG_EVENT_PEER_ABSENT, HNG_EVENT_DEGRADED]⟩,
  ⟨"HNG_STATUS", 0x3400060, 1, 0x0, 4, [HNG_STATUS_REFUSE, HNG_STATUS_LANES, HNG_STATUS_TETHER1, HNG_STATUS_TETHER0, HNG_STATUS_PEER_CORE_OK, HNG_STATUS_PEER_PAIR, HNG_STATUS_PEER_ROLE, HNG_STATUS_UNIT, HNG_STATUS_PAIR, HNG_STATUS_ROLE]⟩,
  ⟨"HNG_CONFIRMED", 0x3400068, 1, 0x0, 8, [HNG_CONFIRMED_EPOCH]⟩,
  ⟨"HNG_PHASE", 0x3400070, 1, 0x0, 4, [HNG_PHASE_SUB]⟩,
  ⟨"HNG_CONTEST", 0x3400074, 1, 0x0, 4, [HNG_CONTEST_OUTCOME, HNG_CONTEST_B, HNG_CONTEST_A]⟩,
  ⟨"HNG_TX_FRAMES", 0x3400080, 1, 0x0, 4, [HNG_TX_FRAMES]⟩,
  ⟨"HNG_RX_FRAMES", 0x3400084, 1, 0x0, 4, [HNG_RX_FRAMES]⟩,
  ⟨"HNG_RETX", 0x3400088, 1, 0x0, 4, [HNG_RETX]⟩,
  ⟨"HNG_CRC_ERR", 0x340008C, 1, 0x0, 4, [HNG_CRC_ERR]⟩,
  ⟨"HNG_COPY_KIB", 0x3400090, 1, 0x0, 4, [HNG_COPY_KIB]⟩,
  ⟨"HNG_TETHER_MISS", 0x3400094, 1, 0x0, 4, [HNG_TETHER_MISS]⟩,
  ⟨"HNG_CONTESTS", 0x3400098, 1, 0x0, 4, [HNG_CONTESTS]⟩]

/-! ### SLP -/

def SLP_CMD_STOP : Field := ⟨0x3800000, 0x0, 1, 1, .wo, .C, zeroReset⟩
def SLP_CMD_START : Field := ⟨0x3800000, 0x0, 0, 1, .wo, .C, zeroReset⟩
def SLP_SHARE_EN : Field := ⟨0x3800008, 0x0, 0, 1, .rw, .L, fun _ => 1⟩
def SLP_IRQ_EN_EN : Field := ⟨0x3800040, 0x0, 0, 8, .rw, .L, zeroReset⟩
def SLP_EVENT_CMD_REFUSED : Field := ⟨0x3800044, 0x0, 7, 1, .w1c, .C, zeroReset⟩
def SLP_EVENT_PFW : Field := ⟨0x3800044, 0x0, 6, 1, .w1c, .C, zeroReset⟩
def SLP_EVENT_FEED_FAULT : Field := ⟨0x3800044, 0x0, 5, 1, .w1c, .C, zeroReset⟩
def SLP_EVENT_SHARE_LIMIT : Field := ⟨0x3800044, 0x0, 4, 1, .w1c, .C, zeroReset⟩
def SLP_EVENT_LATCHED : Field := ⟨0x3800044, 0x0, 3, 1, .w1c, .C, zeroReset⟩
def SLP_EVENT_TIMER_FAULT : Field := ⟨0x3800044, 0x0, 2, 1, .w1c, .C, zeroReset⟩
def SLP_EVENT_FAST_TRIP : Field := ⟨0x3800044, 0x0, 1, 1, .w1c, .C, zeroReset⟩
def SLP_EVENT_PG_LOST : Field := ⟨0x3800044, 0x0, 0, 1, .w1c, .C, zeroReset⟩
def SLP_STATUS_PFW : Field := ⟨0x3800060, 0x0, 16, 1, .ro, .S, zeroReset⟩
def SLP_STATUS_BUS_MV : Field := ⟨0x3800060, 0x0, 0, 16, .ro, .S, zeroReset⟩
def SLP_FEED_CFG_EN : Field := ⟨0x3800100, 0x4, 31, 1, .rw, .L, fun _ => 1⟩
def SLP_FEED_CFG_ITRIP : Field := ⟨0x3800100, 0x4, 0, 8, .rw, .L, fun _ => 160⟩
def SLP_FEED_STAT_STATE : Field := ⟨0x3800110, 0x8, 30, 2, .ro, .S, zeroReset⟩
def SLP_FEED_STAT_CAUSE : Field := ⟨0x3800110, 0x8, 29, 1, .ro, .S, zeroReset⟩
def SLP_FEED_STAT_I_10MA : Field := ⟨0x3800110, 0x8, 0, 16, .ro, .S, zeroReset⟩
def SLP_FEED_STAT_VIN_MV : Field := ⟨0x3800110, 0x8, 32, 16, .ro, .S, zeroReset⟩
def SLP_CH_ILIM : Field := ⟨0x3801000, 0x20, 16, 7, .rw, .L, fun _ => 16⟩
def SLP_CH_ITRIP : Field := ⟨0x3801000, 0x20, 0, 6, .rw, .L, fun _ => 24⟩
def SLP_CH_SLEW : Field := ⟨0x3801000, 0x20, 48, 8, .rw, .L, fun _ => 10⟩
def SLP_CH_PLIM : Field := ⟨0x3801000, 0x20, 32, 8, .rw, .L, fun _ => 20⟩
def SLP_CH_MODE : Field := ⟨0x3801000, 0x20, 95, 1, .rw, .L, zeroReset⟩
def SLP_CH_RETRY_MAX : Field := ⟨0x3801000, 0x20, 88, 4, .rw, .L, fun _ => 3⟩
def SLP_CH_RETRY_MS : Field := ⟨0x3801000, 0x20, 80, 8, .rw, .L, fun _ => 10⟩
def SLP_CH_TFAULT : Field := ⟨0x3801000, 0x20, 64, 8, .rw, .L, fun _ => 15⟩
def SLP_CH_PG_FALL : Field := ⟨0x3801000, 0x20, 112, 16, .rw, .L, fun _ => 10200⟩
def SLP_CH_PG_RISE : Field := ⟨0x3801000, 0x20, 96, 16, .rw, .L, fun _ => 10800⟩
def SLP_CH_RETRIES : Field := ⟨0x3801000, 0x20, 144, 4, .ro, .S, zeroReset⟩
def SLP_CH_CAUSE : Field := ⟨0x3801000, 0x20, 140, 4, .ro, .S, zeroReset⟩
def SLP_CH_JOINED : Field := ⟨0x3801000, 0x20, 139, 1, .ro, .S, zeroReset⟩
def SLP_CH_LIMITING : Field := ⟨0x3801000, 0x20, 138, 1, .ro, .S, zeroReset⟩
def SLP_CH_TIMER : Field := ⟨0x3801000, 0x20, 137, 1, .ro, .S, zeroReset⟩
def SLP_CH_PG : Field := ⟨0x3801000, 0x20, 136, 1, .ro, .S, zeroReset⟩
def SLP_CH_STATE : Field := ⟨0x3801000, 0x20, 128, 3, .ro, .S, zeroReset⟩
def SLP_CH_VOUT_MV : Field := ⟨0x3801000, 0x20, 176, 16, .ro, .S, zeroReset⟩
def SLP_CH_I_MA : Field := ⟨0x3801000, 0x20, 160, 16, .ro, .S, zeroReset⟩
def SLP_CH_FAULTS : Field := ⟨0x3801000, 0x20, 192, 32, .rc, .K, zeroReset⟩

/-- The registers of block SLP (R376). -/
def slpRegisters : List Register := [
  ⟨"SLP_CMD", 0x3800000, 1, 0x0, 4, [SLP_CMD_STOP, SLP_CMD_START]⟩,
  ⟨"SLP_SHARE", 0x3800008, 1, 0x0, 4, [SLP_SHARE_EN]⟩,
  ⟨"SLP_IRQ_EN", 0x3800040, 1, 0x0, 4, [SLP_IRQ_EN_EN]⟩,
  ⟨"SLP_EVENT", 0x3800044, 1, 0x0, 4, [SLP_EVENT_CMD_REFUSED, SLP_EVENT_PFW, SLP_EVENT_FEED_FAULT, SLP_EVENT_SHARE_LIMIT, SLP_EVENT_LATCHED, SLP_EVENT_TIMER_FAULT, SLP_EVENT_FAST_TRIP, SLP_EVENT_PG_LOST]⟩,
  ⟨"SLP_STATUS", 0x3800060, 1, 0x0, 4, [SLP_STATUS_PFW, SLP_STATUS_BUS_MV]⟩,
  ⟨"SLP_FEED_CFG", 0x3800100, 2, 0x4, 4, [SLP_FEED_CFG_EN, SLP_FEED_CFG_ITRIP]⟩,
  ⟨"SLP_FEED_STAT", 0x3800110, 2, 0x8, 8, [SLP_FEED_STAT_STATE, SLP_FEED_STAT_CAUSE, SLP_FEED_STAT_I_10MA, SLP_FEED_STAT_VIN_MV]⟩,
  ⟨"SLP_CH", 0x3801000, 48, 0x20, 28, [SLP_CH_ILIM, SLP_CH_ITRIP, SLP_CH_SLEW, SLP_CH_PLIM, SLP_CH_MODE, SLP_CH_RETRY_MAX, SLP_CH_RETRY_MS, SLP_CH_TFAULT, SLP_CH_PG_FALL, SLP_CH_PG_RISE, SLP_CH_RETRIES, SLP_CH_CAUSE, SLP_CH_JOINED, SLP_CH_LIMITING, SLP_CH_TIMER, SLP_CH_PG, SLP_CH_STATE, SLP_CH_VOUT_MV, SLP_CH_I_MA, SLP_CH_FAULTS]⟩]

/-! ### MEP -/

def MEP_CTRL_CFG_READY : Field := ⟨0x3C00000, 0x0, 0, 1, .rw, .C, zeroReset⟩
def MEP_ID_DEVICE : Field := ⟨0x3C00004, 0x0, 16, 16, .ro, .S, fun _ => 18582⟩
def MEP_ID_VENDOR : Field := ⟨0x3C00004, 0x0, 0, 16, .ro, .S, fun _ => 7772⟩
def MEP_SUBSYS_SUBSYS : Field := ⟨0x3C00008, 0x0, 16, 16, .rw, .I, zeroReset⟩
def MEP_SUBSYS_SUBVEND : Field := ⟨0x3C00008, 0x0, 0, 16, .rw, .I, zeroReset⟩
def MEP_PM_L1_IDLE : Field := ⟨0x3C0000C, 0x0, 0, 16, .rw, .L, fun _ => 100⟩
def MEP_LINK_BAR2 : Field := ⟨0x3C00010, 0x0, 12, 3, .ro, .S, fun _ => 5⟩
def MEP_LINK_BAR0 : Field := ⟨0x3C00010, 0x0, 8, 4, .ro, .S, zeroReset⟩
def MEP_LINK_FLR : Field := ⟨0x3C00010, 0x0, 7, 1, .ro, .S, zeroReset⟩
def MEP_LINK_MSIX : Field := ⟨0x3C00010, 0x0, 6, 1, .ro, .S, zeroReset⟩
def MEP_LINK_BME : Field := ⟨0x3C00010, 0x0, 5, 1, .ro, .S, zeroReset⟩
def MEP_LINK_L1 : Field := ⟨0x3C00010, 0x0, 4, 1, .ro, .S, zeroReset⟩
def MEP_LINK_UP : Field := ⟨0x3C00010, 0x0, 3, 1, .ro, .S, zeroReset⟩
def MEP_LINK_WIDTH_SPEED : Field := ⟨0x3C00010, 0x0, 0, 3, .ro, .S, zeroReset⟩
def MEP_IRQ_PIN_MASK : Field := ⟨0x3C00018, 0x0, 0, 64, .rw, .L, zeroReset⟩
def MEP_VEC_ACK_ACK : Field := ⟨0x3C00020, 0x0, 0, 64, .wo, .C, zeroReset⟩
def MEP_VEC_PEND_PEND : Field := ⟨0x3C00028, 0x0, 0, 64, .ro, .S, zeroReset⟩
def MEP_IRQ_EN_EN : Field := ⟨0x3C00040, 0x0, 0, 5, .rw, .L, zeroReset⟩
def MEP_EVENT_AER : Field := ⟨0x3C00044, 0x0, 4, 1, .w1c, .C, zeroReset⟩
def MEP_EVENT_MGMT_REFUSED : Field := ⟨0x3C00044, 0x0, 3, 1, .w1c, .C, zeroReset⟩
def MEP_EVENT_DMA_ABORT : Field := ⟨0x3C00044, 0x0, 2, 1, .w1c, .C, zeroReset⟩
def MEP_EVENT_FLR : Field := ⟨0x3C00044, 0x0, 1, 1, .w1c, .C, zeroReset⟩
def MEP_EVENT_LINK_DOWN : Field := ⟨0x3C00044, 0x0, 0, 1, .w1c, .C, zeroReset⟩
def MEP_VECMAP_VEC : Field := ⟨0x3C00100, 0x4, 0, 6, .rw, .L, fun i => i⟩
def MEP_MGMT_SUB_VALID : Field := ⟨0x3C00200, 0x4, 31, 1, .rw, .L, zeroReset⟩
def MEP_MGMT_SUB_REG : Field := ⟨0x3C00200, 0x4, 30, 1, .rw, .L, zeroReset⟩
def MEP_MGMT_SUB_AREA : Field := ⟨0x3C00200, 0x4, 29, 1, .rw, .L, zeroReset⟩
def MEP_MGMT_SUB_SUB : Field := ⟨0x3C00200, 0x4, 0, 12, .rw, .L, zeroReset⟩
def MEP_EVT_CONN_CONN : Field := ⟨0x3C00240, 0x0, 0, 24, .rw, .L, zeroReset⟩
def MEP_DMA_HOST : Field := ⟨0x3C00400, 0x20, 0, 64, .rw, .C, zeroReset⟩
def MEP_DMA_SBD : Field := ⟨0x3C00400, 0x20, 64, 36, .rw, .C, zeroReset⟩
def MEP_DMA_LEN : Field := ⟨0x3C00400, 0x20, 128, 25, .rw, .C, zeroReset⟩
def MEP_DMA_ATS : Field := ⟨0x3C00400, 0x20, 162, 1, .wo, .C, zeroReset⟩
def MEP_DMA_DIR : Field := ⟨0x3C00400, 0x20, 161, 1, .wo, .C, zeroReset⟩
def MEP_DMA_GO : Field := ⟨0x3C00400, 0x20, 160, 1, .wo, .C, zeroReset⟩
def MEP_DMA_STATUS : Field := ⟨0x3C00400, 0x20, 192, 2, .ro, .S, zeroReset⟩
def MSIX_TABLE_ADDR : Field := ⟨0x3C80000, 0x10, 0, 64, .rw, .C, zeroReset⟩
def MSIX_TABLE_DATA : Field := ⟨0x3C80000, 0x10, 64, 32, .rw, .C, zeroReset⟩
def MSIX_TABLE_MASK : Field := ⟨0x3C80000, 0x10, 96, 1, .rw, .C, fun _ => 1⟩
def MSIX_PBA_PEND : Field := ⟨0x3C90000, 0x0, 0, 64, .ro, .S, zeroReset⟩
def MEP_MGMT_REQS : Field := ⟨0x3C00080, 0x0, 0, 32, .rc, .K, zeroReset⟩
def MEP_MGMT_REFUSED : Field := ⟨0x3C00084, 0x0, 0, 32, .rc, .K, zeroReset⟩
def MEP_ATS_HITS : Field := ⟨0x3C00088, 0x0, 0, 32, .rc, .K, zeroReset⟩
def MEP_ATS_MISSES : Field := ⟨0x3C0008C, 0x0, 0, 32, .rc, .K, zeroReset⟩
def MEP_INVALS : Field := ⟨0x3C00090, 0x0, 0, 32, .rc, .K, zeroReset⟩
def MEP_DISCARDED : Field := ⟨0x3C00094, 0x0, 0, 32, .rc, .K, zeroReset⟩
def MEP_MSIX_SENT : Field := ⟨0x3C00098, 0x0, 0, 32, .rc, .K, zeroReset⟩

/-- The registers of block MEP (R388). -/
def mepRegisters : List Register := [
  ⟨"MEP_CTRL", 0x3C00000, 1, 0x0, 4, [MEP_CTRL_CFG_READY]⟩,
  ⟨"MEP_ID", 0x3C00004, 1, 0x0, 4, [MEP_ID_DEVICE, MEP_ID_VENDOR]⟩,
  ⟨"MEP_SUBSYS", 0x3C00008, 1, 0x0, 4, [MEP_SUBSYS_SUBSYS, MEP_SUBSYS_SUBVEND]⟩,
  ⟨"MEP_PM", 0x3C0000C, 1, 0x0, 4, [MEP_PM_L1_IDLE]⟩,
  ⟨"MEP_LINK", 0x3C00010, 1, 0x0, 4, [MEP_LINK_BAR2, MEP_LINK_BAR0, MEP_LINK_FLR, MEP_LINK_MSIX, MEP_LINK_BME, MEP_LINK_L1, MEP_LINK_UP, MEP_LINK_WIDTH_SPEED]⟩,
  ⟨"MEP_IRQ_PIN", 0x3C00018, 1, 0x0, 8, [MEP_IRQ_PIN_MASK]⟩,
  ⟨"MEP_VEC_ACK", 0x3C00020, 1, 0x0, 8, [MEP_VEC_ACK_ACK]⟩,
  ⟨"MEP_VEC_PEND", 0x3C00028, 1, 0x0, 8, [MEP_VEC_PEND_PEND]⟩,
  ⟨"MEP_IRQ_EN", 0x3C00040, 1, 0x0, 4, [MEP_IRQ_EN_EN]⟩,
  ⟨"MEP_EVENT", 0x3C00044, 1, 0x0, 4, [MEP_EVENT_AER, MEP_EVENT_MGMT_REFUSED, MEP_EVENT_DMA_ABORT, MEP_EVENT_FLR, MEP_EVENT_LINK_DOWN]⟩,
  ⟨"MEP_VECMAP", 0x3C00100, 22, 0x4, 4, [MEP_VECMAP_VEC]⟩,
  ⟨"MEP_MGMT_SUB", 0x3C00200, 8, 0x4, 4, [MEP_MGMT_SUB_VALID, MEP_MGMT_SUB_REG, MEP_MGMT_SUB_AREA, MEP_MGMT_SUB_SUB]⟩,
  ⟨"MEP_EVT_CONN", 0x3C00240, 1, 0x0, 4, [MEP_EVT_CONN_CONN]⟩,
  ⟨"MEP_DMA", 0x3C00400, 4, 0x20, 28, [MEP_DMA_HOST, MEP_DMA_SBD, MEP_DMA_LEN, MEP_DMA_ATS, MEP_DMA_DIR, MEP_DMA_GO, MEP_DMA_STATUS]⟩,
  ⟨"MSIX_TABLE", 0x3C80000, 64, 0x10, 16, [MSIX_TABLE_ADDR, MSIX_TABLE_DATA, MSIX_TABLE_MASK]⟩,
  ⟨"MSIX_PBA", 0x3C90000, 1, 0x0, 8, [MSIX_PBA_PEND]⟩,
  ⟨"MEP_MGMT_REQS", 0x3C00080, 1, 0x0, 4, [MEP_MGMT_REQS]⟩,
  ⟨"MEP_MGMT_REFUSED", 0x3C00084, 1, 0x0, 4, [MEP_MGMT_REFUSED]⟩,
  ⟨"MEP_ATS_HITS", 0x3C00088, 1, 0x0, 4, [MEP_ATS_HITS]⟩,
  ⟨"MEP_ATS_MISSES", 0x3C0008C, 1, 0x0, 4, [MEP_ATS_MISSES]⟩,
  ⟨"MEP_INVALS", 0x3C00090, 1, 0x0, 4, [MEP_INVALS]⟩,
  ⟨"MEP_DISCARDED", 0x3C00094, 1, 0x0, 4, [MEP_DISCARDED]⟩,
  ⟨"MEP_MSIX_SENT", 0x3C00098, 1, 0x0, 4, [MEP_MSIX_SENT]⟩]

/-! ### FWU -/

def FWU_CMD_OP : Field := ⟨0x3D00000, 0x0, 0, 4, .wo, .C, zeroReset⟩
def FWU_STATUS_BUSY : Field := ⟨0x3D00004, 0x0, 31, 1, .ro, .S, zeroReset⟩
def FWU_STATUS_VERIFIED : Field := ⟨0x3D00004, 0x0, 30, 1, .ro, .S, zeroReset⟩
def FWU_STATUS_DEFERRED : Field := ⟨0x3D00004, 0x0, 27, 3, .ro, .S, zeroReset⟩
def FWU_STATUS_BOOT : Field := ⟨0x3D00004, 0x0, 24, 3, .ro, .S, zeroReset⟩
def FWU_STATUS_RESULT : Field := ⟨0x3D00004, 0x0, 0, 8, .ro, .S, zeroReset⟩
def FWU_BLK_OFF_UNITS : Field := ⟨0x3D00008, 0x0, 0, 14, .rw, .C, zeroReset⟩
def FWU_LEN_UNITS : Field := ⟨0x3D0000C, 0x0, 0, 14, .rw, .C, zeroReset⟩
def FWU_VER_STAGED : Field := ⟨0x3D00010, 0x0, 32, 32, .ro, .S, zeroReset⟩
def FWU_VER_RUNNING : Field := ⟨0x3D00010, 0x0, 0, 32, .ro, .S, zeroReset⟩
def FWU_SVN_STAGED : Field := ⟨0x3D00018, 0x0, 16, 7, .ro, .S, zeroReset⟩
def FWU_SVN_RUNNING : Field := ⟨0x3D00018, 0x0, 8, 7, .ro, .S, zeroReset⟩
def FWU_SVN_FUSED : Field := ⟨0x3D00018, 0x0, 0, 7, .ro, .S, zeroReset⟩
def FWU_RCV_SLOT_SLOT : Field := ⟨0x3D0001C, 0x0, 0, 13, .rw, .C, zeroReset⟩
def FWU_PROG_UNITS : Field := ⟨0x3D00020, 0x0, 0, 14, .ro, .S, zeroReset⟩
def FWU_IRQ_EN_EN : Field := ⟨0x3D00040, 0x0, 0, 4, .rw, .L, zeroReset⟩
def FWU_EVENT_DBG_UNLOCKED : Field := ⟨0x3D00044, 0x0, 3, 1, .w1c, .C, zeroReset⟩
def FWU_EVENT_RECOVERY : Field := ⟨0x3D00044, 0x0, 2, 1, .w1c, .C, zeroReset⟩
def FWU_EVENT_FAILED : Field := ⟨0x3D00044, 0x0, 1, 1, .w1c, .C, zeroReset⟩
def FWU_EVENT_DONE : Field := ⟨0x3D00044, 0x0, 0, 1, .w1c, .C, zeroReset⟩
def FWU_DBG_CMD_UNLOCKED : Field := ⟨0x3D00050, 0x0, 31, 1, .ro, .S, zeroReset⟩
def FWU_DBG_CMD_OP : Field := ⟨0x3D00050, 0x0, 0, 2, .wo, .C, zeroReset⟩
def FWU_DBG_NONCE_NONCE : Field := ⟨0x3D00100, 0x0, 0, 256, .ro, .S, zeroReset⟩
def FWU_DBG_SIG_SIG : Field := ⟨0x3D00140, 0x0, 0, 768, .wo, .C, zeroReset⟩
def FWU_BLK_DATA_DATA : Field := ⟨0x3D01000, 0x4, 0, 32, .wo, .C, zeroReset⟩
def FWU_UNITS_IN : Field := ⟨0x3D00080, 0x0, 0, 32, .rc, .K, zeroReset⟩
def FWU_PROGRAMS : Field := ⟨0x3D00084, 0x0, 0, 32, .rc, .K, zeroReset⟩
def FWU_ACTIVATES : Field := ⟨0x3D00088, 0x0, 0, 32, .rc, .K, zeroReset⟩

/-- The registers of block FWU (R403). -/
def fwuRegisters : List Register := [
  ⟨"FWU_CMD", 0x3D00000, 1, 0x0, 4, [FWU_CMD_OP]⟩,
  ⟨"FWU_STATUS", 0x3D00004, 1, 0x0, 4, [FWU_STATUS_BUSY, FWU_STATUS_VERIFIED, FWU_STATUS_DEFERRED, FWU_STATUS_BOOT, FWU_STATUS_RESULT]⟩,
  ⟨"FWU_BLK_OFF", 0x3D00008, 1, 0x0, 4, [FWU_BLK_OFF_UNITS]⟩,
  ⟨"FWU_LEN", 0x3D0000C, 1, 0x0, 4, [FWU_LEN_UNITS]⟩,
  ⟨"FWU_VER", 0x3D00010, 1, 0x0, 8, [FWU_VER_STAGED, FWU_VER_RUNNING]⟩,
  ⟨"FWU_SVN", 0x3D00018, 1, 0x0, 4, [FWU_SVN_STAGED, FWU_SVN_RUNNING, FWU_SVN_FUSED]⟩,
  ⟨"FWU_RCV_SLOT", 0x3D0001C, 1, 0x0, 4, [FWU_RCV_SLOT_SLOT]⟩,
  ⟨"FWU_PROG", 0x3D00020, 1, 0x0, 4, [FWU_PROG_UNITS]⟩,
  ⟨"FWU_IRQ_EN", 0x3D00040, 1, 0x0, 4, [FWU_IRQ_EN_EN]⟩,
  ⟨"FWU_EVENT", 0x3D00044, 1, 0x0, 4, [FWU_EVENT_DBG_UNLOCKED, FWU_EVENT_RECOVERY, FWU_EVENT_FAILED, FWU_EVENT_DONE]⟩,
  ⟨"FWU_DBG_CMD", 0x3D00050, 1, 0x0, 4, [FWU_DBG_CMD_UNLOCKED, FWU_DBG_CMD_OP]⟩,
  ⟨"FWU_DBG_NONCE", 0x3D00100, 1, 0x0, 32, [FWU_DBG_NONCE_NONCE]⟩,
  ⟨"FWU_DBG_SIG", 0x3D00140, 1, 0x0, 96, [FWU_DBG_SIG_SIG]⟩,
  ⟨"FWU_BLK_DATA", 0x3D01000, 1024, 0x4, 4, [FWU_BLK_DATA_DATA]⟩,
  ⟨"FWU_UNITS_IN", 0x3D00080, 1, 0x0, 4, [FWU_UNITS_IN]⟩,
  ⟨"FWU_PROGRAMS", 0x3D00084, 1, 0x0, 4, [FWU_PROGRAMS]⟩,
  ⟨"FWU_ACTIVATES", 0x3D00088, 1, 0x0, 4, [FWU_ACTIVATES]⟩]

/-! ### EVR -/

def EVR_CMD_OP : Field := ⟨0x3E00000, 0x0, 0, 4, .wo, .C, zeroReset⟩
def EVR_CFG_FLUSH_MARK : Field := ⟨0x3E00004, 0x0, 24, 8, .rw, .L, fun _ => 64⟩
def EVR_CFG_SPILL_MARK : Field := ⟨0x3E00004, 0x0, 16, 6, .rw, .L, fun _ => 48⟩
def EVR_CFG_LEVEL : Field := ⟨0x3E00004, 0x0, 0, 2, .rw, .L, fun _ => 3⟩
def EVR_IRQ_EN_EN : Field := ⟨0x3E00040, 0x0, 0, 4, .rw, .L, zeroReset⟩
def EVR_EVENT_FLUSH_FAIL : Field := ⟨0x3E00044, 0x0, 3, 1, .w1c, .C, zeroReset⟩
def EVR_EVENT_FLUSHED : Field := ⟨0x3E00044, 0x0, 2, 1, .w1c, .C, zeroReset⟩
def EVR_EVENT_SEVERE : Field := ⟨0x3E00044, 0x0, 1, 1, .w1c, .C, zeroReset⟩
def EVR_EVENT_LOST : Field := ⟨0x3E00044, 0x0, 0, 1, .w1c, .C, zeroReset⟩
def EVR_STATUS_FLUSHING : Field := ⟨0x3E00060, 0x0, 31, 1, .ro, .S, zeroReset⟩
def EVR_STATUS_RING_KIB : Field := ⟨0x3E00060, 0x0, 0, 13, .ro, .S, zeroReset⟩
def EVR_SEQ_SEQ : Field := ⟨0x3E00064, 0x0, 0, 32, .ro, .S, zeroReset⟩
def EVR_FLUSHED_SEQ : Field := ⟨0x3E00068, 0x0, 0, 32, .ro, .S, zeroReset⟩
def EVR_FSEQ_FSEQ : Field := ⟨0x3E00070, 0x0, 0, 64, .ro, .S, zeroReset⟩
def EVR_RECORDS : Field := ⟨0x3E00080, 0x0, 0, 32, .rc, .K, zeroReset⟩
def EVR_LOST : Field := ⟨0x3E00084, 0x0, 0, 32, .rc, .K, zeroReset⟩
def EVR_EXTENTS : Field := ⟨0x3E00088, 0x0, 0, 32, .rc, .K, zeroReset⟩
def EVR_PEER_EXTENTS : Field := ⟨0x3E0008C, 0x0, 0, 32, .rc, .K, zeroReset⟩
def EVR_SPILLED : Field := ⟨0x3E00090, 0x0, 0, 32, .rc, .K, zeroReset⟩
def EVR_CUR_SEQ : Field := ⟨0x3E00200, 0x0, 0, 32, .rw, .C, zeroReset⟩
def EVR_PAGE_COUNT : Field := ⟨0x3E00204, 0x0, 24, 8, .ro, .S, zeroReset⟩
def EVR_PAGE_LEN : Field := ⟨0x3E00204, 0x0, 0, 13, .ro, .S, zeroReset⟩
def EVR_SKIP_COUNT : Field := ⟨0x3E00208, 0x0, 0, 32, .ro, .S, zeroReset⟩
def EVR_POST_SEVERITY : Field := ⟨0x3E00800, 0x0, 24, 2, .wo, .C, zeroReset⟩
def EVR_POST_TYPE : Field := ⟨0x3E00800, 0x0, 16, 8, .wo, .C, zeroReset⟩
def EVR_POST_LEN : Field := ⟨0x3E00800, 0x0, 0, 16, .wo, .C, zeroReset⟩
def EVR_POST_GO : Field := ⟨0x3E00800, 0x0, 32, 1, .wo, .C, zeroReset⟩
def EVR_POST_BODY : Field := ⟨0x3E00808, 0x4, 0, 32, .wo, .C, zeroReset⟩
def EVR_WINDOW_DATA : Field := ⟨0x3E01000, 0x4, 0, 32, .ro, .S, zeroReset⟩

/-- The registers of block EVR (R419). -/
def evrRegisters : List Register := [
  ⟨"EVR_CMD", 0x3E00000, 1, 0x0, 4, [EVR_CMD_OP]⟩,
  ⟨"EVR_CFG", 0x3E00004, 1, 0x0, 4, [EVR_CFG_FLUSH_MARK, EVR_CFG_SPILL_MARK, EVR_CFG_LEVEL]⟩,
  ⟨"EVR_IRQ_EN", 0x3E00040, 1, 0x0, 4, [EVR_IRQ_EN_EN]⟩,
  ⟨"EVR_EVENT", 0x3E00044, 1, 0x0, 4, [EVR_EVENT_FLUSH_FAIL, EVR_EVENT_FLUSHED, EVR_EVENT_SEVERE, EVR_EVENT_LOST]⟩,
  ⟨"EVR_STATUS", 0x3E00060, 1, 0x0, 4, [EVR_STATUS_FLUSHING, EVR_STATUS_RING_KIB]⟩,
  ⟨"EVR_SEQ", 0x3E00064, 1, 0x0, 4, [EVR_SEQ_SEQ]⟩,
  ⟨"EVR_FLUSHED", 0x3E00068, 1, 0x0, 4, [EVR_FLUSHED_SEQ]⟩,
  ⟨"EVR_FSEQ", 0x3E00070, 1, 0x0, 8, [EVR_FSEQ_FSEQ]⟩,
  ⟨"EVR_RECORDS", 0x3E00080, 1, 0x0, 4, [EVR_RECORDS]⟩,
  ⟨"EVR_LOST", 0x3E00084, 1, 0x0, 4, [EVR_LOST]⟩,
  ⟨"EVR_EXTENTS", 0x3E00088, 1, 0x0, 4, [EVR_EXTENTS]⟩,
  ⟨"EVR_PEER_EXTENTS", 0x3E0008C, 1, 0x0, 4, [EVR_PEER_EXTENTS]⟩,
  ⟨"EVR_SPILLED", 0x3E00090, 1, 0x0, 4, [EVR_SPILLED]⟩,
  ⟨"EVR_CUR", 0x3E00200, 1, 0x0, 4, [EVR_CUR_SEQ]⟩,
  ⟨"EVR_PAGE", 0x3E00204, 1, 0x0, 4, [EVR_PAGE_COUNT, EVR_PAGE_LEN]⟩,
  ⟨"EVR_SKIP", 0x3E00208, 1, 0x0, 4, [EVR_SKIP_COUNT]⟩,
  ⟨"EVR_POST", 0x3E00800, 1, 0x0, 8, [EVR_POST_SEVERITY, EVR_POST_TYPE, EVR_POST_LEN, EVR_POST_GO]⟩,
  ⟨"EVR_POST_BODY", 0x3E00808, 256, 0x4, 4, [EVR_POST_BODY]⟩,
  ⟨"EVR_WINDOW", 0x3E01000, 1024, 0x4, 4, [EVR_WINDOW_DATA]⟩]

/-! ### PMC -/

def PMC_CMD_OP : Field := ⟨0x3F00000, 0x0, 0, 4, .wo, .C, zeroReset⟩
def PMC_PERM_TD_USER : Field := ⟨0x3F00004, 0x0, 1, 1, .rw, .L, zeroReset⟩
def PMC_PERM_TD_HOST : Field := ⟨0x3F00004, 0x0, 0, 1, .rw, .L, zeroReset⟩
def PMC_MIRROR_VALID : Field := ⟨0x3F00008, 0x0, 31, 1, .rw, .L, zeroReset⟩
def PMC_MIRROR_SLOT : Field := ⟨0x3F00008, 0x0, 24, 6, .rw, .L, fun _ => 32⟩
def PMC_MIRROR_OFFSET : Field := ⟨0x3F00008, 0x0, 0, 16, .rw, .L, zeroReset⟩
def PMC_RING_HEAD_EPOCH : Field := ⟨0x3F00010, 0x0, 0, 64, .ro, .S, zeroReset⟩
def PMC_IRQ_EN_EN : Field := ⟨0x3F00040, 0x0, 0, 3, .rw, .L, zeroReset⟩
def PMC_EVENT_CLEARED : Field := ⟨0x3F00044, 0x0, 2, 1, .w1c, .C, zeroReset⟩
def PMC_EVENT_MIRROR_SKIP : Field := ⟨0x3F00044, 0x0, 1, 1, .w1c, .C, zeroReset⟩
def PMC_EVENT_SNAP_LOST : Field := ⟨0x3F00044, 0x0, 0, 1, .w1c, .C, zeroReset⟩
def PMC_SNAPSHOTS : Field := ⟨0x3F00080, 0x0, 0, 32, .rc, .K, zeroReset⟩
def PMC_MIRRORS : Field := ⟨0x3F00084, 0x0, 0, 32, .rc, .K, zeroReset⟩
def PMC_SKIPS : Field := ⟨0x3F00088, 0x0, 0, 32, .rc, .K, zeroReset⟩
def PMC_TD_SLOTS : Field := ⟨0x3F00100, 0x8, 0, 48, .ro, .K, zeroReset⟩
def PMC_CTR_UREAD : Field := ⟨0x3F01000, 0x20, 31, 1, .rw, .L, zeroReset⟩
def PMC_CTR_HREAD : Field := ⟨0x3F01000, 0x20, 30, 1, .rw, .L, zeroReset⟩
def PMC_CTR_HOWN : Field := ⟨0x3F01000, 0x20, 29, 1, .rw, .L, zeroReset⟩
def PMC_CTR_PRIV : Field := ⟨0x3F01000, 0x20, 27, 2, .rw, .L, zeroReset⟩
def PMC_CTR_AMODE : Field := ⟨0x3F01000, 0x20, 25, 2, .rw, .L, zeroReset⟩
def PMC_CTR_CLASS : Field := ⟨0x3F01000, 0x20, 16, 8, .rw, .L, fun _ => 255⟩
def PMC_CTR_INST : Field := ⟨0x3F01000, 0x20, 8, 7, .rw, .L, fun _ => 127⟩
def PMC_CTR_EVENT : Field := ⟨0x3F01000, 0x20, 0, 8, .rw, .L, fun _ => 255⟩
def PMC_CTR_MASK : Field := ⟨0x3F01000, 0x20, 48, 16, .rw, .L, zeroReset⟩
def PMC_CTR_MATCH : Field := ⟨0x3F01000, 0x20, 32, 16, .rw, .L, zeroReset⟩
def PMC_CTR_LO_L : Field := ⟨0x3F01000, 0x20, 64, 32, .rw, .L, zeroReset⟩
def PMC_CTR_VOLUME : Field := ⟨0x3F01000, 0x20, 112, 14, .rw, .L, zeroReset⟩
def PMC_CTR_LO_H : Field := ⟨0x3F01000, 0x20, 96, 16, .rw, .L, zeroReset⟩
def PMC_CTR_HI_L : Field := ⟨0x3F01000, 0x20, 128, 32, .rw, .L, zeroReset⟩
def PMC_CTR_HI_H : Field := ⟨0x3F01000, 0x20, 160, 16, .rw, .L, zeroReset⟩
def PMC_CTR_VALUE : Field := ⟨0x3F01000, 0x20, 192, 64, .ro, .K, zeroReset⟩

/-- The registers of block PMC (R420). -/
def pmcRegisters : List Register := [
  ⟨"PMC_CMD", 0x3F00000, 1, 0x0, 4, [PMC_CMD_OP]⟩,
  ⟨"PMC_PERM", 0x3F00004, 1, 0x0, 4, [PMC_PERM_TD_USER, PMC_PERM_TD_HOST]⟩,
  ⟨"PMC_MIRROR", 0x3F00008, 1, 0x0, 4, [PMC_MIRROR_VALID, PMC_MIRROR_SLOT, PMC_MIRROR_OFFSET]⟩,
  ⟨"PMC_RING_HEAD", 0x3F00010, 1, 0x0, 8, [PMC_RING_HEAD_EPOCH]⟩,
  ⟨"PMC_IRQ_EN", 0x3F00040, 1, 0x0, 4, [PMC_IRQ_EN_EN]⟩,
  ⟨"PMC_EVENT", 0x3F00044, 1, 0x0, 4, [PMC_EVENT_CLEARED, PMC_EVENT_MIRROR_SKIP, PMC_EVENT_SNAP_LOST]⟩,
  ⟨"PMC_SNAPSHOTS", 0x3F00080, 1, 0x0, 4, [PMC_SNAPSHOTS]⟩,
  ⟨"PMC_MIRRORS", 0x3F00084, 1, 0x0, 4, [PMC_MIRRORS]⟩,
  ⟨"PMC_SKIPS", 0x3F00088, 1, 0x0, 4, [PMC_SKIPS]⟩,
  ⟨"PMC_TD", 0x3F00100, 5, 0x8, 8, [PMC_TD_SLOTS]⟩,
  ⟨"PMC_CTR", 0x3F01000, 176, 0x20, 32, [PMC_CTR_UREAD, PMC_CTR_HREAD, PMC_CTR_HOWN, PMC_CTR_PRIV, PMC_CTR_AMODE, PMC_CTR_CLASS, PMC_CTR_INST, PMC_CTR_EVENT, PMC_CTR_MASK, PMC_CTR_MATCH, PMC_CTR_LO_L, PMC_CTR_VOLUME, PMC_CTR_LO_H, PMC_CTR_HI_L, PMC_CTR_HI_H, PMC_CTR_VALUE]⟩]

/-! ### TOP -/

def TOP_RESET_KEY : Field := ⟨0x0, 0x0, 16, 16, .wo, .C, zeroReset⟩
def TOP_RESET_OP : Field := ⟨0x0, 0x0, 0, 2, .wo, .C, zeroReset⟩
def TOP_BLKRST_BLOCK : Field := ⟨0x4, 0x0, 0, 5, .wo, .C, zeroReset⟩
def TOP_IRQ_EN_EN : Field := ⟨0x40, 0x0, 0, 3, .rw, .L, zeroReset⟩
def TOP_EVENT_RESET_REFUSED : Field := ⟨0x44, 0x0, 2, 1, .w1c, .C, zeroReset⟩
def TOP_EVENT_BLKRST_REFUSED : Field := ⟨0x44, 0x0, 1, 1, .w1c, .C, zeroReset⟩
def TOP_EVENT_BLKRST_DONE : Field := ⟨0x44, 0x0, 0, 1, .w1c, .C, zeroReset⟩
def TOP_STATUS_BUSY : Field := ⟨0x60, 0x0, 31, 1, .ro, .S, zeroReset⟩
def TOP_STATUS_BLOCK : Field := ⟨0x60, 0x0, 0, 5, .ro, .S, zeroReset⟩
def TOP_RSTCAUSE_UNIT : Field := ⟨0x64, 0x0, 9, 1, .ro, .S, fun _ => 0⟩
def TOP_RSTCAUSE_PRESERVED : Field := ⟨0x64, 0x0, 8, 1, .ro, .S, zeroReset⟩
def TOP_RSTCAUSE_SOURCE : Field := ⟨0x64, 0x0, 3, 2, .ro, .S, zeroReset⟩
def TOP_RSTCAUSE_SCOPE : Field := ⟨0x64, 0x0, 0, 3, .ro, .S, zeroReset⟩
def TOP_ID_PART : Field := ⟨0x100, 0x0, 16, 16, .ro, .S, fun _ => 18582⟩
def TOP_ID_STEPPING : Field := ⟨0x100, 0x0, 8, 8, .ro, .S, fun _ => 176⟩
def TOP_ID_ORDER : Field := ⟨0x100, 0x0, 0, 1, .ro, .S, fun _ => 0⟩
def TOP_SERIAL_SERIAL : Field := ⟨0x104, 0x0, 0, 64, .ro, .S, fun _ => 0⟩
def TOP_TEMP_TEMP : Field := ⟨0x110, 0x4, 0, 16, .ro, .S, zeroReset⟩
def TOP_THERM_WARN : Field := ⟨0x130, 0x0, 0, 8, .rw, .L, fun _ => 105⟩
def TOP_CLKSTAT_HOLD : Field := ⟨0x134, 0x0, 8, 1, .ro, .S, zeroReset⟩
def TOP_CLKSTAT_PRESENT : Field := ⟨0x134, 0x0, 0, 5, .ro, .S, zeroReset⟩
def TOP_HW_IRQ_EN_EN : Field := ⟨0x140, 0x0, 0, 3, .rw, .L, zeroReset⟩
def TOP_HW_EVENT_HBM_HOT : Field := ⟨0x144, 0x0, 2, 1, .w1c, .C, zeroReset⟩
def TOP_HW_EVENT_CLK_LOSS : Field := ⟨0x144, 0x0, 1, 1, .w1c, .C, zeroReset⟩
def TOP_HW_EVENT_THERM_WARN : Field := ⟨0x144, 0x0, 0, 1, .w1c, .C, zeroReset⟩

/-- The registers of block TOP (R433, R450). -/
def topRegisters : List Register := [
  ⟨"TOP_RESET", 0x0, 1, 0x0, 4, [TOP_RESET_KEY, TOP_RESET_OP]⟩,
  ⟨"TOP_BLKRST", 0x4, 1, 0x0, 4, [TOP_BLKRST_BLOCK]⟩,
  ⟨"TOP_IRQ_EN", 0x40, 1, 0x0, 4, [TOP_IRQ_EN_EN]⟩,
  ⟨"TOP_EVENT", 0x44, 1, 0x0, 4, [TOP_EVENT_RESET_REFUSED, TOP_EVENT_BLKRST_REFUSED, TOP_EVENT_BLKRST_DONE]⟩,
  ⟨"TOP_STATUS", 0x60, 1, 0x0, 4, [TOP_STATUS_BUSY, TOP_STATUS_BLOCK]⟩,
  ⟨"TOP_RSTCAUSE", 0x64, 1, 0x0, 4, [TOP_RSTCAUSE_UNIT, TOP_RSTCAUSE_PRESERVED, TOP_RSTCAUSE_SOURCE, TOP_RSTCAUSE_SCOPE]⟩,
  ⟨"TOP_ID", 0x100, 1, 0x0, 4, [TOP_ID_PART, TOP_ID_STEPPING, TOP_ID_ORDER]⟩,
  ⟨"TOP_SERIAL", 0x104, 1, 0x0, 8, [TOP_SERIAL_SERIAL]⟩,
  ⟨"TOP_TEMP", 0x110, 8, 0x4, 4, [TOP_TEMP_TEMP]⟩,
  ⟨"TOP_THERM", 0x130, 1, 0x0, 4, [TOP_THERM_WARN]⟩,
  ⟨"TOP_CLKSTAT", 0x134, 1, 0x0, 4, [TOP_CLKSTAT_HOLD, TOP_CLKSTAT_PRESENT]⟩,
  ⟨"TOP_HW_IRQ_EN", 0x140, 1, 0x0, 4, [TOP_HW_IRQ_EN_EN]⟩,
  ⟨"TOP_HW_EVENT", 0x144, 1, 0x0, 4, [TOP_HW_EVENT_HBM_HOT, TOP_HW_EVENT_CLK_LOSS, TOP_HW_EVENT_THERM_WARN]⟩]

/-- The registers of block number `b` (R55). -/
def blockRegisters (b : Nat) : List Register :=
  [topRegisters, rtuRegisters, cfgRegisters, nltRegisters, ctxRegisters, cmdRegisters, bncRegisters, cabRegisters, schRegisters, cphRegisters, parRegisters, ldgRegisters, drvRegisters, sbdRegisters, arbRegisters, lckRegisters, hngRegisters, slpRegisters, mepRegisters, fwuRegisters, evrRegisters, pmcRegisters].getD b []

end Sys2Proof.Reg
end

