-- ==== Sys2Proof/Machine/UnitsBench.lean ====
section
/-! DEFINITION. Plain-data state of the command dispatcher, the overlap tracker, the reservations, the Benches and the
Bureau's threads. -/

namespace Sys2Proof.Machine

/-- An accelerator request as issued (R187, R188), with what it still waits for. -/
inductive Req
  | cells (n : Nat)
  | release (handle : Nat)
  | xrdy (group goff coff len : Nat) (grant : Option Nat)
  | data (group goff coff len : Nat) (sent : Nat) (fail : Option Nat)
  | cmpl
  | ctrl (conn code : Nat)
  | mgmt (conn code : Nat)
  | cipher (enc : Bool) (slot group goff nblk lba : Nat) (todo : List Nat) (fail : Bool)
  | parity (mode n j missB src soff dst doff len count : Nat)
  | ledger (vol slba nblk : Nat)
  | drive (op fua raw vol group goff slba nblk pgroup pgoff : Nat)
  | track
  | clear
  | draw
  | mark
  | rcheck
  | filled (group goff len : Nat)
  deriving DecidableEq, Repr

/-- A ticket of a command or of a Bureau thread (R158, R184): its request, whether it is detached, whether its engine
has taken it up, the result the engine has for it, the result once it is done, and its place in the order of issue. -/
structure Ticket where
  req : Req := .mark
  detached : Bool := false
  started : Bool := false
  ready : Option DWord := none
  done : Option DWord := none
  order : Nat := 0
  deriving DecidableEq, Repr

/-- A completion (R122, R123): status, DETAIL, results, release class, and whether it carries FINAL. -/
structure Completion where
  status : Nat := 0
  detail : Nat := 0
  result0 : Nat := 0
  result1 : Nat := 0
  isSealed : Bool := false
  released : Bool := false
  releasedEpoch : Nat := 0
  reltime : Nat := 0
  queued : Bool := false
  sent : Bool := false
  deriving DecidableEq, Repr

/-- A tracker entry (R137, R138): volume, range, kind, the order it was taken in, CLEAR asked, clear point reached,
whether it had to wait, and whether a TRACK request has asked for it. -/
structure TrackEntry where
  vol : Nat := 0
  slba : Nat := 0
  nblk : Nat := 0
  isWrite : Bool := false
  order : Nat := 0
  clearAsked : Bool := false
  clear : Bool := false
  asked : Bool := false
  deriving DecidableEq, Repr

/-- Where a command stands: held by a FENCE, waiting in the dispatch queue, on a thread, parked on a set of tickets,
run by the dispatcher itself, or at its end (its handler has ended, or it was withdrawn). -/
inductive CmdPhase
  | fenced | queued | running (thread : Nat) | parked (mask : Nat) | direct | ended | withdrawn
  deriving DecidableEq, Repr

/-- What a command has done that its completion rests on (R16, R142, R151, R169): records by RSEQ, drive operations
in flight and submitted, DATA sent and unfinished, a status from a NAK or a grant timeout, a drawn reservation (its
RSVID). -/
structure CmdWork where
  records : List Nat := []
  ledgered : List (Nat × Nat × Nat) := []
  driveOps : Nat := 0
  driveSubmitted : Bool := false
  wroteDrive : Bool := false
  dataBytes : Nat := 0
  nak : Option Nat := none
  nakDetail : Nat := 0
  nakResult : Nat := 0
  rsv : Option Nat := none
  drawn : Nat := 0
  deadline : Nat := 0
  stateEpoch : Option Nat := none
  cipherFail : Bool := false
  lateDrawn : Bool := false
  deriving DecidableEq, Repr

/-- A host command in flight and its frame (R120, R157). -/
structure Cmd where
  conn : Nat := 0
  msgid : Nat := 0
  csn : Nat := 0
  sub : Nat := 0
  opcode : Nat := 0
  capsule : List Byte := []
  colour : Nat := 0
  order : Nat := 0
  phase : CmdPhase := .queued
  slot : Nat := 0
  entry : Nat := 0
  gen : Nat := 0
  saved : List DWord := []
  resumePc : Nat := 0
  tickets : SMap Ticket := []
  dispatched : Nat := 0
  dispatchCycle : Nat := 0
  issued : Nat := 0
  marked : Bool := false
  track : Option TrackEntry := none
  work : CmdWork := {}
  comp : Option Completion := none
  waitRevoke : Option Nat := none
  acc : Option Nat := none
  deriving DecidableEq, Repr

/-- A capsule delivered by the transport and not yet taken up by its opcode's row (R71), and the account of its cell (R207). -/
structure Delivered where
  conn : Nat := 0
  msgid : Nat := 0
  csn : Nat := 0
  colour : Nat := 0
  capsule : List Byte := []
  acc : Option Nat := none
  deriving DecidableEq, Repr

/-- A cycle reservation (R148 to R153). -/
structure Reservation where
  id : Nat := 0
  sub : Nat := 0
  vol : Nat := 0
  isRead : Bool := false
  deadline : Nat := 0
  start : Nat := 0
  cycles : Nat := 0
  bytes : Nat := 0
  balance : Nat := 0
  misses : Nat := 0
  ended : Bool := false
  inPlan : Bool := true
  used : Nat := 0
  deriving DecidableEq, Repr

/-- One reservation miss of the log LID 0x02 (R126). -/
structure Miss where
  rsvid : Nat := 0
  msgid : Nat := 0
  detail : Nat := 0
  dispatched : Nat := 0
  reltime : Nat := 0
  sub : Nat := 0
  deriving DecidableEq, Repr

/-- The dispatcher (R71, R130, R137, R148): capsules delivered, commands by frame, reservations by index and the
indexes' reuse counts, the last 1,024 misses of each subscriber and how many fell out, and the order counter. -/
structure CmdUnit where
  inbox : List Delivered := []
  frames : SMap Cmd := []
  rsv : SMap Reservation := []
  rsvReuse : SMap Nat := []
  misses : List Miss := []
  missLost : SMap Nat := []
  order : Nat := 0
  deriving DecidableEq, Repr

/-- The dispatcher's state. -/
abbrev CmdState := CmdUnit

/-- A hardware thread of a Bench (0 to 511) or of the Bureau (512 and above) (R174, R192): its command, registers,
PC, local store (what is listed; the rest is 0, or after a resume free values counted from `scratch`), the ticket it waits
on and where the result goes, whether it is halted in WFI, and the ranges of its LEDGER requests that have completed. -/
structure Thread where
  frame : Option Nat := none
  g : SMap DWord := []
  pc : Nat := 0
  store : SMap Byte := []
  scratch : Option Nat := none
  waiting : Option (Nat × Nat) := none
  wfi : Bool := false
  tickets : SMap Ticket := []
  csr : SMap DWord := []
  ledgered : List (Nat × Nat × Nat) := []
  deriving DecidableEq, Repr

/-- A handler image in a slot (R171, R172): kind, entry table (offset, MARKS), code words, data area. -/
structure Image where
  user : Bool := false
  entries : List (Nat × Bool) := []
  code : List (BitVec 32) := []
  dataBase : Nat := 0
  dataLen : Nat := 0
  version : Nat := 0
  deriving DecidableEq, Repr

/-- The Benches (R155 to R173): threads, images by slot, and the load in progress (its slot and image address). -/
structure Bnc where
  threads : SMap Thread := []
  images : SMap Image := []
  loading : Option (Nat × Nat) := none
  deriving DecidableEq, Repr

end Sys2Proof.Machine
end

