-- ==== Sys2Proof/Machine/UnitsNet.lean ====
section
/-! DEFINITION. Plain-data state of the transport, the connection contexts, the regions, the grants and the scheduler. -/

namespace Sys2Proof.Machine

/-- The packet types of R66. -/
inductive PktType
  | cmd | xrdy | data | cmpl | ack | nak | flush | flushed | ctrl | mgmt | probe
  deriving DecidableEq, Repr

/-- A packet of the device on its way out (R66): what its header and payload will be, the context it is sent on (none
for the setup exchanges on connection ID 0), its port, its colour, the command and ticket it belongs to, and for DATA
the cells its payload is taken from, the region it goes to, and whether it is the last of its message. `cell` is the
account of a capsule's cell that is given back as a completion without a frame leaves, and `names` the MSGID that the
ABORT of such a completion names (R147); `asked` is the arrival that a packet outside a connection answers. A packet sent again carries its PSN and entropy value, and `retx`. -/
structure OutPkt where
  typ : PktType := .ack
  pkt : Packet := {}
  ci : Option Nat := none
  port : Nat := 0
  colour : Nat := 0
  owner : Option Nat := none
  ticket : Option Nat := none
  group : Option Nat := none
  goff : Nat := 0
  region : Option Nat := none
  last : Bool := false
  retx : Bool := false
  ce : Bool := false
  asked : Option RxMeta := none
  cell : Option Nat := none
  names : Option Nat := none
  deriving DecidableEq, Repr

/-- A frame as it left its port (R58 to R62): the packet, the IP version and addresses, the MAC address it goes to, its 802.1Q
tag where it has one, the UDP ports, ECN, and Don't Fragment. The UDP checksum is 0 in every frame. -/
structure NetFrame where
  out : OutPkt := {}
  v6 : Bool := false
  src : Nat := 0
  dst : Nat := 0
  dmac : Nat := 0
  tagged : Bool := false
  vid : Nat := 0
  pcp : Nat := 0
  sport : Nat := 0
  dport : Nat := 0
  ecn : Nat := 0
  df : Bool := false
  deriving DecidableEq, Repr

/-- An unacknowledged packet kept for retransmission (R85 to R87): the epoch of its last transmission, how often it was
sent, the entropy value it used last, whether it was sent again fast, and whether it waits in its queue to be sent
again. -/
structure Retained where
  out : OutPkt := {}
  stamp : Nat := 0
  sends : Nat := 1
  lastEnt : Nat := 0
  fast : Bool := false
  due : Bool := false
  deriving DecidableEq, Repr

/-- What the device keeps of what it sends on a connection (R69 to R73, R80, R85, R91, R109): pacing tokens are in
1/8,000 byte, filled up to `tokAt` ns. -/
structure ConnTx where
  next : Nat := 0
  una : Nat := 0
  ackBase : Nat := 0
  csn : Nat := 0
  wrap : Nat := 0
  unseq : Nat := 0
  rate : Nat := 0
  ceSeen : Nat := 0
  ceLatest : Nat := 0
  retired : Nat := 0
  rr : Nat := 0
  rtt : Nat := 0
  tokens : Nat := 0
  tokAt : Nat := 0
  timeout : Bool := false
  retained : List Retained := []
  deriving DecidableEq, Repr

/-- A sequenced packet that waits for its turn (R71): its type, its frame, its content, and its colour. -/
structure HeldPkt where
  typ : PktType := .cmd
  rx : RxMeta := {}
  pkt : Packet := {}
  colour : Nat := 0
  deriving DecidableEq, Repr

/-- What the device keeps of what it receives on a connection (R70, R71, R81, R82, R88, R109): the window's base and
bitmap, the CSN to deliver next, the sequenced packets held ahead of it (none for a CSN passed over), the counts, the
arrivals not yet acknowledged, and the FLUSHes owed an answer (PSN, packet). -/
structure ConnRx where
  base : Nat := 0
  csn : Nat := 0
  wrap : Nat := 0
  unseq : Nat := 0
  ce : Nat := 0
  pkts : Nat := 0
  bitmap : Nat := 0
  held : SMap (Option HeldPkt) := []
  sinceAck : Nat := 0
  oldest : Option Nat := none
  lastAck : Option Nat := none
  ceAcked : Nat := 0
  ackEnt : Nat := 0
  flushes : List (Nat × Packet) := []
  deriving DecidableEq, Repr

/-- Where a connection's context stands with the cache (R110 to R113). -/
inductive CacheState
  | home | fetching | cached | writing
  deriving DecidableEq, Repr

/-- A connection (R95, R99 to R109). After the context's fields: its two directions; its place in the cache, whether it
changed and when it was last used; the working cycle in which its state began, of its last received packet and of its
last keepalive; the CSN of the host's delivered CLOSE; whether CLOSE was sent; the PSN of the CLOSED sent; the answer to
its CONNECT_REQ; and whether PARAMS is due. -/
structure Conn where
  id : Nat := 0
  state : Nat := 0
  gcm : Bool := false
  data8k : Bool := false
  v6 : Bool := false
  pin : Bool := false
  sub : Nat := 0
  e : Nat := 1
  lport : Nat := 0
  peerUdp : Nat := 0
  vid : Nat := 0
  pcp : Nat := 0
  tagged : Bool := false
  keyslot : Nat := 0
  peerIp : Nat := 0
  nexthop : Nat := 0
  hostNonce : List Byte := []
  devNonce : List Byte := []
  opened : Nat := 0
  inflight : Nat := 0
  tx : ConnTx := {}
  rx : ConnRx := {}
  cache : CacheState := .cached
  dirty : Bool := false
  lru : Nat := 0
  sinceCycle : Nat := 0
  lastRxCycle : Nat := 0
  lastRxEpoch : Nat := 0
  keepCycle : Nat := 0
  closeCsn : Option Nat := none
  closeSent : Bool := false
  closedPsn : Option Nat := none
  acc : List Byte := []
  paramsDue : Bool := false
  deriving DecidableEq, Repr

/-- A host region (R96, R114): generation, state (0 FREE, 1 VALID, 2 REVOKING), owner, scope, length, right, packets in
flight, and the frames of the revokes that wait for it. -/
structure Region where
  gen : Nat := 1
  state : Nat := 0
  sub : Nat := 0
  conn : Nat := 0
  connScope : Bool := false
  len : Nat := 0
  place : Bool := false
  inflight : Nat := 0
  deriving DecidableEq, Repr

/-- A packet waiting in a miss park (R112). -/
structure Parked where
  rx : RxMeta := {}
  typ : PktType := .cmd
  pkt : Packet := {}
  ci : Nat := 0
  deriving DecidableEq, Repr

/-- A write grant (R96, R133, R134): its reuse count, whether it is open, its command, connection and MSGID, its command
offset and length, the command's whole data length, the cells behind it, the 4 KiB blocks received, and the working cycle
of its last DATA, and its place in the order in which grants opened. -/
structure Grant where
  reuse : Nat := 0
  isOpen : Bool := false
  owner : Nat := 0
  conn : Nat := 0
  msgid : Nat := 0
  coff : Nat := 0
  len : Nat := 0
  total : Nat := 0
  group : Nat := 0
  goff : Nat := 0
  got : List Nat := []
  lastCycle : Nat := 0
  order : Nat := 0
  deriving DecidableEq, Repr

/-- A CONNECT_REQ that was accepted (R102): its subscriber and nonce, the answer, and the working cycle. -/
structure Accepted where
  sub : Nat := 0
  nonce : List Byte := []
  body : List Byte := []
  cycle : Nat := 0
  deriving DecidableEq, Repr

/-- Contexts, regions and grants (R95, R96, R109 to R116): connections by context index, the reuse counts of the
indexes, regions and grants by index, a clock for the cache's least recently used order, and the requests accepted lately. -/
structure Ctx where
  conns : SMap Conn := []
  reuse : SMap Nat := []
  regions : SMap Region := []
  grants : SMap Grant := []
  clock : Nat := 0
  accepted : List Accepted := []
  deriving DecidableEq, Repr

/-- The transport (R58 to R92, R112, R214): parks by 800G port, packets waiting to be sent in their order, the last
frame each port sent, when each port last sent NAK 0x07 (ns), the ports whose flush runs, and the address answers each
port sent last. -/
structure Nlt where
  parks : SMap (List Parked) := []
  txq : List OutPkt := []
  wire : SMap NetFrame := []
  nak7At : SMap Nat := []
  flushing : List Nat := []
  arpOut : SMap (Nat × Bool) := []
  deriving DecidableEq, Repr

/-- A subscriber's policer buckets in 1/8,000 byte (R219): committed and peak. A policer that is not listed is full. -/
structure Policer where
  tc : Nat := 0
  tp : Nat := 0
  deriving DecidableEq, Repr

/-- A node's place in a round (R223): its number, its deficit, and whether it has had its quantum on this turn. -/
structure DwrrNode where
  node : Nat := 0
  deficit : Nat := 0
  begun : Bool := false
  deriving DecidableEq, Repr

/-- The scheduler (R217 to R229): policers by subscriber; shaper tokens by port, by 8 × port + service and by
subscriber; the rounds of services by port and of subscribers by 8 × port + service; the last connection served by node
and the last disabled service served by port; and the gate list in force by port. -/
structure Sch where
  policer : SMap Policer := []
  portTok : SMap Int := []
  svcTok : SMap Int := []
  subTok : SMap Int := []
  svcRound : SMap (List DwrrNode) := []
  subRound : SMap (List DwrrNode) := []
  connTurn : SMap Nat := []
  idleTurn : SMap Nat := []
  gates : SMap (List (Nat × Nat)) := []
  deriving DecidableEq, Repr

end Sys2Proof.Machine
end

