-- ==== Sys2Proof/Machine/UnitsCipher.lean ====
section
/-! DEFINITION. Plain-data state of the cipher engine (R231 to R247). -/

namespace Sys2Proof.Machine

/-- A key slot (R233): its kind (1 XTS, 2 GCM, 3 SETUP, 4 KEK) and its 64 bytes of material; an EMPTY slot is not
listed. -/
structure KeySlot where
  kind : Nat := 0
  key : List Byte := []
  deriving DecidableEq, Repr

/-- A key operation that runs (R235): its operation, kind, slot, the result its checks gave, and the material it will
load or export. -/
structure KeyJob where
  op : Nat := 0
  kind : Nat := 0
  slot : Nat := 0
  result : Nat := 0
  key : List Byte := []
  deriving DecidableEq, Repr

/-- What the checks before the tag found of a received packet (R78, R79): the reason of a NAK that waits for the tag,
whether it was marked on admission, its colour, and whether its tag is in use with another incarnation (R90). -/
structure RxInfo where
  nak : Option Nat := none
  mark : Bool := false
  colour : Nat := 0
  stale : Bool := false
  deriving DecidableEq, Repr

/-- A work item (R237): one cell of a CIPHER request (owner, ticket, operation, slot, data unit, cell of the unit, where
it lies, and whether the unit is zero ciphertext), or one GCM packet received or to be sent, the latter
with the frame it will leave in and its wrap count. -/
inductive CphItem
  | xts (owner ticket : Nat) (enc : Bool) (slot unit cell group goff : Nat) (zero : Bool)
  | gcmRx (typ : PktType) (m : RxMeta) (k : Packet) (slot : Nat) (info : RxInfo)
  | gcmTx (f : NetFrame) (wrap slot : Nat)
  deriving DecidableEq, Repr

/-- An item on a pair (R242, R244): the item, and the dummy rounds that were drawn for it. -/
structure PairItem where
  item : CphItem
  dummies : Nat := 0
  deriving DecidableEq, Repr

/-- The DRBG (R245): generate requests since its last seed, whether a reseed is owed because the source has passed its
start-up tests again, and how often it has been seeded again. -/
structure Drbg where
  requests : Nat := 0
  owed : Bool := false
  reseeds : Nat := 0
  deriving DecidableEq, Repr

/-- The engine beside its registers: the key slots, the operation that runs, the two queues in which items wait for a pair
(network GCM items, XTS items), the pairs' queues (head first), the four key schedules each pair holds (most recently used
first), and the DRBG. -/
structure Cph where
  slots : SMap KeySlot := []
  job : Option KeyJob := none
  net : List CphItem := []
  xts : List CphItem := []
  queues : SMap (List PairItem) := []
  sched : SMap (List Nat) := []
  drbg : Drbg := {}
  deriving DecidableEq, Repr

end Sys2Proof.Machine
end

