-- ==== Sys2Proof/Machine/UnitsCore.lean ====
section
/-! DEFINITION. Plain-data state of the reference-time unit, the configuration generations, the event recorder, the
counters, the management endpoint and the reset logic: what the spec gives them beside their registers. -/

namespace Sys2Proof.Machine

/-- The register file (R7, R41, R43): live values of classes I, S, C and K, the pending, current and previous
copies of class L, each keyed by a field's bit address and holding what differs from reset; `latch` holds the
high words latched by low-word reads, keyed by path and address (R38). -/
structure RegFile where
  live : SMap Nat := []
  pend : SMap Nat := []
  cur : SMap Nat := []
  prev : SMap Nat := []
  latch : SMap Nat := []
  deriving DecidableEq, Repr

/-- The reference-time unit beside its registers (R28 to R35, R453): the counters, the line being run (start and
length in ns, fraction in 2^-8 ns), the last edges seen, the runs of qualified and missed edges, the expected edge
in 2^-16 ns, the phase error in sub-lines, whether this line's epoch boundary has run, the master that PTP has
selected, and the last stamp of every port, keyed by twice its number, plus 1 at egress (R25). -/
structure Rtu where
  cycle : Nat := 0
  line : Nat := 0
  heldSub : Nat := 0
  lineStart : Nat := 0
  lineTicks : Nat := 0
  frac : Nat := 0
  prevEdge : Option Int := none
  prevQual : Option Int := none
  missedSince : Bool := false
  qualRun : Nat := 0
  missRun : Nat := 0
  expected : Option Int := none
  phaseErr : Int := 0
  boundaryDone : Bool := false
  ptpMaster : Option Nat := none
  ptpStamps : SMap Nat := []
  deriving DecidableEq, Repr

/-- One entry of CFG_ERRLOG (R54). -/
structure ErrEntry where
  code : Nat := 0
  path : Nat := 0
  block : Nat := 0
  rule : Nat := 0
  unsync : Bool := false
  addr : Nat := 0
  time : Nat := 0
  deriving DecidableEq, Repr

/-- A slot of a drive's generation area as it was written (R51): its header, its body and its commit record. -/
structure GenMedia where
  header : List Byte := []
  body : List Byte := []
  record : List Byte := []
  deriving DecidableEq, Repr

/-- A generation being written to the ledger drives (R51): its number, sequence, slot and body, the drives written, and
those whose body and whose commit record are complete. -/
structure Persist where
  gen : Nat := 0
  seq : Nat := 0
  slot : Nat := 0
  body : List Byte := []
  drawers : List Nat := []
  bodyDone : List Nat := []
  recordDone : List Nat := []
  deriving DecidableEq, Repr

/-- Configuration generations beside CFG registers: the error log, the commit number being checked with the path it came by, the commit
sequence, the write in progress, the generations that wait for it (number and body), the rotation of the four slots, the
slots as this part wrote them (by four times the drive plus the slot), the restore, and the generation that a boundary
will restore (R51 to R54). -/
structure Cfg where
  errlog : List ErrEntry := []
  checking : Option Nat := none
  checkPath : Path := .bureau
  seq : Nat := 0
  persist : Option Persist := none
  queue : List (Nat × List Byte) := []
  slot : Nat := 0
  area : SMap GenMedia := []
  restored : Bool := false
  restoring : Bool := false
  restoreWait : Option GenSlot := none
  deriving DecidableEq, Repr

/-- One event record (R404). -/
structure Rec where
  seq : Nat := 0
  typ : Nat := 0
  sev : Nat := 0
  unsync : Bool := false
  source : Nat := 0
  time : Nat := 0
  body : List Byte := []
  deriving DecidableEq, Repr

/-- One path's reading cursor (R408): EVR_CUR, the page it built (bytes, count, last SEQ), EVR_SKIP. -/
structure Cursor where
  cur : Nat := 0
  page : Option (List Byte) := none
  count : Nat := 0
  lastSeq : Nat := 0
  skip : Nat := 0
  deriving DecidableEq, Repr

/-- One recorder extent (R410): its unit, cause, FSEQ and records; a peer's as the bytes it came in. -/
structure Extent where
  unit : Nat := 0
  cause : Nat := 0
  fseq : Nat := 0
  recs : List Rec := []
  raw : List Byte := []
  deriving DecidableEq, Repr

/-- What a drive's recorder area holds of use at the next start (R406, R410): the block and FSEQ of the next extent, the
head record as last written (FSEQ, block), and the highest SEQ of this part's own records in it. It outlasts every reset. -/
structure RecArea where
  block : Nat := 1081345
  fseq : Nat := 1
  head : Nat × Nat := (1, 1081345)
  topSeq : Option Nat := none
  deriving DecidableEq, Repr

/-- The event recorder (R406 to R411): the ring and the overflow area (oldest first), the run of losses not yet
reported, the flush in progress (cause, the ns it started in, the SEQs of its range that are in no extent yet), whether
another flush follows, each drive's extents (the first is being written), own extents sent to the peer, the FSEQ of the
next own extent, the SEQs held that have been flushed, extents kept for the peer, the recorder area of each drive, the
reading cursor of each path, and the cells in which extents are staged. -/
structure Evr where
  ring : List Rec := []
  overflow : List Rec := []
  lossFirst : Nat := 0
  lossCount : Nat := 0
  lossCause : Nat := 0
  flushing : Bool := false
  flushCause : Nat := 0
  flushNs : Nat := 0
  range : List Nat := []
  flushAgain : Option Nat := none
  queues : SMap (List Extent) := []
  toPeer : List Extent := []
  nextFseq : Nat := 1
  flushedRecs : List Nat := []
  peer : List Extent := []
  area : SMap RecArea := []
  cursors : List Cursor := [{}, {}, {}, {}]
  staged : Nat := 0
  deriving DecidableEq, Repr

/-- The counters beside their registers (R412 to R416): whether a clear waits for the next boundary. -/
structure Pmc where
  clearDue : Bool := false
  deriving DecidableEq, Repr

/-- A translation held in the ATS cache (R384): the host page and where it leads. -/
structure AtsEntry where
  page : Nat := 0
  target : Nat := 0
  deriving DecidableEq, Repr

/-- A DMA channel's copy in progress (R383): direction, addresses, length, and whether it uses ATS. -/
structure Dma where
  toHost : Bool := false
  host : Nat := 0
  sbd : Nat := 0
  len : Nat := 0
  ats : Bool := false
  deriving DecidableEq, Repr

/-- The management endpoint beside its registers (R377 to R387): PERST, power state, L1, disarmed vectors, the
last MSI-X message sent (vector, address, data), the vectors that became due since the last EVENT packet, the DMA
copies whose completions are outstanding by channel (an aborted one included), ATS and its cache, the least recently used
entry first, invalidations owed an answer (address, size, tag), the tags answered, an FLR under way,
and the bytes last written to host memory. -/
structure Mep where
  perst : Bool := true
  d3 : Bool := false
  disarmed : Nat := 0
  lastMsix : Option (Nat × Nat × Nat) := none
  due : Nat := 0
  dma : SMap Dma := []
  atsOn : Bool := false
  ats : List AtsEntry := []
  invals : List (Nat × Nat × Nat) := []
  invalDone : List Nat := []
  flr : Bool := false
  hostMem : List Byte := []
  revision : Nat := 0xB0
  classCode : Nat := 0x018000
  deriving DecidableEq, Repr

/-- Where the device stands in its reset (R422 to R426): held in a scope, or running. -/
inductive ResetPhase
  | run | powerOn | warm | shelfEntry | shelf | tripped
  deriving DecidableEq, Repr

/-- Reset, pins and the always-on domain (R2, R421 to R432, R444 to R447): where the reset stands, whether the start of R394
has run since the release, the UNIT_SEL pin, the blocks whose reset runs (oldest first), the PFW_N pin, the input clocks that are missing
(0 REF_CLK, 1 and 2 NETCLK, 3 DRV_REFCLK, 4 MEP_REFCLK), and THERMTRIP_N. -/
structure Top where
  phase : ResetPhase := .run
  booted : Bool := false
  unitSel : Nat := 0
  blkrst : List Nat := []
  pfw : Bool := false
  clocksLost : List Nat := []
  thermtrip : Bool := false
  deriving DecidableEq, Repr

/-- What the block answers on its ports: the words of each path's last read, the bytes of the last BAR2 read (none
for Completer Abort), the bytes of the last aperture read (none for Completer Abort), the result word of the last
lock access by each kind of owner, and the last PRP list page read. -/
structure Out where
  lastRead : SMap (List Nat) := []
  bar2 : Option (List Byte) := none
  aperture : Option (List Byte) := none
  lockResult : SMap Nat := []
  prpList : List Byte := []
  deriving DecidableEq, Repr

end Sys2Proof.Machine
end

