-- ==== Sys2Proof/Machine/UnitsDrive.lean ====
section
/-! DEFINITION. Plain-data state of the sets, the ledger and the drive ports. -/

namespace Sys2Proof.Machine

/-- What a member operation is for (R273, R299, R302, R348): reading, writing, flushing or deallocating for a DRIVE
request, or a contest acquire. -/
inductive OpKind
  | read | write | flush | dealloc | acquire
  deriving DecidableEq, Repr

/-- One member operation (R298): its kind, the DRIVE request it belongs to (owner, ticket) where there is one, its first
unit and its units, the cells it names, FUA, the set, row and strip it touches where it is a set's (strip N is P, N + 1
is Q), the block offset in the row, the read job it serves, whether its command drew a reservation, whether it was
reissued, and how often Namespace Not Ready resubmitted it. -/
structure MemberOp where
  kind : OpKind := .read
  owner : Option Nat := none
  ticket : Nat := 0
  drawer : Nat := 0
  unit : Nat := 0
  units : Nat := 0
  group : Nat := 0
  goff : Nat := 0
  fua : Bool := false
  set : Option Nat := none
  row : Nat := 0
  strip : Nat := 0
  parity : Bool := false
  boff : Nat := 0
  job : Option Nat := none
  drawn : Bool := false
  reissued : Bool := false
  notReady : Nat := 0
  order : Nat := 0
  deriving DecidableEq, Repr

/-- A command context in use (R304, R307, R308): its operation, its rotation, the epoch of its submission, and, once it
is quarantined, the epoch of its timeout, whether the original is accounted for and whether a later read named its
cells again; a write's member operation waits for both the original and the reissue. -/
structure NvmeCtx where
  op : MemberOp := {}
  rot : Nat := 0
  stamp : Nat := 0
  quar : Option Nat := none
  accounted : Bool := false
  reopened : Bool := false
  deriving DecidableEq, Repr

/-- A Drawer beside its registers (R300 to R310): contexts by 1,024 × SQ + context, their rotations, the tails and heads
of the 16 queues, completion entries not yet acknowledged by a head doorbell, the last doorbells written (queue, value),
operations that wait, what the next READY submits again, the completion timeouts of this working cycle, whether PERST_N
is released, the timer that runs (0 none, 1 debounce, 2 PERST, 3 training, 4 init, 5 ready bit, 6 PERST assert), what
admission has found, the namespace it used (R312), the Aborts outstanding by admin CID (the queue and CID they name), whether admission's admin commands
are outstanding, the working cycle since which some admin command is, and by completion queue whether its head has passed
the end an odd number of times. -/
structure Drawer where
  ctxs : SMap NvmeCtx := []
  rot : SMap Nat := []
  sqTail : SMap Nat := []
  cqHead : SMap Nat := []
  cqNew : SMap Nat := []
  doorbells : SMap Nat := []
  pend : List MemberOp := []
  again : List MemberOp := []
  ctoCount : Nat := 0
  perstReleased : Bool := false
  timer : Nat := 0
  present : Bool := false
  fenced : Bool := false
  aborts : SMap (Nat × Nat) := []
  adminOut : Bool := false
  adminSince : Nat := 0
  vwc : Bool := false
  nnr : List MemberOp := []
  dlfeat : Bool := false
  nsid : Nat := 1
  cqPass : SMap Nat := []
  deriving DecidableEq, Repr

/-- A read of one contiguous piece of a strip for a DRIVE request (R273, R274, R307): where it lies, where its blocks go,
the strips that are unknown, those missing for a timeout alone, the staging group of a recovery with the strips wanted
and had, and whether it waits for cells to recover into. -/
structure ReadJob where
  owner : Nat := 0
  ticket : Nat := 0
  set : Nat := 0
  row : Nat := 0
  strip : Nat := 0
  boff : Nat := 0
  count : Nat := 0
  group : Nat := 0
  goff : Nat := 0
  index : Nat := 0
  unknown : List Nat := []
  missing : List Nat := []
  staging : Option Nat := none
  want : List Nat := []
  got : List Nat := []
  waits : Bool := false
  deriving DecidableEq, Repr

/-- A DRIVE request under way: read jobs and member operations left, blocks reconstructed, the index of the first
damaged block. -/
structure DriveReq where
  jobs : List Nat := []
  ops : Nat := 0
  recon : Nat := 0
  damaged : Option Nat := none
  deriving DecidableEq, Repr

/-- The drive ports (R295 to R313): Drawers by number, DRIVE requests by 64 × owner + ticket, read jobs by number, and
the next number. -/
structure Drv where
  drawers : SMap Drawer := []
  reqs : SMap DriveReq := []
  jobs : SMap ReadJob := []
  next : Nat := 0
  deriving DecidableEq, Repr

/-- A holder of busy columns (R257): the command (none for a piece or a write-back), the columns, its P and Q output
cells once it has them, its reads still out, how many of its DRIVE requests are still to start, whether its P and Q are
submitted, and the forms of its columns as they were chosen (R254, R256, R257). -/
structure Holder where
  frame : Option Nat := none
  set : Nat := 0
  row : Nat := 0
  boff : Nat := 0
  count : Nat := 0
  out : Option (Nat × Nat × Nat) := none
  reads : Nat := 0
  writes : Nat := 0
  submitted : Bool := false
  forms : List (Nat × Nat) := []
  deriving DecidableEq, Repr

/-- A piece of budgeted work in progress (R275, R276, R286, R287): 1 resync, 2 copy-back, 3 staging, 4 reshape row,
5 rebuild; its row and its block offset. -/
structure Piece where
  kind : Nat := 0
  row : Nat := 0
  boff : Nat := 0
  deriving DecidableEq, Repr

/-- Columns to be resynced (R264): a set's rows, from an open record or from a dirty region. -/
structure Resync where
  set : Nat := 0
  row : Nat := 0
  boff : Nat := 0
  count : Nat := 0
  ofOpen : Bool := false
  deriving DecidableEq, Repr

/-- A set beside its registers (R270 to R290): the Drawers now at positions that were replaced, the budget in bytes, the
piece in progress, the block offset of the cursor's row that the next piece starts at, the start row by position, the uncovered rows by position (the position that
holds their target strip, and how many), the repairs of this working cycle by position, the Drawer and state of the loss
that took it offline with that Drawer's namespace identity, the added Drawers, whether staging is done, how many old rows have
been staged, and whether OP 4 paused it. -/
structure SetState where
  moved : SMap Nat := []
  budget : Nat := 0
  piece : Option Piece := none
  nextBoff : Nat := 0
  startRow : SMap Nat := []
  uncovered : SMap (List (Nat × Nat)) := []
  repairs : SMap Nat := []
  offlineDrawer : Option Nat := none
  offlineId : Nat := 0
  offlineFrom : Nat := 0
  added : List Nat := []
  staged : Bool := false
  stagingRow : Nat := 0
  paused : Bool := false
  deriving DecidableEq, Repr

/-- The parity engine and the sets (R248 to R257, R270 to R294): sets by number, column holders oldest first, columns
that await resync, and repair write-backs in progress (set, position, member block). -/
structure Par where
  sets : SMap SetState := []
  holders : List Holder := []
  resync : List Resync := []
  repairs : List (Nat × Nat × Nat) := []
  deriving DecidableEq, Repr

/-- A ledger record (R258, R292) and where it stands (R259): sealed at an epoch count, confirmed, the command that
wrote it, and the drive writes it covers still out. -/
structure Record where
  kind : Nat := 1
  set : Nat := 0
  rseq : Nat := 0
  row : Nat := 0
  dmask : Nat := 0
  lost : Nat := 0
  boff : Nat := 0
  bcnt : Nat := 0
  vol : Nat := 0
  slba : Nat := 0
  conn : Nat := 0
  msgid : Nat := 0
  csn : Nat := 0
  gen : Nat := 0
  written : Nat := 0
  extra : List Byte := []
  sealed : Option Nat := none
  confirmed : Bool := false
  frame : Option Nat := none
  writesDone : Bool := false
  deriving DecidableEq, Repr

/-- A dirty region (R260): confirmed to the standby or durable, the epochs without an open record in it, and whether a record
of it was written or retired in the epoch that runs. -/
structure Dirty where
  confirmed : Bool := false
  idle : Nat := 0
  live : Bool := false
  sent : Bool := false
  deriving DecidableEq, Repr

/-- A batch (R262): the 4 KiB unit of its ring that it begins at, its BSEQ, whether it is a checkpoint, its epoch, its records (their RSEQs, and whole with their
slots), the RSEQs it retires, and the dirty-map bits it sets and clears. -/
structure Batch where
  place : Nat := 0
  bseq : Nat := 0
  ckpt : Bool := false
  epoch : Nat := 0
  recs : List Nat := []
  full : List (Nat × Record) := []
  retire : List Nat := []
  dirty : List (Nat × Nat) := []
  cleared : List Nat := []
  deriving DecidableEq, Repr

/-- A ledger ring (R262, R265): its Drawer, batches not yet durable (oldest first), whether it counts, whether it is a
replacement being populated, whether its generation slot is still to be written, and the 4 KiB unit its next batch goes to. -/
structure Ring where
  drawer : Nat := 0
  queue : List Batch := []
  counts : Bool := false
  replacing : Bool := false
  genDue : Bool := false
  next : Nat := 0
  deriving DecidableEq, Repr

/-- The ledger (R258 to R266): records by slot, the last RSEQ, dirty regions by 2^32 × set + region, rings A and B, the
last BSEQ given, RSEQs retired since the last copy and since the last batch, dirty-map changes not yet sent (key, set),
regions cleared since the last batch, whether the rings have a checkpoint of this term, LEDGER requests that wait for
slots (owner, ticket), what each Drawer's ring holds on its medium (the
newest durable checkpoint first, then the batches after it; it outlasts every reset), and whether the Sideboard's
ledger outlived the last reset or came in state copies. -/
structure Ldg where
  recs : SMap Record := []
  rseq : Nat := 0
  dirty : SMap Dirty := []
  ringA : Option Ring := none
  ringB : Option Ring := none
  bseq : Nat := 0
  retired : List Nat := []
  retiredBatch : List Nat := []
  mapChanges : List (Nat × Bool) := []
  cleared : List Nat := []
  ckptDue : Bool := true
  waits : List (Nat × Nat) := []
  media : SMap (List Batch) := []
  preserved : Bool := false
  deriving DecidableEq, Repr

end Sys2Proof.Machine
end

