-- ==== Sys2Proof/Machine/UnitsPair.lean ====
section
/-! DEFINITION. Plain-data state of the pair (Hinge, Tether, contest), of slot power and of the firmware unit. -/

namespace Sys2Proof.Machine

/-- A Hinge frame sent (R337 to R339): its type, flags, sequence number, epoch and payload. -/
structure HingeFrame where
  typ : Nat := 0
  swap : Bool := false
  last : Bool := false
  seq : Nat := 0
  epoch : Nat := 0
  payload : List Byte := []
  deriving DecidableEq, Repr

/-- A state copy that awaits its CONFIRM (R261, R341, R342): its epoch count, the RSEQs and dirty regions it carries, its
sections, and whether it closes a planned swap. -/
structure CopyOut where
  epoch : Nat := 0
  recs : List Nat := []
  dirty : List Nat := []
  sections : List CopySection := []
  swap : Bool := false
  deriving DecidableEq, Repr

/-- A copied command record (R340): its connection, tag, CSN, opcode, newest EVENT and completion. -/
structure CmdRec where
  conn : Nat := 0
  msgid : Nat := 0
  event : Nat := 0
  csn : Nat := 0
  opcode : Nat := 0
  cmpl : List Byte := []
  deriving DecidableEq, Repr

/-- The pair (R335 to R358) beside HNG's registers. As the active: whether it counts as paired, whether it becomes paired
or goes ALONE at its next boundary, whether copies flow, the copies that await confirmation, and what the standby was last
sent (by section, then key). The Hinge: sequence numbers, frames not acknowledged, frames that wait for room, the frame
sent last, copy bytes not yet counted in whole KiB, frames received since the last ACK. As a standby: the copy being received, the last epoch applied, the copies
queued while a sync runs, the copied command records, and the host CSN after the last command heard of, by connection.
The paths: link, silences, missed COPY_ENDs, the Tether's last live frames (ns by pair). The contest: why it runs (0
start, 1 silence), the drives asked with their answers (0 pending, 1 acquired, 2 conflict, 3 unreachable), and whether it
is undecided. Then: START_DEFER runs, DETACH_REQ and DETACH_ACK are sent, the stage of a planned swap with each
connection's c0, the core watchdog, announcements left, the Drawers being acquired, and the generations
received in copies that wait for the first boundary as the active (number and class-L copy, oldest first). -/
structure Hng where
  paired : Bool := false
  pairNext : Bool := false
  goAlone : Bool := false
  copying : Bool := false
  copies : List CopyOut := []
  base : SMap (SMap (List Byte)) := []
  txSeq : Nat := 0
  rxSeq : Nat := 0
  unacked : List HingeFrame := []
  waiting : List HingeFrame := []
  wire : Option HingeFrame := none
  copyRem : Nat := 0
  sinceAck : Nat := 0
  rxCopy : List CopySection := []
  applied : Option Nat := none
  syncing : Bool := false
  syncQueue : List (Nat × Bool × List CopySection) := []
  records : SMap CmdRec := []
  nextCsn : SMap Nat := []
  linkUp : Bool := false
  missed : Nat := 0
  tetherSilent : Bool := true
  tetherAt : SMap Nat := []
  tetherSeq : Nat := 0
  tetherOut : Nat := 0
  pathState : Nat := 0
  peerPfw : Bool := false
  contesting : Bool := false
  contestWhy : Nat := 0
  contest : List (Nat × Nat) := []
  undecided : Bool := false
  deferring : Bool := false
  detachReq : Bool := false
  detachAck : Bool := false
  swapping : Nat := 0
  c0 : SMap Nat := []
  coreOk : Bool := false
  announce : Nat := 0
  acquiring : List Nat := []
  gens : List (Nat × SMap Nat) := []
  deriving DecidableEq, Repr

/-- Slot and feed power beside its registers (R361 to R376): whether the control link to the power die is silent, and
whether feed sharing is out of range. -/
structure Slp where
  linkSilent : Bool := false
  shareLimit : Bool := false
  deriving DecidableEq, Repr

/-- An FWU_CMD operation that runs (R398): its number, the result its checks gave, whether staging was written while it
ran, the staged image it acts on, the program count of its seal, the stage of an ACTIVATE (0 before the handover, 1 after it,
2 once the new Bureau has committed its generation), and the slots its images went into (R400). -/
structure FwuJob where
  op : Nat := 0
  result : Nat := 0
  dirtied : Bool := false
  image : List Byte := []
  count : Nat := 0
  stage : Nat := 0
  slots : List Nat := []
  deriving DecidableEq, Repr

/-- The firmware unit beside its registers (R389 to R403): the operation that runs; the NOR's image area, seal block and
recovery record; whether the loader sector's signature verifies; the DBG_DISABLE fuse; the running image and the system slots
that hold its images; the slots of an older image that are to be unloaded; the half of the Bureau area that runs; and, in
recovery with a sealed record, its setup key. The NOR and the fuses outlast every reset. -/
structure Fwu where
  job : Option FwuJob := none
  image : List Byte := []
  sealBlock : List Byte := []
  recovery : List Byte := []
  loaderOk : Bool := true
  dbgDisable : Bool := false
  running : List Byte := []
  slots : List Nat := []
  oldSlots : List Nat := []
  half : Nat := 0
  recoveryKey : Option (List Byte) := none
  deriving DecidableEq, Repr

end Sys2Proof.Machine
end

