-- ==== Sys2Proof/Machine/UnitsStore.lean ====
section
/-! DEFINITION. Plain-data state of the Cabinet (cells, groups, queue memory, spill) and of the Sideboard (memory,
arbiter seats). -/

namespace Sys2Proof.Machine

/-- One posted Sideboard burst waiting in a seat's queue (R320): where it goes, what it stores, whose it is. -/
structure Burst where
  addr : Nat := 0
  data : List Byte := []
  thread : Nat := 0
  deriving DecidableEq, Repr

/-- The Sideboard (R314 to R323): its 48 GiB, the seats' queues and starvation counters (by 16 × arbiter + seat). -/
structure Sbd where
  mem : Mem := []
  queue : SMap (List Burst) := []
  starve : SMap Nat := []
  deriving DecidableEq, Repr

/-- What last wrote a 4 KiB block of a group (R189, R207). -/
inductive BlockWriter
  | none | grant | driveRead | decrypt | encrypt | parity | other
  deriving DecidableEq, Repr

/-- A run of cells of a group. -/
structure CellRun where
  first : Nat := 0
  count : Nat := 0
  deriving DecidableEq, Repr

/-- A spilled extent: its cells and its 64 KiB place in the spill area (R208). -/
structure SpilledExtent where
  run : CellRun := {}
  place : Nat := 0
  deriving DecidableEq, Repr

/-- A group of cells (R187, R194, R195, R198): its size, the number of each cell, the account it is charged to (none
for the system account), the command that holds it, which 4 KiB blocks hold placed data and what wrote each last, the
blocks received through grants, the cells that a decryption has passed since a drive read wrote them, the
cells already freed, the extents spilled, whether its release has been asked for, and when movers named its cells, newest
first. -/
structure Group where
  cells : Nat := 0
  nums : List Nat := []
  acc : Option Nat := none
  owner : Option Nat := none
  filled : SMap BlockWriter := []
  got : List Nat := []
  passed : List Nat := []
  freed : List CellRun := []
  spilled : List SpilledExtent := []
  releaseAsked : Bool := false
  uses : List (CellRun × Nat) := []
  deriving DecidableEq, Repr

/-- A CELLS or XRDY request that waits, in the order they were made (R204): its owner and ticket, what it asks for, whether
CAB_STALLS has counted it, and the ns and the thread it was made in. -/
structure CabWait where
  owner : Nat := 0
  ticket : Nat := 0
  xrdy : Bool := false
  conn : Nat := 0
  acc : Option Nat := none
  cells : Nat := 0
  stalled : Bool := false
  madeAt : Nat := 0
  thread : Nat := 0
  deriving DecidableEq, Repr

/-- The Cabinet beside its registers (R194 to R215): groups by index, the reuse counts of group indexes, the
rows in use by quad, the cells that hold payloads outside groups (oldest first), the cells of the system account, the cells' bytes (keyed by group index × 2^24 + byte), queue memory, the
places of the spill area in use (place and its group), the requests that wait, the RED LFSRs by port, since when (ns) a
port's link has been faulty, and the cells that a port's flush has freed so far with the connections it tore down. -/
structure Cab where
  groups : SMap Group := []
  reuse : SMap Nat := []
  rows : SMap (List Nat) := []
  loose : List Nat := []
  sysCells : Nat := 0
  cellMem : Mem := []
  queueMem : Mem := []
  spillPlaces : SMap Nat := []
  waits : List CabWait := []
  lfsr : SMap Nat := []
  faultAt : SMap Nat := []
  flushed : SMap (Nat × Nat) := []
  deriving DecidableEq, Repr

end Sys2Proof.Machine
end

