-- ==== Sys2Proof/Machine/State.lean ====
section
/-! DEFINITION. The machine's state: everything the spec gives the RV4896, as plain data, and the commands that wait. -/

namespace Sys2Proof.Machine

/-- The whole state. Registers live in `regs`; each unit holds what the spec gives it beside its registers. -/
structure State where
  /-- Nanoseconds of the 1 GHz timebase since reset (R26). -/
  ns : Nat := 0
  /-- The model's own field: how many free values have been drawn (DESIGN CHOICE, log entry 6). -/
  freeCtr : Nat := 0
  regs : RegFile := {}
  rtu : Rtu := {}
  cfg : Cfg := {}
  top : Top := {}
  evr : Evr := {}
  pmc : Pmc := {}
  mep : Mep := {}
  sbd : Sbd := {}
  cab : Cab := {}
  sch : Sch := {}
  cph : Cph := {}
  nlt : Nlt := {}
  ctx : Ctx := {}
  cmd : CmdState := {}
  bnc : Bnc := {}
  par : Par := {}
  ldg : Ldg := {}
  drv : Drv := {}
  hng : Hng := {}
  slp : Slp := {}
  fwu : Fwu := {}
  out : Out := {}
  /-- The commands that wait, first in, first out. -/
  pending : List Instr := []
  deriving DecidableEq, Repr

/-- The machine right after reset: every register at its reset value, nothing in memory, no command waiting
(DESIGN CHOICE, log entry 89). -/
def State.reset : State := {}

/-- Why a step can fault: the spec gives the block an answer for every command, so nothing raises one. -/
inductive Fault
  /-- Raised by no command: the spec gives every command an effect. Safe. -/
  | none
  deriving DecidableEq, Repr

/-- Why a step can be refused. -/
inductive Refusal
  /-- Raised by an arm of exec whose command has no meaning yet. Safe: the run stops. -/
  | notModelled (mnemonic : String)
  deriving DecidableEq, Repr

end Sys2Proof.Machine
end

