-- ==== Sys2Proof/WellFormed.lean ====
section
/-! DEFINITION. When a command names units and field values the part has: the operand ranges of the spec. -/

namespace Sys2Proof

/-- The fields of a packet fit their places on the wire (R58, R63) and its lengths agree. -/
def Packet.wf (k : Packet) : Bool :=
  decide (k.ver < 16) && decide (k.flags < 256) && decide (k.hxl < 256) && decide (k.conn < 2 ^ 24) &&
  decide (k.ent < 256) && decide (k.code < 256) && decide (k.psn < 2 ^ 32) && decide (k.msgid < 2 ^ 32) &&
  decide (k.key < 2 ^ 32) && decide (k.offset < 2 ^ 64) && decide (k.plen < 2 ^ 16) && decide (k.hchk < 2 ^ 16) &&
  decide (k.crc < 2 ^ 32) && decide (k.ext.length = 4 * k.hxl) && decide (k.payload.length = k.plen) &&
  (decide (k.tag.length = 0) || decide (k.tag.length = 16))

/-- A received packet: its port is one of the 32 logical ports and its fields fit. -/
def rxWf (m : RxMeta) (k : Packet) : Bool :=
  decide (m.lport < 32) && decide (m.pcp < 8) && decide (m.dscp < 64) && decide (m.src < 2 ^ 128) &&
  decide (m.vid < 4096) && decide (m.smac < 2 ^ 48) && k.wf

/-- A Bench thread is numbered 0 to 511; the Bureau's threads are numbered from 512 (DESIGN CHOICE, log entry 5). -/
def isBureau (t : Nat) : Bool := decide (512 ≤ t)

/-- Who may own a lock (R324). -/
def LockOwner.wf : LockOwner → Bool
  | .bench f => decide (f < 65536)
  | .bureau t => isBureau t
  | .bar0 => true
  | .mgmt c => decide (c < 2 ^ 24)
  | .jtag => true

/-- The operand ranges of every command. -/
def Instr.wellFormed : Instr → Bool
  | .registerWrite _ _ _ val => decide (val < 2 ^ 32)
  | .w1cWrite _ _ val _ => decide (val < 2 ^ 32)
  | .rcRead _ _ _ => true
  | .lowWordRead _ _ => true
  | .rtuStart _ => true
  | .rtuStop _ => true
  | .referenceEdge _ => true
  | .ptpVirtualEdge _ => true
  | .ptpEventMessage lport _ _ m => decide (lport < 32) && decide (m.domain < 256) && decide (m.transport < 3)
  | .ptpReferenceLoss => true
  | .missedEdge => true
  | .lineStart => true
  | .workingCycleStart => true
  | .epochBoundary => true
  | .cfgCommit _ gen => decide (gen < 2 ^ 32)
  | .commitCheckDone => true
  | .cfgRollback _ => true
  | .cfgDiscard _ => true
  | .cfgViewWrite _ inst view => decide (inst < 3) && decide (view < 4)
  | .errlogPop _ => true
  | .generationAreaWriteDone drawer _ _ => decide (drawer < 48)
  | .generationRestoreDone _ => true
  | .rxCmd m k => rxWf m k
  | .rxData m k => rxWf m k
  | .rxAck m k => rxWf m k
  | .rxNak m k => rxWf m k
  | .rxFlush m k => rxWf m k
  | .rxFlushed m k => rxWf m k
  | .rxProbeRequest m k => rxWf m k
  | .rxProbeReply m k => rxWf m k
  | .connectReq m k => rxWf m k
  | .ctrlReady m k => rxWf m k
  | .ctrlKeepalive m k => rxWf m k
  | .ctrlClose m k => rxWf m k
  | .ctrlClosed m k => rxWf m k
  | .ctrlReset m k => rxWf m k
  | .mgmtRegRead m k => rxWf m k
  | .mgmtRegWrite m k => rxWf m k
  | .mgmtAreaWrite m k => rxWf m k
  | .ackDelayExpiry conn => decide (conn < 2 ^ 24)
  | .retransmitTimeout conn => decide (conn < 2 ^ 24)
  | .rateIntervalEnd conn => decide (conn < 2 ^ 24)
  | .transmitOpportunity lport => decide (lport < 32)
  | .nltStart _ lport => decide (lport < 32)
  | .nltStop _ lport => decide (lport < 32)
  | .linkFault lport => decide (lport < 32)
  | .linkRecover lport => decide (lport < 32)
  | .portDown lport => decide (lport < 32)
  | .portFlushDone lport => decide (lport < 32)
  | .setupTimeout conn => decide (conn < 2 ^ 24)
  | .quarantineEnd conn => decide (conn < 2 ^ 24)
  | .livenessExpiry conn => decide (conn < 2 ^ 24)
  | .paramsSend lport => decide (lport < 32)
  | .contextFetchDone conn => decide (conn < 2 ^ 24)
  | .contextWritebackDone conn => decide (conn < 2 ^ 24)
  | .ctxTeardown _ conn => decide (conn < 2 ^ 24)
  | .ctxPin _ conn => decide (conn < 2 ^ 24)
  | .ctxUnpin _ conn => decide (conn < 2 ^ 24)
  | .ctxClose _ conn => decide (conn < 2 ^ 24)
  | .read conn => decide (conn < 2 ^ 24)
  | .write conn => decide (conn < 2 ^ 24)
  | .cmdFlush conn => decide (conn < 2 ^ 24)
  | .writeZeroes conn => decide (conn < 2 ^ 24)
  | .deallocate conn => decide (conn < 2 ^ 24)
  | .compareWrite conn => decide (conn < 2 ^ 24)
  | .abort conn => decide (conn < 2 ^ 24)
  | .regionRegister conn => decide (conn < 2 ^ 24)
  | .regionRevoke conn => decide (conn < 2 ^ 24)
  | .cycleReserve conn => decide (conn < 2 ^ 24)
  | .cycleRelease conn => decide (conn < 2 ^ 24)
  | .identify conn => decide (conn < 2 ^ 24)
  | .logRead conn => decide (conn < 2 ^ 24)
  | .cmdKeepalive conn => decide (conn < 2 ^ 24)
  | .userCommand conn => decide (conn < 2 ^ 24)
  | .grantTimeout grant => decide (grant < 131072)
  | .commandDispatch frame thread => decide (frame < 65536) && decide (thread < 512)
  | .commandResume frame thread _ => decide (frame < 65536) && decide (thread < 512)
  | .requestComplete _ ticket => decide (ticket < 64)
  | .userWallTimeout frame => decide (frame < 65536)
  | .imageLoad _ slot => decide (slot < 64)
  | .imageUnload _ slot => decide (slot < 64)
  | .imageLoadDone => true
  | .add _ rd ra rb => decide (rd < 32) && decide (ra < 32) && decide (rb < 32)
  | .sub _ rd ra rb => decide (rd < 32) && decide (ra < 32) && decide (rb < 32)
  | .and _ rd ra rb => decide (rd < 32) && decide (ra < 32) && decide (rb < 32)
  | .or _ rd ra rb => decide (rd < 32) && decide (ra < 32) && decide (rb < 32)
  | .xor _ rd ra rb => decide (rd < 32) && decide (ra < 32) && decide (rb < 32)
  | .andn _ rd ra rb => decide (rd < 32) && decide (ra < 32) && decide (rb < 32)
  | .shl _ rd ra rb => decide (rd < 32) && decide (ra < 32) && decide (rb < 32)
  | .shr _ rd ra rb => decide (rd < 32) && decide (ra < 32) && decide (rb < 32)
  | .sar _ rd ra rb => decide (rd < 32) && decide (ra < 32) && decide (rb < 32)
  | .mul _ rd ra rb => decide (rd < 32) && decide (ra < 32) && decide (rb < 32)
  | .mulhu _ rd ra rb => decide (rd < 32) && decide (ra < 32) && decide (rb < 32)
  | .seq _ rd ra rb => decide (rd < 32) && decide (ra < 32) && decide (rb < 32)
  | .sne _ rd ra rb => decide (rd < 32) && decide (ra < 32) && decide (rb < 32)
  | .slt _ rd ra rb => decide (rd < 32) && decide (ra < 32) && decide (rb < 32)
  | .sltu _ rd ra rb => decide (rd < 32) && decide (ra < 32) && decide (rb < 32)
  | .sel _ rd ra rb => decide (rd < 32) && decide (ra < 32) && decide (rb < 32)
  | .clz _ rd ra => decide (rd < 32) && decide (ra < 32)
  | .popc _ rd ra => decide (rd < 32) && decide (ra < 32)
  | .addi _ rd ra _ => decide (rd < 32) && decide (ra < 32)
  | .andi _ rd ra _ => decide (rd < 32) && decide (ra < 32)
  | .ori _ rd ra _ => decide (rd < 32) && decide (ra < 32)
  | .xori _ rd ra _ => decide (rd < 32) && decide (ra < 32)
  | .shli _ rd ra _ => decide (rd < 32) && decide (ra < 32)
  | .shri _ rd ra _ => decide (rd < 32) && decide (ra < 32)
  | .sari _ rd ra _ => decide (rd < 32) && decide (ra < 32)
  | .seth _ p rd ra _ => decide (p < 4) && decide (rd < 32) && decide (ra < 32)
  | .seqi _ rd ra _ => decide (rd < 32) && decide (ra < 32)
  | .slti _ rd ra _ => decide (rd < 32) && decide (ra < 32)
  | .sltiu _ rd ra _ => decide (rd < 32) && decide (ra < 32)
  | .load _ rt ra sp w _ => decide (rt < 32) && decide (ra < 32) && decide (sp < 4) && decide (w < 4)
  | .loads _ rt ra sp w _ => decide (rt < 32) && decide (ra < 32) && decide (sp < 4) && decide (w < 4)
  | .store _ rt ra sp w _ => decide (rt < 32) && decide (ra < 32) && decide (sp < 4) && decide (w < 4)
  | .aadd _ rt ra _ => decide (rt < 32) && decide (ra < 32)
  | .bz _ ra _ => decide (ra < 32)
  | .bnz _ ra _ => decide (ra < 32)
  | .jal _ ra _ => decide (ra < 32)
  | .jalr _ rd ra => decide (rd < 32) && decide (ra < 32)
  | .wait _ rd ra => decide (rd < 32) && decide (ra < 32)
  | .park _ ra => decide (ra < 32)
  | .drop _ ra => decide (ra < 32)
  | .endThread _ => true
  | .rdtime _ rd => decide (rd < 32)
  | .rdc _ rd n => decide (rd < 32) && decide (n < 32)
  | .mfence _ => true
  | .eret _ => true
  | .wfi _ => true
  | .csrr _ rd imm => decide (rd < 32) && decide (imm < 65536)
  | .csrw _ ra imm => decide (ra < 32) && decide (imm < 65536)
  | .bureauInterrupt t => isBureau t
  | .bureauTimer t => isBureau t
  | .xreqCells _ rd ra rb => decide (rd < 32) && decide (ra < 32) && decide (rb < 32)
  | .xreqRelease _ rd ra rb => decide (rd < 32) && decide (ra < 32) && decide (rb < 32)
  | .xreqEmitXrdy _ rd ra rb => decide (rd < 32) && decide (ra < 32) && decide (rb < 32)
  | .xreqEmitData _ rd ra rb => decide (rd < 32) && decide (ra < 32) && decide (rb < 32)
  | .xreqEmitCmpl _ rd ra rb => decide (rd < 32) && decide (ra < 32) && decide (rb < 32)
  | .xreqEmitCtrl _ rd ra rb => decide (rd < 32) && decide (ra < 32) && decide (rb < 32)
  | .xreqEmitMgmt _ rd ra rb => decide (rd < 32) && decide (ra < 32) && decide (rb < 32)
  | .xreqCipherEncrypt _ rd ra rb => decide (rd < 32) && decide (ra < 32) && decide (rb < 32)
  | .xreqCipherDecrypt _ rd ra rb => decide (rd < 32) && decide (ra < 32) && decide (rb < 32)
  | .xreqParityGen _ rd ra rb => decide (rd < 32) && decide (ra < 32) && decide (rb < 32)
  | .xreqParityUpdate _ rd ra rb => decide (rd < 32) && decide (ra < 32) && decide (rb < 32)
  | .xreqParityRecon _ rd ra rb => decide (rd < 32) && decide (ra < 32) && decide (rb < 32)
  | .xreqParityCompare _ rd ra rb => decide (rd < 32) && decide (ra < 32) && decide (rb < 32)
  | .xreqLedger _ rd ra rb => decide (rd < 32) && decide (ra < 32) && decide (rb < 32)
  | .xreqDriveRead _ rd ra rb => decide (rd < 32) && decide (ra < 32) && decide (rb < 32)
  | .xreqDriveWrite _ rd ra rb => decide (rd < 32) && decide (ra < 32) && decide (rb < 32)
  | .xreqDriveFlush _ rd ra rb => decide (rd < 32) && decide (ra < 32) && decide (rb < 32)
  | .xreqDriveDeallocate _ rd ra rb => decide (rd < 32) && decide (ra < 32) && decide (rb < 32)
  | .xreqTrack _ rd ra rb => decide (rd < 32) && decide (ra < 32) && decide (rb < 32)
  | .xreqClear _ rd ra rb => decide (rd < 32) && decide (ra < 32) && decide (rb < 32)
  | .xreqDraw _ rd ra rb => decide (rd < 32) && decide (ra < 32) && decide (rb < 32)
  | .xreqMark _ rd ra rb => decide (rd < 32) && decide (ra < 32) && decide (rb < 32)
  | .xreqRcheck _ rd ra rb => decide (rd < 32) && decide (ra < 32) && decide (rb < 32)
  | .xreqFilled _ rd ra rb => decide (rd < 32) && decide (ra < 32) && decide (rb < 32)
  | .cabStart _ => true
  | .cabStop _ => true
  | .apertureRead drawer _ _ => decide (drawer < 48)
  | .apertureWrite drawer _ _ => decide (drawer < 48)
  | .prpListRead drawer _ => decide (drawer < 48)
  | .spillExtentDone group _ _ => decide (group < 262144)
  | .spillReturnDone group _ => decide (group < 262144)
  | .schStart _ => true
  | .schStop _ => true
  | .gateEntry lport entry => decide (lport < 32) && decide (entry < 256)
  | .keyImportPlain _ slot kind => decide (slot < 8192) && decide (kind < 16)
  | .keyImportKek _ slot kind => decide (slot < 8192) && decide (kind < 16)
  | .keyImportBlob _ slot kind => decide (slot < 8192) && decide (kind < 16)
  | .keyExport _ slot => decide (slot < 8192)
  | .keyErase _ slot => decide (slot < 8192)
  | .keyOpDone => true
  | .pairTest _ pair => decide (pair < 72)
  | .pairTestDone pair _ => decide (pair < 72)
  | .cipherItemDone pair _ => decide (pair < 72)
  | .entropyHealthFail => true
  | .parStart _ => true
  | .parStop _ => true
  | .ldgStart _ => true
  | .ldgStop _ => true
  | .ledgerBatchDone drawer _ => decide (drawer < 48)
  | .resyncPieceDone set _ _ _ _ => decide (set < 8)
  | .rbTarget _ set pos drawer => decide (set < 8) && decide (pos < 26) && decide (drawer < 48)
  | .rbReshape _ set newn => decide (set < 8) && decide (newn < 32)
  | .rbRevive _ set drawer => decide (set < 8) && decide (drawer < 48)
  | .rbPause _ set => decide (set < 8)
  | .rbResume _ set => decide (set < 8)
  | .rebuildPieceDone set => decide (set < 8)
  | .reshapeRowDone set => decide (set < 8)
  | .reshapeStagingDone set => decide (set < 8)
  | .repairWritebackDone set pos _ _ => decide (set < 8) && decide (pos < 26)
  | .drvStart _ => true
  | .drvStop _ => true
  | .drawerPowerOn _ d => decide (d < 48)
  | .drawerPowerOff _ d => decide (d < 48)
  | .drawerControllerReset _ d => decide (d < 48)
  | .drawerReadmit _ d => decide (d < 48)
  | .presenceDebounceEnd d => decide (d < 48)
  | .presenceLost d => decide (d < 48)
  | .perstDelayEnd d => decide (d < 48)
  | .dlActive d width speed _ => decide (d < 48) && decide (width ≤ 2) && decide (speed < 8)
  | .initDelayEnd d => decide (d < 48)
  | .trainingTimeout d => decide (d < 48)
  | .driveRegisterAccessDone d _ => decide (d < 48)
  | .driveLinkDown d _ => decide (d < 48)
  | .nvmeCompletion d sq cid _ => decide (d < 48) && decide (sq < 16) && decide (cid < 65536)
  | .ioTimeout d sq cid => decide (d < 48) && decide (sq < 16) && decide (cid < 65536)
  | .adminTimeout d => decide (d < 48)
  | .pcieCompletionTimeout d => decide (d < 48)
  | .contextQuarantineEnd d sq cid => decide (d < 48) && decide (sq < 16) && decide (cid < 65536)
  | .asyncEvent d warning => decide (d < 48) && decide (warning < 256)
  | .driveAerMessage d _ _ _ => decide (d < 48)
  | .drawerResetDone d _ => decide (d < 48)
  | .sbdStart _ => true
  | .sbdStop _ => true
  | .bar2Read _ _ => true
  | .bar2Write _ _ => true
  | .sideboardUe requester _ _ => decide (requester < 12)
  | .arbiterGrant arb => decide (arb < 3)
  | .seatMask arb seat => decide (arb < 3) && decide (seat < 16)
  | .seatUnmask arb seat => decide (arb < 3) && decide (seat < 16)
  | .lockAcquire who n => who.wf && decide (n < 256)
  | .lockRelease who n gen => who.wf && decide (n < 256) && decide (gen < 2 ^ 24)
  | .lockRenew who n gen => who.wf && decide (n < 256) && decide (gen < 2 ^ 24)
  | .lockClean who n gen => who.wf && decide (n < 256) && decide (gen < 2 ^ 24)
  | .lockStateRead who n => who.wf && decide (n < 256)
  | .lockForce _ n => decide (n < 256)
  | .lockLeaseExpiry n => decide (n < 256)
  | .hngStart _ => true
  | .hngStop _ => true
  | .roleSwap _ => true
  | .rejoin _ => true
  | .detach _ => true
  | .hingeCopy _ _ => true
  | .hingeCopyEnd _ _ _ => true
  | .hingeConfirm _ _ _ _ => true
  | .hingeAck _ seq0 => decide (seq0 < 65536)
  | .hingeNak _ seq0 => decide (seq0 < 65536)
  | .hingeSync _ _ => true
  | .hingeTime h _ _ _ => decide (h.svn ≤ 64) && decide (h.rkey < 2 ^ 64)
  | .hingeRecorder _ _ => true
  | .hingeResendTimeout => true
  | .hingeAckTimer => true
  | .hingeLinkDown lanes => decide (lanes ≤ 8)
  | .tetherFrame pair _ => decide (pair < 2)
  | .tetherSend => true
  | .tetherSilent => true
  | .copyEndMissed => true
  | .watchdogLapse => true
  | .contestTimeout drawer => decide (drawer < 48)
  | .startDeferEnd => true
  | .announceRepeat => true
  | .powerFailWarning => true
  | .pfwRelease => true
  | .slpStart _ => true
  | .slpStop _ => true
  | .slotOnCommand d => decide (d < 48)
  | .slotOffCommand d => decide (d < 48)
  | .startPhaseEnd d => decide (d < 48)
  | .rampComplete d => decide (d < 48)
  | .fastTrip d => decide (d < 48)
  | .limitingStart d => decide (d < 48)
  | .limitingEnd d => decide (d < 48)
  | .faultTimerExpiry d => decide (d < 48)
  | .powerGoodDebounceEnd d => decide (d < 48)
  | .powerGoodFail d => decide (d < 48)
  | .retryDelayEnd d => decide (d < 48)
  | .retryCountClear d => decide (d < 48)
  | .controlLinkSilent => true
  | .controlLinkRecover => true
  | .feedOvercurrent f => decide (f < 2)
  | .feedReverseCurrent f => decide (f < 2)
  | .adcSample _ _ _ => true
  | .mepPerst => true
  | .cfgReadySet _ => true
  | .functionLevelReset => true
  | .flrComplete => true
  | .bmeClear => true
  | .bmeSet => true
  | .powerStateWrite _ => true
  | .vectorAck _ _ => true
  | .msixMaskClear _ v => decide (v < 64)
  | .l1IdleExpiry => true
  | .dmaStart _ ch ctl => decide (ch < 4) && decide (ctl < 8)
  | .dmaDone ch _ _ => decide (ch < 4)
  | .atsInvalidate _ _ _ => true
  | .fwVerify _ => true
  | .fwProgram _ => true
  | .fwActivate _ => true
  | .fwCommitSvn _ => true
  | .fwWriteRecovery _ => true
  | .fwClearStaging _ => true
  | .fwOpDone _ => true
  | .blkDataWrite _ idx val => decide (idx < 1024) && decide (val < 2 ^ 32)
  | .dbgUnlock _ => true
  | .dbgLock _ => true
  | .boot => true
  | .evrFlush _ => true
  | .evrPost _ => true
  | .evrWindowRead _ idx => decide (idx < 1024)
  | .evrCurWrite _ _ => true
  | .extentCommitted drawer _ => decide (drawer < 48)
  | .pmcClear _ => true
  | .powerOnReset => true
  | .warmReset => true
  | .warmResetCmd _ key => decide (key < 65536)
  | .shelfReset => true
  | .shelfResetCmd _ key => decide (key < 65536)
  | .selfRefreshDone => true
  | .blockReset _ block => decide (block < 32)
  | .blockResetDone => true
  | .thermalWarning sensor temp => decide (sensor < 8) && decide (temp < 2 ^ 16)
  | .thermalTrip => true
  | .clockLoss clk => decide (clk < 5)
  | .clockReturn clk => decide (clk < 5)
  | .hingeLinkUp lanes => decide (lanes ≤ 8)
  | .mepLinkDown => true
  | .mepLinkUp width _ => decide (width ≤ 4)
  | .msixEnable => true
  | .atsEnableClear => true
  | .endpointAerError _ _ _ => true
  | .entropySourceRecover => true
  | .arpOrNeighborSolicitation lport _ _ => decide (lport < 32)
  | .dbgReset => true
  | .prsntAssert d => decide (d < 48)
  | .cstsRdyTimeout d => decide (d < 48)
  | .perstAssertEnd d => decide (d < 48)
  | .cqHeadDoorbellDelay d sq => decide (d < 48) && decide (sq < 16)

end Sys2Proof
end

