-- ==== Sys2Proof/Machine/Ops.lean ====
section
/-! DEFINITION. The named operations every command is built from: register fields, free values, reference time,
counters, event bits and interrupts, the error log, event records, and the gate every command passes. -/

namespace Sys2Proof.Machine

open Sys2Proof.Reg

/-! ### Register fields -/

/-- The acting value of field `f`, instance `i`: the current copy for class L (R43), the live value otherwise. -/
def State.reg (s : State) (f : Field) (i : Nat := 0) : Nat :=
  SMap.get (f.reset i) (if f.cls = .L then s.regs.cur else s.regs.live) (f.key i)

/-- A copy of the registers with the field at `k` set to `v`: an entry equal to the reset value is not listed, so
that equal register files are equal data. -/
def storeField (reset k v : Nat) (m : SMap Nat) : SMap Nat := if v = reset then SMap.del k m else SMap.put k v m

/-- Field `f` of instance `i` set to `v`: what the hardware writes. -/
def State.setReg (s : State) (f : Field) (i : Nat) (v : Nat) : State :=
  if f.cls = .L then
    { s with regs := { s.regs with cur := storeField (f.reset i) (f.key i) (v % 2 ^ f.width) s.regs.cur } }
  else
    { s with regs := { s.regs with live := storeField (f.reset i) (f.key i) (v % 2 ^ f.width) s.regs.live } }

/-- Field `f` of instance `i` in the pending copy of class L (R43). -/
def State.pendReg (s : State) (f : Field) (i : Nat := 0) : Nat := SMap.get (f.reset i) s.regs.pend (f.key i)

/-- A bit of a field as a Bool. -/
def State.flag (s : State) (f : Field) (i : Nat := 0) : Bool := s.reg f i != 0

/-- Set or clear a one-bit field. -/
def State.setFlag (s : State) (f : Field) (i : Nat) (b : Bool) : State := s.setReg f i (Bool.nat b)

/-! ### Free values -/

/-- A value the spec leaves open, `w` bits wide, and the state that has drawn it (DESIGN CHOICE, log entry 6). -/
def State.freeBits (s : State) (w : Nat) : Nat × State :=
  ((Config.freeValue s.freeCtr).toNat % 2 ^ w, { s with freeCtr := s.freeCtr + 1 })

/-- `n` bytes the spec leaves open, drawn from the `k`-th on. -/
def freeBytesFrom (k : Nat) : Nat → List Byte
  | 0 => []
  | n + 1 => Config.freeByte k :: freeBytesFrom (k + 1) n

/-- `n` bytes the spec leaves open, and the state that has drawn them. -/
def State.freeBytes (s : State) (n : Nat) : List Byte × State :=
  (freeBytesFrom s.freeCtr n, { s with freeCtr := s.freeCtr + n })

/-- `n` bytes of the entropy source or of the DRBG (DESIGN CHOICE, log entry 8). -/
def State.entropyBytes (s : State) (n : Nat) : List Byte × State :=
  (((Config.entropy s.freeCtr n) ++ List.replicate n 0).take n, { s with freeCtr := s.freeCtr + 1 })

/-! ### Blocks (R55, R40) -/

/-- Base addresses of the 22 blocks, and the end of the space (R55). -/
def blockBases : List Nat :=
  [0, 0x100000, 0x200000, 0x400000, 0x800000, 0xC00000, 0x1000000, 0x1400000, 0x1800000, 0x1C00000, 0x2000000,
   0x2400000, 0x2800000, 0x2C00000, 0x3000000, 0x3100000, 0x3400000, 0x3800000, 0x3C00000, 0x3D00000, 0x3E00000,
   0x3F00000]

/-- The block an address belongs to: none outside the 64 MiB space (R55, R56). -/
def blockOf (a : Nat) : Option Nat :=
  if a < 0x4000000 then some ((blockBases.filter (· ≤ a)).length - 1) else none

/-- Whether block `b` runs: its bit in CFG_BLKRUN (R40). -/
def State.runs (s : State) (b : Nat) : Bool := bitOf (s.reg CFG_BLKRUN_RUN) b

/-- Set or clear block `b`'s bit in CFG_BLKRUN. -/
def State.setRuns (s : State) (b : Nat) (v : Bool) : State :=
  s.setReg CFG_BLKRUN_RUN 0
    ((if s.runs b then s.reg CFG_BLKRUN_RUN - 2 ^ b else s.reg CFG_BLKRUN_RUN) + if v then 2 ^ b else 0)

/-- Block numbers of R55. -/
def bTOP := 0
def bRTU := 1
def bCFG := 2
def bNLT := 3
def bCTX := 4
def bCMD := 5
def bBNC := 6
def bCAB := 7
def bSCH := 8
def bCPH := 9
def bPAR := 10
def bLDG := 11
def bDRV := 12
def bSBD := 13
def bARB := 14
def bLCK := 15
def bHNG := 16
def bSLP := 17
def bMEP := 18
def bFWU := 19
def bEVR := 20
def bPMC := 21

/-! ### Reference time (R5, R29, R54) -/

/-- The reference-time unit is STOPPED or in WAIT_EDGE: no reference time runs (R54, R406). -/
def State.unsync (s : State) : Bool := s.reg RTU_STATUS_STATE ≤ 1

/-- `ns` after the start of a line in sub-lines: 4,096 to the length of the line that runs, kept in 2^-8 ns
(R28, R29). -/
def State.inSubLines (s : State) (ns : Int) : Int :=
  if s.reg RTU_LINE_LEN_LEN = 0 then 0 else ns * (4096 * 256) / (s.reg RTU_LINE_LEN_LEN : Int)

/-- The sub-line at this instant (R29): capped at 4,095. -/
def State.subLine (s : State) : Nat := min 4095 (s.inSubLines (s.ns - s.rtu.lineStart : Nat)).toNat

/-- The reference time as RTU_NOW reads (R5, R39): 0 in WAIT_EDGE, held while STOPPED. -/
def State.refTime (s : State) : Nat :=
  match s.reg RTU_STATUS_STATE with
  | 0 => 2 ^ 24 * s.rtu.cycle + s.rtu.line * 2 ^ 12 + s.rtu.heldSub
  | 1 => 0
  | _ => 2 ^ 24 * s.rtu.cycle + s.rtu.line * 2 ^ 12 + s.subLine

/-- A stamp: the reference time, or ns since reset while none runs (R54, R404). -/
def State.stamp (s : State) : Nat := if s.unsync then s.ns else s.refTime

/-- Epoch boundaries since START (R39). -/
def State.epoch (s : State) : Nat := s.reg RTU_EPOCH_COUNT_COUNT

/-! ### Counters (R412, R413) -/

/-- The attributes an event carries (R413); an attribute that is absent is none. -/
structure Attr where
  user : Option Bool := none
  master : Option Nat := none
  vol : Option (Nat × Nat × Nat) := none
  regAddr : Option Nat := none
  cls : Option Nat := none
  inst : Option Nat := none
  deriving DecidableEq, Repr

/-- A field of a capsule, big-endian (R120). -/
def capField (c : List Byte) (o n : Nat) : Nat := beNat ((c.drop o).take n)

/-- VOLUME, SLBA and NBLK of a command's capsule (R120). -/
def Cmd.volume (c : Cmd) : Nat := capField c.capsule 2 2 % 2 ^ 14
def Cmd.slba (c : Cmd) : Nat := capField c.capsule 8 8 % 2 ^ 48
def Cmd.nblk (c : Cmd) : Nat := capField c.capsule 16 4

/-- The attributes of what a known connection causes: its subscriber, and the PCP of its context (R109, R413). -/
def Conn.attr (c : Conn) : Attr := { master := some c.sub, cls := some c.pcp }

/-- The connection with an ID, among those the part holds. -/
def State.connById (s : State) (id : Nat) : Option Conn := (s.ctx.conns.find? fun e => e.2.id == id).map (·.2)

/-- The attributes of what a packet causes: those of its connection where its context is at hand, else the PCP of its
frame (R413). -/
def State.pktAttr (s : State) (m : RxMeta) (id : Nat) : Attr :=
  match s.connById id with
  | some c => if c.cache = .cached then c.attr else { cls := some m.pcp }
  | none => { cls := some m.pcp }

/-- The attributes of what a command causes: its handler, its subscriber, its range, its connection's class (R413)
(DEDUCED, log entry 109). -/
def Cmd.attr (s : State) (c : Cmd) : Attr :=
  { user := some (decide (32 ≤ c.slot) && decide (c.slot < 64)), master := some c.sub,
    vol := if c.nblk = 0 then none else some (c.volume, c.slba, c.nblk), cls := (s.connById c.conn).map (·.pcp) }

/-- The attributes of what is done for a frame, where it holds a command. -/
def State.cmdAttr (s : State) (f : Option Nat) : Attr :=
  match f.bind (SMap.find s.cmd.frames) with
  | some c => c.attr s
  | none => {}

/-- The attributes of a packet that is sent: its connection's, or the class of the packet it answers (R413). -/
def State.outAttr (s : State) (o : OutPkt) : Attr :=
  match s.connById o.pkt.conn, o.asked with
  | some c, _ => c.attr
  | none, some m => { cls := some m.pcp }
  | none, none => {}

/-- The attributes of what a cipher item causes (R413). -/
def CphItem.attr (i : CphItem) (s : State) : Attr :=
  match i with
  | .xts o .. => s.cmdAttr (some o)
  | .gcmRx _ m k _ _ => s.pktAttr m k.conn
  | .gcmTx f _ _ => s.outAttr f.out

/-- The attributes of a Cabinet event charged to an account (R199, R413). -/
def accountAttr (acc : Option Nat) : Attr := { cls := acc.map (· % 8) }

/-- The attributes of a register access (R413). -/
def accessAttr (p : Path) (addr : Nat) : Attr := { master := some (0x8000 + p.idx), regAddr := some addr }

/-- The attributes of a Sideboard or fabric burst of a requester (R319, R413). -/
def burstAttr (code : Nat) : Attr := { master := some (0x4000 + code) }

/-- The number of a class-K counter field among its block's counters, in ascending offset order, the level
registers skipped (R412). -/
def kIndex (f : Field) : Option Nat :=
  match blockOf f.addr with
  | none => none
  | some b =>
    let ks := ((blockRegisters b).flatMap (·.fields)).filter fun g =>
      g.cls == .K && g.acc == .rc && g.addr != CAB_PEAK_FILL.addr && g.addr != ARB_WAITMAX_BURSTS.addr
    ks.findIdx? fun g => g.key 0 == f.key 0

/-- Whether the filters of counter `c` pass an event with attributes `a` (R413). -/
def State.pmcPasses (s : State) (c : Nat) (a : Attr) : Bool :=
  let priv := s.reg PMC_CTR_PRIV c
  let mask := s.reg PMC_CTR_MASK c
  let amode := s.reg PMC_CTR_AMODE c
  let lo := s.reg PMC_CTR_LO_L c + 2 ^ 32 * s.reg PMC_CTR_LO_H c
  let hi := s.reg PMC_CTR_HI_L c + 2 ^ 32 * s.reg PMC_CTR_HI_H c
  (match priv, a.user with
    | 1, some u => u
    | 1, none => false
    | 2, some u => !u
    | 2, none => false
    | _, _ => true) &&
  (mask == 0 || match a.master with
    | some m => (Nat.xor m (s.reg PMC_CTR_MATCH c)) &&& mask == 0
    | none => false) &&
  (match amode with
    | 1 => match a.vol with
      | some (v, l, n) => v == s.reg PMC_CTR_VOLUME c && decide (l ≤ hi) && decide (lo < l + n)
      | none => false
    | 2 => match a.regAddr with
      | some r => decide (lo ≤ r) && decide (r ≤ hi)
      | none => false
    | _ => true) &&
  (s.reg PMC_CTR_CLASS c == 0xFF || match a.cls with
    | some k => bitOf (s.reg PMC_CTR_CLASS c) k
    | none => false) &&
  (s.reg PMC_CTR_INST c == 0x7F || a.inst == some (s.reg PMC_CTR_INST c))

/-- Counter `c` of PMC_CTR raised by `n`, wrapping modulo 2^48 (R412). -/
def State.pmcAdd (s : State) (c n : Nat) : State :=
  s.setReg PMC_CTR_VALUE c ((s.reg PMC_CTR_VALUE c + n) % 2 ^ 48)

/-- Raise each of block `b`'s 8 counters whose EVENT is `e` and whose filters pass (R412). -/
def State.pmcCount (s : State) (b e n : Nat) (a : Attr) : State :=
  (List.range 8).foldl (fun s k =>
    if s.reg PMC_CTR_EVENT (8 * b + k) = e ∧ s.pmcPasses (8 * b + k) a then s.pmcAdd (8 * b + k) n else s) s

/-- A class-K counter raised by `n` for an event with attributes `a` (R6, R412). -/
def State.bumpBy (s : State) (f : Field) (i n : Nat) (a : Attr) : State :=
  let s := s.setReg f i (s.reg f i + n)
  match kIndex f, blockOf f.addr with
  | some e, some b => s.pmcCount b e n { a with inst := some (a.inst.getD i) }
  | _, _ => s

/-- A class-K counter raised by 1. -/
def State.bump (s : State) (f : Field) (i : Nat := 0) (a : Attr := {}) : State := s.bumpBy f i 1 a

/-! ### Events and interrupts (R382) -/

/-- One EVENT register and the field that enables its bits. -/
structure EventReg where
  block : Nat
  addr : Nat
  stride : Nat
  count : Nat
  en : Field

/-- The EVENT registers of the blocks and their enables. -/
def eventRegs : List EventReg :=
  [⟨0, 0x44, 0, 1, TOP_IRQ_EN_EN⟩, ⟨0, 0x144, 0, 1, TOP_HW_IRQ_EN_EN⟩, ⟨1, 0x100044, 0, 1, RTU_IRQ_EN_EN⟩,
   ⟨2, 0x200038, 0, 1, CFG_IRQ_EN_EN⟩, ⟨3, 0x400044, 0x10000, 32, NLT_IRQ_EN_EN⟩, ⟨4, 0x800054, 0, 1, CTX_IRQ_EN_EN⟩,
   ⟨5, 0xC00054, 0, 1, CMD_IRQ_EN_EN⟩, ⟨6, 0x1000054, 0, 1, BNC_IRQ_EN_EN⟩, ⟨7, 0x1400044, 0, 1, CAB_IRQ_EN_EN⟩,
   ⟨8, 0x1800044, 0, 1, SCH_IRQ_EN_EN⟩, ⟨9, 0x1C00044, 0, 1, CPH_IRQ_EN_EN⟩, ⟨10, 0x2000044, 0, 1, PAR_IRQ_EN_EN⟩,
   ⟨10, 0x2000844, 0, 1, PAR_RB_IRQ_EN_EN⟩, ⟨11, 0x2400044, 0, 1, LDG_IRQ_EN_EN⟩,
   ⟨12, 0x2800044, 0x10000, 48, DRV_IRQ_EN_EN⟩, ⟨12, 0x2B00044, 0, 1, DRV_GIRQ_EN_EN⟩, ⟨13, 0x2C00044, 0, 1, SBD_IRQ_EN_EN⟩,
   ⟨14, 0x3000144, 0, 1, ARB_IRQ_EN_EN⟩, ⟨15, 0x3102044, 0, 1, LCK_IRQ_EN_EN⟩, ⟨16, 0x3400044, 0, 1, HNG_IRQ_EN_EN⟩,
   ⟨17, 0x3800044, 0, 1, SLP_IRQ_EN_EN⟩, ⟨18, 0x3C00044, 0, 1, MEP_IRQ_EN_EN⟩, ⟨19, 0x3D00044, 0, 1, FWU_IRQ_EN_EN⟩,
   ⟨20, 0x3E00044, 0, 1, EVR_IRQ_EN_EN⟩, ⟨21, 0x3F00044, 0, 1, PMC_IRQ_EN_EN⟩]

/-- A field value `v` at key `k` is an event bit of register `e` whose enable is set. -/
def State.enabledEvent (s : State) (e : EventReg) (k v : Nat) : Bool :=
  let byte := k / 8
  let i := if e.stride = 0 then 0 else (byte - e.addr) / e.stride
  let lo := k - 8 * (e.addr + e.stride * i)
  decide (e.addr ≤ byte) && decide (i < e.count) && decide (lo < 32) &&
    (v * 2 ^ lo) &&& s.reg e.en i != 0

/-- The level of block `b`'s interrupt: some EVENT bit with its IRQ_EN bit set is 1 (R382). -/
def State.blockLevel (s : State) (b : Nat) : Bool :=
  let es := eventRegs.filter fun e => e.block == b
  s.regs.live.any fun kv => es.any fun e => s.enabledEvent e kv.1 kv.2

/-- The level of vector `v`: the OR of the blocks mapped to it (R382). -/
def State.vectorLevel (s : State) (v : Nat) : Bool :=
  (List.range 22).any fun b => s.reg MEP_VECMAP_VEC b == v && s.blockLevel b

/-- Whether a message of vector `v` can leave now (R379, R382). -/
def State.canSendMsix (s : State) (v : Nat) : Bool :=
  s.flag MEP_LINK_MSIX && s.flag MEP_LINK_BME && !s.flag MSIX_TABLE_MASK v && !s.mep.d3 && s.flag MEP_LINK_UP

/-- Send vector `v`'s pending message if it can leave: clear the pending bit, disarm the vector, leave L1 (R381, R382). -/
def State.sendMsix (s : State) (v : Nat) : State :=
  if bitOf (s.reg MEP_VEC_PEND_PEND) v ∧ s.canSendMsix v then
    let s := s.setReg MEP_VEC_PEND_PEND 0 (s.reg MEP_VEC_PEND_PEND - 2 ^ v)
    let s := { s with mep := { s.mep with
      disarmed := s.mep.disarmed ||| 2 ^ v,
      lastMsix := some (v, s.reg MSIX_TABLE_ADDR v, s.reg MSIX_TABLE_DATA v) } }
    (s.setFlag MEP_LINK_L1 0 false).bump MEP_MSIX_SENT
  else s

/-- An armed vector whose level is 1 becomes pending and is sent if it can be (R382). -/
def State.serviceVector (s : State) (v : Nat) : State :=
  if bitOf s.mep.disarmed v then s
  else if s.vectorLevel v then
    let s := if bitOf (s.reg MEP_VEC_PEND_PEND) v then s
      else { s.setReg MEP_VEC_PEND_PEND 0 (s.reg MEP_VEC_PEND_PEND + 2 ^ v) with
        mep := { s.mep with due := s.mep.due ||| 2 ^ v } }
    s.sendMsix v
  else s

/-- IRQ_N is pulled low: some vector whose MEP_IRQ_PIN bit is 1 has level 1, whatever MSI-X, Bus Master Enable and the
arming of vectors are. -/
def State.irqLow (s : State) : Bool :=
  (List.range 64).any fun v => bitOf (s.reg MEP_IRQ_PIN_MASK) v && s.vectorLevel v

/-- Service every vector: after a switch changed enables or the map (R382). -/
def State.serviceAll (s : State) : State := (List.range 64).foldl State.serviceVector s

/-- Event bits set in event field `f` of instance `i`, the block's interrupt following its level (R382). -/
def State.raiseBits (s : State) (f : Field) (i v : Nat) : State :=
  let s := s.setReg f i (s.reg f i ||| v)
  match blockOf f.addr with
  | some b => s.serviceVector (s.reg MEP_VECMAP_VEC b)
  | none => s

/-- One event bit set. -/
def State.raise (s : State) (f : Field) (i : Nat := 0) : State := s.raiseBits f i 1

/-! ### The error log (R54) -/

/-- Log a refused access or rejected command: an entry, or a lost count where the log is full. An access outside the 64 MiB
space belongs to no block: its entry names block 0 and the address modulo 2^26 (DESIGN CHOICE, log entry 99). -/
def State.logErr (s : State) (code : Nat) (p : Path) (addr : Nat) (rule : Nat := 0) : State :=
  if s.cfg.errlog.length < 64 then
    let e : ErrEntry := { code := code, path := p.idx, block := (blockOf addr).getD 0, rule := rule,
                          unsync := s.unsync, addr := addr, time := s.stamp }
    { s with cfg := { s.cfg with errlog := s.cfg.errlog ++ [e] } }.raise CFG_EVENT_ERRLOG
  else (s.bump CFG_ERRLOG_LOST).raise CFG_EVENT_LOST

/-- The four words of an entry as one number (R54). -/
def ErrEntry.value (e : ErrEntry) : Nat :=
  (2 ^ 24 * e.code + 2 ^ 22 * e.path + 2 ^ 16 * e.block + e.rule * 2 ^ 8 + (Bool.nat e.unsync) * 2 ^ 7)
    + 2 ^ 32 * (e.addr % 2 ^ 26) + 2 ^ 64 * (e.time % 2 ^ 64)

/-! ### Event records (R404 to R409) -/

/-- The bytes a record takes: header and body (R404). -/
def Rec.size (r : Rec) : Nat := 16 + r.body.length

/-- The bytes a list of records takes. -/
def recBytes (rs : List Rec) : Nat := (rs.map Rec.size).sum

/-- A record's bytes (R404). -/
def Rec.bytes (r : Rec) : List Byte :=
  leBytes 2 r.body.length ++ [BitVec.ofNat 8 r.typ,
    BitVec.ofNat 8 (r.sev * 64 + Bool.nat r.unsync * 32 + r.source)] ++ leBytes 4 r.seq ++ leBytes 8 r.time ++ r.body

/-- The severity that starts a flush: EVR_CFG.LEVEL, 0 acting as 3 (R409). -/
def State.flushLevel (s : State) : Nat := if s.reg EVR_CFG_LEVEL = 0 then 3 else s.reg EVR_CFG_LEVEL

/-- Ring bytes above which records move to the overflow area: SPILL_MARK in 64 KiB units, 16 to 63 (R407). -/
def State.spillMark (s : State) : Nat := 65536 * min 63 (max 16 (s.reg EVR_CFG_SPILL_MARK))

/-- The records from the front of `rs` whose bytes reach `n`, and the rest. -/
def takeRun (n : Nat) : List Rec → List Rec × List Rec
  | [] => ([], [])
  | r :: rs =>
    if n ≤ r.size then ([r], rs) else
      let (a, b) := takeRun (n - r.size) rs
      (r :: a, b)

/-- Move one 64 KiB run of the oldest records to the overflow area, and discard its oldest records beyond 448 MiB (R407)
(DEDUCED, log entry 31). -/
def Evr.spillRun (e : Evr) : Evr × Nat × List Rec :=
  let (out, rest) := takeRun 65536 e.ring
  let held := e.overflow ++ out
  let (gone, kept) := if recBytes held ≤ 448 * 2 ^ 20 then ([], held) else takeRun (recBytes held - 448 * 2 ^ 20) held
  ({ e with ring := rest, overflow := kept }, recBytes out / 1024, gone)

/-- Records not yet flushed. -/
def Evr.unflushed (e : Evr) : List Rec :=
  (e.overflow ++ e.ring).filter fun r => !e.flushedRecs.contains r.seq

/-- A flush with cause `c` starts, or follows the one that runs (R409). -/
def State.startFlush (s : State) (c : Nat) : State :=
  if s.evr.flushing then { s with evr := { s.evr with flushAgain := some (s.evr.flushAgain.getD c) } }
  else
    let seqs := s.evr.unflushed.map (·.seq)
    { s with evr := { s.evr with flushing := true, flushCause := c, flushNs := s.ns, range := seqs } }.setFlag
      EVR_STATUS_FLUSHING 0 true

/-- A record of the control cycle in which a flush starts is in that flush's range (R418) (DEDUCED, log entry 79). -/
def Evr.joinRange (e : Evr) (ns seq : Nat) : Evr :=
  if e.flushing && e.flushNs == ns then { e with range := e.range ++ [seq] } else e

/-- A record of the level that EVR_CFG names, or above, starts a flush (R409). -/
def State.flushSevere (s : State) (sev : Nat) : State :=
  if sev ≥ s.flushLevel then (s.raise EVR_EVENT_SEVERE).startFlush 1 else s

/-- Records lost after they were written: the run of losses that the next record reports, its cause 2 (R407)
(DEDUCED, log entry 31). -/
def State.loseRecords (s : State) (lost : List Rec) : State :=
  match lost with
  | [] => s
  | g :: _ =>
    let e := { s.evr with lossFirst := g.seq, lossCount := s.evr.lossCount + lost.length, lossCause := 2 }
    ({ s with evr := e }.bumpBy EVR_LOST 0 lost.length {}).raise EVR_EVENT_LOST

/-- Above the mark a run moves to the overflow area; what leaves that area without a flush is lost (R407)
(DEDUCED, log entry 31). -/
def State.spillRing (s : State) : State :=
  if recBytes s.evr.ring > s.spillMark then
    let (e, kib, gone) := s.evr.spillRun
    ({ s with evr := e }.bumpBy EVR_SPILLED 0 kib {}).loseRecords (gone.filter fun g => !e.flushedRecs.contains g.seq)
  else s

/-- Unflushed bytes above FLUSH_MARK start a flush (R409). -/
def State.flushMarked (s : State) : State :=
  let mark := s.reg EVR_CFG_FLUSH_MARK
  if mark ≠ 0 ∧ recBytes s.evr.unflushed > 2 ^ 20 * mark then s.startFlush 4 else s

/-- A record that found no room is counted and reported (R407). -/
def State.loseRecord (s : State) (r : Rec) : State :=
  let first := if s.evr.lossCount = 0 then r.seq else s.evr.lossFirst
  let s := { s with evr := { s.evr with lossFirst := first, lossCount := s.evr.lossCount + 1, lossCause := 1 } }
  (s.bump EVR_LOST).raise EVR_EVENT_LOST

/-- Write a finished record into the ring, or count it lost where the ring is full (R407). -/
def State.putRec (s : State) (r : Rec) : State :=
  let s := s.setReg EVR_SEQ_SEQ 0 (s.reg EVR_SEQ_SEQ + 1)
  if recBytes s.evr.ring + r.size ≤ 4 * 2 ^ 20 then
    let e := { s.evr with ring := s.evr.ring ++ [r] }.joinRange s.ns r.seq
    (((({ s with evr := e }.bump EVR_RECORDS).flushSevere r.sev).spillRing).flushMarked)
  else s.loseRecord r

/-- A body of a record padded with zeros to a multiple of 8 bytes, at least 8, at most 1,024 (R404)
(DEDUCED, log entry 80). -/
def padBody (b : List Byte) : List Byte :=
  (b ++ List.replicate (max 8 ((b.length + 7) / 8 * 8) - b.length) 0).take 1024

/-- A record of type `typ` at this instant, under the next SEQ (R404, R406). -/
def State.newRec (s : State) (typ sev source : Nat) (body : List Byte) : Rec :=
  { seq := s.reg EVR_SEQ_SEQ, typ := typ, sev := sev, unsync := s.unsync, source := source, time := s.stamp,
    body := padBody body }

/-- EVR_FLUSHED follows: the highest SEQ up to which every record is flushed or reported lost (R409). -/
def State.showFlushed (s : State) : State :=
  let next := s.reg EVR_SEQ_SEQ
  let far (n : Nat) : Nat := (2 ^ 32 + next - n) % 2 ^ 32
  let held := (s.evr.unflushed.head?.map fun r => far r.seq).getD 0
  let lost := if s.evr.lossCount = 0 then 0 else far s.evr.lossFirst
  s.setReg EVR_FLUSHED_SEQ 0 ((2 ^ 33 + next - max held lost - 1) % 2 ^ 32)

/-- A run of losses is reported as soon as the ring has room (R407). -/
def State.reportLoss (s : State) : State :=
  if s.evr.lossCount ≠ 0 ∧ recBytes s.evr.ring + 32 ≤ 4 * 2 ^ 20 then
    let loss := leBytes 4 s.evr.lossFirst ++ leBytes 4 s.evr.lossCount ++ [BitVec.ofNat 8 s.evr.lossCause]
    ({ s with evr := { s.evr with lossCount := 0 } }.putRec (s.newRec 0x02 2 bEVR loss)).showFlushed
  else s

/-- Write an event record of the given type, severity and source (R404 to R406); a run of losses is reported beside it. -/
def State.record (s : State) (typ sev source : Nat) (body : List Byte) : State :=
  let s := s.reportLoss
  (s.putRec (s.newRec typ sev source body)).reportLoss

/-- One byte of a record's body. -/
def b8 (n : Nat) : Byte := BitVec.ofNat 8 n

/-! ### What a command may act on -/

/-- The device is held in reset: it ignores what reaches it, but for the reset pins and power (R432)
(DESIGN CHOICE, log entry 16) (DESIGN CHOICE, log entry 89). -/
def State.held (s : State) : Bool := s.top.phase != .run

/-- `t` with the queue of `s`: a command's effect is on everything but the queue of those that wait. -/
def State.keepQueue (t s : State) : State := { t with pending := s.pending }

/-- The part is in recovery, in which no other block runs (R395) (DESIGN CHOICE, log entry 89). -/
def State.inRecovery (s : State) : Bool := s.reg FWU_STATUS_BOOT != 0

/-- The path may reach block `b` (R56); in recovery MGMT reaches the FWU block alone (R397). -/
def State.pathAllows (s : State) (p : Path) (write : Bool) (b : Nat) : Bool :=
  (p == .bureau || bitOf (if write then s.reg CFG_PATH_WR_ALLOW p.idx else s.reg CFG_PATH_RD_ALLOW p.idx) b) &&
    !(p == .mgmt && s.inRecovery && b != bFWU)

/-- A write or read through path `p` at `addr` of a block, under the order of R56: JTAG while debug is locked never
arrives; a forbidden path is logged with code 0x05; otherwise it acts. -/
def State.viaWrite (s : State) (p : Path) (addr : Nat) (f : State → State) : State :=
  if p = .jtag ∧ !s.flag FWU_DBG_CMD_UNLOCKED then s
  else if !s.pathAllows p true ((blockOf addr).getD 0) then
    s.logErr 0x05 p addr
  else f s

/-- What a read of path `p` answers (DESIGN CHOICE, log entry 18). -/
def State.answerRead (s : State) (p : Path) (ws : List Nat) : State :=
  { s with out := { s.out with lastRead := SMap.put p.idx ws s.out.lastRead } }

/-- A read through path `p` at `addr` of a block, under the order of R56: it answers 0 where JTAG is locked or the path is
forbidden, the latter logged with code 0x05; otherwise it acts. -/
def State.viaRead (s : State) (p : Path) (addr : Nat) (f : State → State) : State :=
  if p = .jtag ∧ !s.flag FWU_DBG_CMD_UNLOCKED then s.answerRead p [0]
  else if !s.pathAllows p false ((blockOf addr).getD 0) then
    (s.logErr 0x05 p addr).answerRead p [0]
  else f s

/-! ### START and STOP of a block (R430, R451) -/

/-- A refused START: logged with its code, the block's own refusal event set (R430, R451). -/
def State.refuseStart (s : State) (p : Path) (addr code : Nat) (ev : Field) (i : Nat) : State :=
  (s.logErr code p addr).raise ev i

/-- START of block `b` (R451, R430): no effect where it runs or in recovery (R395), refused with code 0x0D while a block it
needs is stopped, else it runs and `act` follows. -/
def State.startBlock (s : State) (p : Path) (addr b : Nat) (ev : Field) (needs : List Nat) (act : State → State) :
    State :=
  if s.runs b ∨ s.inRecovery then s
  else if !needs.all s.runs then s.refuseStart p addr 0x0D ev 0
  else act (s.setRuns b true)

/-- STOP of block `b` (R451): no effect where it is stopped, refused with its event where `refused`, else it stops and
`act` follows. -/
def State.stopBlock (s : State) (b : Nat) (refused : Bool) (ev : Field) (act : State → State) : State :=
  if !s.runs b then s
  else if refused then s.raise ev
  else act (s.setRuns b false)

end Sys2Proof.Machine
end

