-- ==== Sys2Proof/Machine/Sideboard.lean ====
section
/-! DEFINITION. The Sideboard: its memory and address map, the three arbiters and their seats, the BAR2 window, and the
256 hardware locks (R314 to R333). -/

namespace Sys2Proof.Machine

open Sys2Proof.Reg

/-! ### The address map (R314) -/

/-- Bytes of the Sideboard: addresses from 0 to 0xB_FFFF_FFFF. -/
def sbdSize := 0xC00000000
/-- The lock window's base (R325). -/
def lockWindow := 0x0FFF0000
/-- Bases of R314's areas. -/
def contextBase := 0x10000000
def frameBase := 0x14000000
def regionBase := 0x18000000
def ledgerBase := 0x1A000000
def snapshotBase := 0x1E000000
def overflowBase := 0x20000000
def handlerPool := 0x100000000
def hostArea := 0x200000000
def hostAreaSize := 0x200000000
def spillBase := 0x400000000

/-- `n` bytes of the Sideboard. -/
def State.sbRead (s : State) (a n : Nat) : List Byte := s.sbd.mem.readAll a n

/-- Bytes of the staging area: the first 64 MiB of the host area (R396). -/
def stagingSize := 0x4000000

/-- The staged image is no longer a verified one (R398). -/
def State.endVerified (s : State) : State :=
  ((s.setFlag FWU_STATUS_VERIFIED 0 false).setReg FWU_VER_STAGED 0 0).setReg FWU_SVN_STAGED 0 0

/-- Staging was written: a VERIFY that runs ends with result 6, and a staged image must be verified again (R398, R402)
(DEDUCED, log entry 64). -/
def State.stagingWritten (s : State) : State :=
  let job := s.fwu.job.map fun j => { j with dirtied := true }
  { s with fwu := { s.fwu with job := job } }.endVerified

/-- Bytes stored in the Sideboard (DEDUCED, log entry 64). -/
def State.sbWrite (s : State) (a : Nat) (bs : List Byte) : State :=
  let s := { s with sbd := { s.sbd with mem := Mem.writeAll a bs s.sbd.mem } }
  if a < hostArea + stagingSize ∧ hostArea < a + bs.length then s.stagingWritten else s

/-! ### Arbiters (R319 to R323) -/

/-- Requester codes of arbiters 0 and 1 (R319). -/
def reqBUR := 0
def reqBNC := 1
def reqFRM := 2
def reqXLT := 3
def reqCTX := 4
def reqLDG := 5
def reqHNG := 6
def reqSPL := 7
def reqSTG := 8
def reqMEP := 9
def reqEVR := 10
def reqPMC := 11

/-- The seat that requester `code` holds on arbiter `a` in the map in force (R319, R323). -/
def State.seatOf (s : State) (a code : Nat) : Option Nat :=
  (List.range 16).find? fun k => s.reg ARB_SEAT_REQ (16 * a + k) == code

/-- The queue of a seat. -/
def State.seatQueue (s : State) (a k : Nat) : List Burst := SMap.get [] s.sbd.queue (16 * a + k)

/-- A seat's queue replaced; an empty queue is not listed. -/
def State.setSeatQueue (s : State) (a k : Nat) (q : List Burst) : State :=
  let m := if q = [] then SMap.del (16 * a + k) s.sbd.queue else SMap.put (16 * a + k) q s.sbd.queue
  { s with sbd := { s.sbd with queue := m } }

/-- A seat is masked (R322). -/
def State.masked (s : State) (a k : Nat) : Bool := bitOf (s.reg ARB_MASKED_SEAT a) k

/-- A seat's starvation counter. -/
def State.starve (s : State) (a k : Nat) : Nat := SMap.get 0 s.sbd.starve (16 * a + k)

/-- A seat's starvation counter set; 0 is not listed. -/
def State.setStarve (s : State) (a k v : Nat) : State :=
  { s with sbd := { s.sbd with starve := storeField 0 (16 * a + k) v s.sbd.starve } }

/-- The starvation threshold of an arbiter, 0 acting as 1 (R332). -/
def State.starveTh (s : State) (a : Nat) : Nat := max 1 (s.reg ARB_STARVE_TH_BURSTS a)

/-- A burst went to another seat while seat `k` had a request pending (R321). -/
def State.starveSeat (s : State) (a k : Nat) : State :=
  let v := min (2 ^ 20 - 1) (s.starve a k + 1)
  let s := s.setStarve a k v
  let s := s.setReg ARB_WAITMAX_BURSTS (16 * a + k) (max v (s.reg ARB_WAITMAX_BURSTS (16 * a + k)))
  if v = s.starveTh a ∧ !bitOf (s.reg ARB_STARVED_SEAT a) k then
    let s := s.setReg ARB_STARVED_SEAT a (s.reg ARB_STARVED_SEAT a ||| 2 ^ k)
    let s := s.raiseBits ARB_EVENT_STARVE 0 (2 ^ a)
    s.record 0x72 1 bARB ([b8 a, b8 k, b8 (s.reg ARB_SEAT_REQ (16 * a + k)), 0] ++ leBytes 4 v)
  else s

/-- Seats of arbiter `a` with a request pending that may be granted. -/
def State.pendingSeats (s : State) (a : Nat) : List Nat :=
  (List.range 16).filter fun k => !s.masked a k && (s.seatQueue a k) != []

/-- A burst is granted to seat `k`: counted, its counter cleared, every other waiting seat's counter raised (R320,
R321). -/
def State.countGrant (s : State) (a k : Nat) : State :=
  let s := (s.bump ARB_GRANTS (16 * a + k) (burstAttr (s.reg ARB_SEAT_REQ (16 * a + k)))).setStarve a k 0
  ((s.pendingSeats a).filter (· != k)).foldl (fun s j => s.starveSeat a j) s

/-- The burst at the head of seat `k`'s queue is granted and performed. -/
def State.grantSeat (s : State) (a k : Nat) : State :=
  match s.seatQueue a k with
  | [] => s
  | b :: rest => ((s.setSeatQueue a k rest).sbWrite b.addr b.data).countGrant a k

/-- The highest-numbered unmasked seat with a request pending (R320). -/
def State.nextSeat (s : State) (a : Nat) : Option Nat := (s.pendingSeats a).getLast?

/-- One decision of arbiter `a` (R320) (DESIGN CHOICE, log entry 25). -/
def State.arbitrate (s : State) (a : Nat) : State :=
  match s.nextSeat a with
  | some k => s.grantSeat a k
  | none => s

/-- Grants of arbiter `a` until nothing waits in seat `k` or in a seat above it: what a request newly made at seat `k`
waits for (R317, R320) (DESIGN CHOICE, log entry 25). -/
def drainSeats (a k : Nat) : Nat → State → State
  | 0, s => s
  | n + 1, s =>
    match s.nextSeat a with
    | some j => if k ≤ j then drainSeats a k n (s.grantSeat a j) else s
    | none => s

/-- A load or an AADD of requester `code` at address `addr` gets its grant (R317, R320)
(DESIGN CHOICE, log entry 25). -/
def State.loadGrant (s : State) (code addr : Nat) : State :=
  let a := addr / 256 % 2
  match s.seatOf a code with
  | some k => (drainSeats a k 1024 s).countGrant a k
  | none => s

/-- Every store that requester `code` has posted is visible: both stacks have acknowledged (R317: MFENCE, PARK). -/
def State.fenceStores (s : State) (code : Nat) : State :=
  [0, 1].foldl (fun s a =>
    match s.seatOf a code with
    | some k => if s.seatQueue a k = [] then s else drainSeats a k 1024 s
    | none => s) s

/-- Requester `code`'s queue of 64 entries for address `addr` is full: the requester stalls (R320). -/
def State.storeStalls (s : State) (code addr : Nat) : Bool :=
  match s.seatOf (addr / 256 % 2) code with
  | some k => decide (64 ≤ (s.seatQueue (addr / 256 % 2) k).length)
  | none => false

/-- A posted store of requester `code` joins its seat's queue; a masked seat discards it (R320, R322)
(DESIGN CHOICE, log entry 25). -/
def State.postStore (s : State) (code addr : Nat) (bs : List Byte) (thread : Nat) : State :=
  let a := addr / 256 % 2
  match s.seatOf a code with
  | some k =>
    if s.masked a k then s
    else s.setSeatQueue a k (s.seatQueue a k ++ [{ addr := addr, data := bs, thread := thread }])
  | none => s.sbWrite addr bs

/-- A block's mask sideband asserts (R322): the seat takes no grant, its queue is discarded, its counter is 0. -/
def State.maskSeat (s : State) (a k : Nat) : State :=
  ((s.setReg ARB_MASKED_SEAT a (s.reg ARB_MASKED_SEAT a ||| 2 ^ k)).setSeatQueue a k []).setStarve a k 0

/-- The sideband deasserts (R322): the seat starts with an empty queue. -/
def State.unmaskSeat (s : State) (a k : Nat) : State :=
  if s.masked a k then (s.setReg ARB_MASKED_SEAT a (s.reg ARB_MASKED_SEAT a - 2 ^ k)).setSeatQueue a k [] else s

/-! ### START, STOP and the BAR2 window (R316, R331) -/

/-- SBD_CMD.START (R331, R430, R451). -/
def State.sbdDoStart (s : State) (p : Path) : State := s.startBlock p SBD_CMD_START.addr bSBD SBD_EVENT_CMD_REFUSED [] id

/-- SBD_CMD.STOP: refused while the block runs (R331). -/
def State.sbdDoStop (s : State) : State := s.stopBlock bSBD true SBD_EVENT_CMD_REFUSED id

/-- The Sideboard address of a BAR2 offset: the window's base in units of 256 MiB, above 0xBF acting as 0xBF (R316). -/
def State.bar2Addr (s : State) (off : Nat) : Nat := 2 ^ 28 * min 0xBF (s.reg SBD_BAR2_BASE_BASE) + off

/-- A byte as BAR2 reads it: the Bureau area and what lies at or above 48 GiB read 0 (R316). -/
def State.bar2Byte (s : State) (a : Nat) : Byte :=
  if a < contextBase ∨ sbdSize ≤ a then 0 else s.sbd.mem.read a

/-- A BAR2 read (R316). -/
def State.bar2Read (s : State) (off len : Nat) : State :=
  { s with out := { s.out with bar2 := some ((List.range len).map fun k => s.bar2Byte (s.bar2Addr off + k)) } }

/-- A BAR2 write: performed in the host area, elsewhere discarded and counted (R316). -/
def State.bar2Write (s : State) (off : Nat) (data : List Byte) : State :=
  if hostArea ≤ s.bar2Addr off ∧ s.bar2Addr off + data.length ≤ hostArea + hostAreaSize then
    s.sbWrite (s.bar2Addr off) data
  else (s.bump SBD_BAR2_REFUSED 0 (burstAttr reqMEP)).raise SBD_EVENT_BAR2_REFUSED

/-! ### Hardware locks (R324 to R330) -/

end Sys2Proof.Machine

namespace Sys2Proof

/-- The owner's KIND (R324). -/
def LockOwner.kind : LockOwner → Nat
  | .bench _ => 1
  | .bureau _ => 2
  | .bar0 => 3
  | .mgmt _ => 4
  | .jtag => 5

/-- The owner's identity (R324). -/
def LockOwner.ident : LockOwner → Nat
  | .bench f => f
  | .bureau t => t
  | .bar0 => 0
  | .mgmt c => c
  | .jtag => 0

/-- The register path of an owner that uses LCK_CMD (R325). -/
def LockOwner.path : LockOwner → Option Path
  | .bar0 => some .bar0
  | .mgmt _ => some .mgmt
  | .jtag => some .jtag
  | _ => none

end Sys2Proof

namespace Sys2Proof.Machine

open Sys2Proof.Reg

/-- Lock states (R333). -/
def lockFree := 0
def lockHeld := 1
def lockAbandoned := 2

/-- A command of `who` reaches lock hardware through its path: the window for Bench and Bureau, LCK_CMD under the order
of R56 for the others (R325). -/
def State.viaLock (s : State) (who : LockOwner) (addr : Nat) (f : State → State) : State :=
  match who.path with
  | some p => s.viaWrite p addr f
  | none => f s

/-- The attributes of what a lock's owner causes: a command's, the Bureau's burst, or the access to LCK_CMD of its path (R325,
R413) (DEDUCED, log entry 109). -/
def LockOwner.attr (who : LockOwner) (n : Nat) (s : State) : Attr :=
  match who, who.path with
  | .bench f, _ => s.cmdAttr (some f)
  | _, some p => accessAttr p (LCK_LOCK_OP.addr + 0x20 * n + 8)
  | _, none => burstAttr reqBUR

/-- The lock `n` is granted to `who` (R326). -/
def State.grantLock (s : State) (who : LockOwner) (n : Nat) (recover : Bool) : State :=
  let s := (s.setReg LCK_LOCK_STATE n lockHeld).setFlag LCK_LOCK_RECOVER n recover
  let s := (s.setReg LCK_LOCK_KIND n who.kind).setReg LCK_LOCK_ID n who.ident
  ((s.setReg LCK_LOCK_GEN n ((s.reg LCK_LOCK_GEN n + 1) % 2 ^ 24)).setReg LCK_LOCK_HELD n 0).bump LCK_ACQUIRES 0 (LockOwner.attr who n s)

/-- Keep the result of an acquire: the result word of the window, and LCK_RESULT for a register path (R325, R326). -/
def State.lockAnswer (s : State) (who : LockOwner) (outcome gen word : Nat) : State :=
  let s := { s with out := { s.out with lockResult := SMap.put who.kind word s.out.lockResult } }
  match who.path with
  | some p => (s.setReg LCK_RESULT_OUTCOME p.idx outcome).setReg LCK_RESULT_GEN p.idx gen
  | none => s

/-- An acquire as the lock's state decides it (R326); the result word lies in `out.lockResult`. -/
def State.acquireLock (s : State) (who : LockOwner) (n : Nat) : State :=
  if s.reg LCK_LOCK_STATE n = lockHeld then
    let gen := s.reg LCK_LOCK_GEN n
    let word := 2 * 2 ^ 62 + 2 ^ 56 * s.reg LCK_LOCK_KIND n + 2 ^ 32 * s.reg LCK_LOCK_ID n + gen
    (s.bump LCK_BUSY 0 (LockOwner.attr who n s)).lockAnswer who 2 gen word
  else
    let ab := s.reg LCK_LOCK_STATE n == lockAbandoned
    let s := s.grantLock who n ab
    let gen := s.reg LCK_LOCK_GEN n
    s.lockAnswer who (Bool.nat ab) gen (2 ^ 62 * Bool.nat ab + gen)

/-- `who` owns lock `n` and carries its current GEN (R327). -/
def State.ownsLock (s : State) (who : LockOwner) (n gen : Nat) : Bool :=
  s.reg LCK_LOCK_STATE n == lockHeld && s.reg LCK_LOCK_KIND n == who.kind && s.reg LCK_LOCK_ID n == who.ident &&
    s.reg LCK_LOCK_GEN n == gen

/-- A release, renew or clean: acts for the owner with the current GEN, else counted stale (R327). -/
def State.ownerAct (s : State) (who : LockOwner) (n gen : Nat) (f : State → State) : State :=
  if s.ownsLock who n gen then f s else (s.bump LCK_STALE 0 (LockOwner.attr who n s)).raise LCK_EVENT_STALE

/-- Lock `n` becomes FREE: no owner, no recovery owed (R327). -/
def State.freeLock (s : State) (n : Nat) : State :=
  (((s.setReg LCK_LOCK_STATE n lockFree).setFlag LCK_LOCK_RECOVER n false).setReg LCK_LOCK_KIND n 0).setReg
    LCK_LOCK_ID n 0 |>.setReg LCK_LOCK_HELD n 0

/-- Release (R327). -/
def State.releaseLock (s : State) (who : LockOwner) (n gen : Nat) : State := s.ownerAct who n gen (·.freeLock n)
/-- Renew the lease (R327, R329). -/
def State.renewLock (s : State) (who : LockOwner) (n gen : Nat) : State :=
  s.ownerAct who n gen (·.setReg LCK_LOCK_HELD n 0)
/-- Clean: clear RECOVER (R327). -/
def State.cleanLock (s : State) (who : LockOwner) (n gen : Nat) : State :=
  s.ownerAct who n gen (·.setFlag LCK_LOCK_RECOVER n false)

/-- The word a load at +0x20 returns: bits 31:0 as LCK_STATE, bits 55:32 as LCK_GEN (R325). -/
def State.lockWord (s : State) (n : Nat) : Nat :=
  2 ^ 30 * s.reg LCK_LOCK_STATE n + 2 ^ 29 * s.reg LCK_LOCK_RECOVER n + 2 ^ 24 * s.reg LCK_LOCK_KIND n +
    s.reg LCK_LOCK_ID n + 2 ^ 32 * s.reg LCK_LOCK_GEN n

/-- A HELD lock becomes ABANDONED (R328): cause 1 owner reset, fault or frame freed, 2 lease, 3 force, 4 block reset. -/
def State.abandonLock (s : State) (n cause : Nat) : State :=
  if s.reg LCK_LOCK_STATE n = lockHeld then
    let kind := s.reg LCK_LOCK_KIND n
    let owner := s.reg LCK_LOCK_ID n
    let s := (s.setReg LCK_LOCK_STATE n lockAbandoned).setReg LCK_LOCK_KIND n 0
    let s := (s.setReg LCK_LOCK_ID n 0).bump LCK_ABANDONS
    let s := s.raise LCK_EVENT_ABANDONED
    s.record 0x71 1 bLCK
      ([b8 n, b8 cause, b8 kind, 0] ++ leBytes 4 owner ++ leBytes 4 (s.reg LCK_LOCK_GEN n))
  else s

/-- Every lock that satisfies `p` and is HELD becomes ABANDONED (R328). -/
def State.abandonWhere (s : State) (cause : Nat) (p : State → Nat → Bool) : State :=
  (List.range 256).foldl (fun t n => if p t n then t.abandonLock n cause else t) s

/-- Every lock of an owner becomes ABANDONED (R328). -/
def State.abandonOwner (s : State) (who : LockOwner) : State :=
  s.abandonWhere 1 fun t n => t.reg LCK_LOCK_KIND n == who.kind && t.reg LCK_LOCK_ID n == who.ident

/-- Every lock of a kind of owner becomes ABANDONED (R328). -/
def State.abandonKind (s : State) (kind : Nat) : State :=
  s.abandonWhere 1 fun t n => t.reg LCK_LOCK_KIND n == kind

/-- LCK_CMD's byte address of lock `n` (R333). -/
def lockCmdAddr (n : Nat) : Nat := 0x3100008 + 0x20 * n

/-- OP 5: accepted from the Bureau alone, else logged with code 0x05; a FREE lock is left alone (R330, R333). -/
def State.forceLock (s : State) (p : Path) (n : Nat) : State :=
  if p = .bureau then s.abandonLock n 3 else s.logErr 0x05 p (lockCmdAddr n)

/-- A lock whose lease count has reached LEASE becomes ABANDONED (R329). -/
def State.expireLease (s : State) (n : Nat) : State :=
  if s.reg LCK_LOCK_STATE n = lockHeld ∧ s.reg LCK_LOCK_LEASE n ≠ 0 ∧ s.reg LCK_LOCK_LEASE n ≤ s.reg LCK_LOCK_HELD n then
    (s.abandonLock n 2).raise LCK_EVENT_LEASE
  else s

/-- At an epoch boundary every HELD lock with a lease counts one epoch (R329). -/
def State.countLeases (s : State) : State :=
  (List.range 256).foldl (fun s n =>
    if s.reg LCK_LOCK_STATE n = lockHeld ∧ s.reg LCK_LOCK_LEASE n ≠ 0 then
      s.setReg LCK_LOCK_HELD n (min 255 (s.reg LCK_LOCK_HELD n + 1)) else s) s

end Sys2Proof.Machine
end

