-- ==== Sys2Proof/Machine/Cabinet.lean ====
section
/-! DEFINITION. The Cabinet's operations: cells, quads, accounts, fill levels, groups and their bytes, freeing, the spill
area and the RED decision (R194 to R213). -/

namespace Sys2Proof.Machine

open Sys2Proof.Reg

/-- Cells on die (R194). -/
def cabCells := 655360
/-- Cells of one quad (R194). -/
def quadCells := 20480
/-- Highest number of groups: indexes 0 to 262,143 (R198). -/
def groupCount := 262144

/-! ### Levels (R202) -/

/-- CAB_RESERVE as it acts: 1,024 to 131,072 (R216). -/
def State.cabReserve (s : State) : Nat := min 131072 (max 1024 (s.reg CAB_RESERVE_CELLS))
/-- The usable level U. -/
def State.cabUsable (s : State) : Nat := cabCells - s.cabReserve
/-- F. -/
def State.fill (s : State) : Nat := s.reg CAB_FILL_CELLS
/-- The acting spill threshold. -/
def State.spillThreshold (s : State) : Nat := min (s.reg CAB_FILL_SPILL_CELLS) (cabCells - 65536 - s.cabReserve)
/-- The acting credit threshold. -/
def State.creditThreshold (s : State) : Nat := min (s.reg CAB_FILL_CREDIT_CELLS) s.spillThreshold
/-- The acting spill start. -/
def State.spillStart (s : State) : Nat := min (s.reg CAB_FILL_START_CELLS) s.spillThreshold
/-- CAB_WINDOW in cells: values below 16 act as 16 (R216). -/
def State.windowCells (s : State) : Nat := max 16 (s.reg CAB_WINDOW_CELLS)
/-- 64 KiB places of the spill area: CAB_SPILL_SIZE, at most 32,768 MiB (R314). -/
def State.spillPlaceCount (s : State) : Nat := min 32768 (s.reg CAB_SPILL_SIZE_MIB) * 16
/-- The spill engine has somewhere to write and a rate to write at (R209). -/
def State.canSpill (s : State) : Bool := s.reg CAB_SPILL_CFG_RATE != 0 && s.reg CAB_SPILL_SIZE_MIB != 0
/-- The spill area is full (R211). -/
def State.spillFull (s : State) : Bool := decide (s.spillPlaceCount ≤ s.cab.spillPlaces.length)

/-- F set: its peak, the stall event as it reaches the spill threshold, SPILL_FULL as the engine is to run with a full
area (R202, R211). -/
def State.setFill (s : State) (f : Nat) : State :=
  let old := s.fill
  let s := s.setReg CAB_FILL_CELLS 0 f
  let s := s.setReg CAB_PEAK_FILL 0 (max f (s.reg CAB_PEAK_FILL))
  let s := if old < s.spillThreshold ∧ s.spillThreshold ≤ f then s.raise CAB_EVENT_STALL else s
  if old < s.spillStart ∧ s.spillStart ≤ f ∧ s.canSpill ∧ s.spillFull then s.raise CAB_EVENT_SPILL_FULL else s

/-! ### Accounts (R199, R200) -/

/-- Account (port, class). -/
def accountOf (port cls : Nat) : Nat := 8 * port + cls

/-- Cells charged to an account, none being the system account. -/
def State.accFill (s : State) : Option Nat → Nat
  | some a => s.reg CAB_ACCFILL_CELLS a
  | none => s.cab.sysCells

/-- `n` more cells on die, charged to an account. -/
def State.charge (s : State) (acc : Option Nat) (n : Nat) : State :=
  let s := match acc with
    | some a => (s.setReg CAB_ACCFILL_CELLS a (s.reg CAB_ACCFILL_CELLS a + n)).setReg CAB_PORTFILL_CELLS (a / 8)
        (s.reg CAB_PORTFILL_CELLS (a / 8) + n)
    | none => { s with cab := { s.cab with sysCells := s.cab.sysCells + n } }
  s.setFill (s.fill + n)

/-- `n` cells fewer. -/
def State.uncharge (s : State) (acc : Option Nat) (n : Nat) : State :=
  let s := match acc with
    | some a => (s.setReg CAB_ACCFILL_CELLS a (s.reg CAB_ACCFILL_CELLS a - n)).setReg CAB_PORTFILL_CELLS (a / 8)
        (s.reg CAB_PORTFILL_CELLS (a / 8) - n)
    | none => { s with cab := { s.cab with sysCells := s.cab.sysCells - n } }
  s.setFill (s.fill - n)

/-- `n` more cells stay within the limits of the account and of its port (R200). -/
def State.withinLimits (s : State) (acc : Option Nat) (n : Nat) : Bool :=
  match acc with
  | some a =>
    decide (s.reg CAB_ACCFILL_CELLS a + n ≤ s.reg CAB_CLASSLIM_CELLS a) &&
      decide (s.reg CAB_PORTFILL_CELLS (a / 8) + n ≤ s.reg CAB_PORTLIM_CELLS (a / 8))
  | none => decide (s.cab.sysCells + n ≤ s.reg CAB_SYSLIM_CELLS)

/-- An arriving packet finds room: within its limits, and fill below the usable level (R201). -/
def State.arrivalFits (s : State) (acc n : Nat) : Bool :=
  s.withinLimits (some acc) n && decide (s.fill + n ≤ s.cabUsable)

/-- Cells a payload of `n` bytes takes. -/
def cellsOf (n : Nat) : Nat := (n + 255) / 256

/-! ### Cells, quads and banks (R194, R195) -/

/-- The bank of beat `b` of cell `n` (R194). -/
def cellBank (n b : Nat) : Nat := 4 * (n % 32) + b

/-- The row of cell `n` in its banks (R194). -/
def cellRow (n : Nat) : Nat := n / 32

/-- Cells in use of a quad. -/
def quadUse (m : SMap (List Nat)) (q : Nat) : Nat := (SMap.get [] m q).length

/-- The lowest number from `k` on that is not among rising `ks`. -/
def lowestFree (k : Nat) : List Nat → Nat
  | [] => k
  | j :: js => if j = k then lowestFree (k + 1) js else if j < k then lowestFree k js else k

/-- A number put into a rising list. -/
def insertRow (r : Nat) : List Nat → List Nat
  | [] => [r]
  | j :: js => if r < j then r :: j :: js else if r = j then j :: js else j :: insertRow r js

/-- A cell of quad `q` is taken, in its lowest free row (DESIGN CHOICE, log entry 14): its number. -/
def takeCell (m : SMap (List Nat)) (q : Nat) : Nat × SMap (List Nat) :=
  let rows := SMap.get [] m q
  let r := lowestFree 0 rows
  (32 * r + q, SMap.put q (insertRow r rows) m)

/-- Cell `n` is free again; a quad without a cell in use is not listed. -/
def freeCell (m : SMap (List Nat)) (n : Nat) : SMap (List Nat) :=
  match (SMap.get [] m (n % 32)).erase (cellRow n) with
  | [] => SMap.del (n % 32) m
  | rows => SMap.put (n % 32) rows m

/-- The first quad from `q` on that has a free cell, within `n` quads. -/
def findQuad (m : SMap (List Nat)) (q : Nat) : Nat → Option Nat
  | 0 => none
  | n + 1 => if quadUse m (q % 32) < quadCells then some (q % 32) else findQuad m (q + 1) n

/-- Cells `i` to `i + n - 1` of a group that begins at quad `q0`: the cells taken, the rows in use, and how often a quad
without a free cell was skipped (R195). -/
def takeQuads (q0 i : Nat) (m : SMap (List Nat)) (skips : Nat) : Nat → List Nat × SMap (List Nat) × Nat
  | 0 => ([], m, skips)
  | n + 1 =>
    let q := (q0 + i) % 32
    match findQuad m q 32 with
    | none => ([], m, skips)
    | some r =>
      let (c, m) := takeCell m r
      let (cs, m', k) := takeQuads q0 (i + 1) m (if r = q then skips else skips + 1) n
      (c :: cs, m', k)

/-- The quads with the most free cells (DESIGN CHOICE, log entry 14). -/
def emptiestQuads (m : SMap (List Nat)) : List Nat :=
  let least := (List.range 32).foldl (fun b q => min b (quadUse m q)) quadCells
  (List.range 32).filter fun q => quadUse m q == least

/-- A payload outside groups takes `n` cells, in rotation from an emptiest quad, and is charged to an account (R199)
(DESIGN CHOICE, log entry 14). -/
def State.hold (s : State) (acc : Option Nat) (n : Nat) : State :=
  let (cs, rows, _) := takeQuads ((emptiestQuads s.cab.rows).headD 0) 0 s.cab.rows 0 n
  { s with cab := { s.cab with rows := rows, loose := s.cab.loose ++ cs } }.charge acc n

/-- It gives `n` cells back: the oldest of such cells (DESIGN CHOICE, log entry 14). -/
def State.unhold (s : State) (acc : Option Nat) (n : Nat) : State :=
  let rows := (s.cab.loose.take n).foldl freeCell s.cab.rows
  { s with cab := { s.cab with rows := rows, loose := s.cab.loose.drop n } }.uncharge acc n

/-! ### Groups (R187, R198) -/

/-- A cell lies in one of the runs. -/
def inRuns (rs : List CellRun) (c : Nat) : Bool := rs.any fun r => decide (r.first ≤ c) && decide (c < r.first + r.count)

/-- A cell of a group is spilled. -/
def Group.isSpilled (g : Group) (c : Nat) : Bool := inRuns (g.spilled.map (·.run)) c

/-- The lowest free group index, if one is free. -/
def State.freeGroupIndex (s : State) : Option Nat :=
  let k := lowestFree 0 (s.cab.groups.map (·.1))
  if k < groupCount then some k else none

/-- The group a handle names: index in bits 17:0, reuse count in bits 31:18 (R198). -/
def State.groupOf (s : State) (handle : Nat) : Option (Nat × Group) :=
  let k := handle % 2 ^ 18
  match SMap.find s.cab.groups k with
  | some g => if SMap.get 0 s.cab.reuse k = handle / 2 ^ 18 then some (k, g) else none
  | none => none

/-- A group put back. -/
def State.setGroup (s : State) (k : Nat) (g : Group) : State :=
  { s with cab := { s.cab with groups := SMap.put k g s.cab.groups } }

/-- Take `n` cells for `owner` as a new group at index `k` (R195, R198): the state and the handle. Among quads that are
equally empty the choice of the first is free (DESIGN CHOICE, log entry 14). -/
def State.takeGroup (s : State) (k : Nat) (acc owner : Option Nat) (n : Nat) : State × Nat :=
  let best := emptiestQuads s.cab.rows
  let (v, s) := s.freeBits 5
  let q0 := best.getD (v % best.length) 0
  let (cs, rows, skips) := takeQuads q0 0 s.cab.rows 0 n
  let g : Group := { cells := n, nums := cs, acc := acc, owner := owner, uses := [({ first := 0, count := n }, s.ns)] }
  let s := { s with cab := { s.cab with groups := SMap.put k g s.cab.groups, rows := rows } }
  ((s.charge acc n).bumpBy CAB_QUAD_SKIPS 0 skips (accountAttr acc), k + 2 ^ 18 * SMap.get 0 s.cab.reuse k)

/-- Key of byte `b` of group `k` in the cells' memory. -/
def cellKey (k b : Nat) : Nat := 2 ^ 24 * k + b

/-- `n` bytes of a group. -/
def State.groupRead (s : State) (k off n : Nat) : List Byte := s.cab.cellMem.readAll (cellKey k off) n

/-- The blocks of 4 KiB that a byte range touches. -/
def blocksOf (off n : Nat) : List Nat :=
  if n = 0 then [] else (List.range ((off + n - 1) / 4096 - off / 4096 + 1)).map (· + off / 4096)

/-- A mover names cells of a group at a time: they count as used then (R208). -/
def Group.touch (g : Group) (first count ns : Nat) : Group :=
  let inside (r : CellRun) : Bool := decide (first ≤ r.first) && decide (r.first + r.count ≤ first + count)
  { g with uses := ({ first := first, count := count }, ns) :: g.uses.filter fun e => !inside e.1 }

/-- When a mover last named cell `c` (R208). -/
def Group.usedAt (g : Group) (c : Nat) : Nat :=
  match g.uses.find? fun e => inRuns [e.1] c with
  | some e => e.2
  | none => 0

/-- The cells that a byte range touches: the first and how many. -/
def cellSpan (off n : Nat) : Nat × Nat := if n = 0 then (off / 256, 0) else (off / 256, (off + n - 1) / 256 - off / 256 + 1)

/-- What the blocks of a group hold once a mover has written a byte range (R189): a block that a drive read wrote counts as
decrypted once a decryption has passed all its cells; a grant's blocks are kept by `got`. -/
def Group.written (g : Group) (off n : Nat) (w : BlockWriter) : Group :=
  let (c0, k) := cellSpan off n
  let blocks := blocksOf off n
  match w with
  | .decrypt =>
    let passed := ((List.range k).map (· + c0)).foldl (fun l c => insertRow c l) g.passed
    let whole (b : Nat) : Bool := SMap.get .none g.filled b != .driveRead || (List.range 16).all fun i => passed.contains (16 * b + i)
    { g with passed := passed, filled := blocks.foldl (fun m b => if whole b then SMap.put b .decrypt m else m) g.filled }
  | w =>
    let stale (c : Nat) : Bool := w == .driveRead && decide (c0 ≤ c) && decide (c < c0 + k)
    { g with passed := g.passed.filter fun c => !stale c, filled := blocks.foldl (fun m b => SMap.put b w m) g.filled }

/-- Bytes placed into a group by a mover (R189, R207, R208). -/
def State.groupWrite (s : State) (k off : Nat) (bs : List Byte) (w : BlockWriter) : State :=
  let s := { s with cab := { s.cab with cellMem := Mem.writeAll (cellKey k off) bs s.cab.cellMem } }
  match SMap.find s.cab.groups k with
  | none => s
  | some g =>
    let (c0, n) := cellSpan off bs.length
    s.setGroup k ((g.written off bs.length w).touch c0 n s.ns)

/-- The bytes of a group taken out of the cells' memory. -/
def dropBytes (k : Nat) (m : Mem) : Mem := m.filter fun e => e.1 / 2 ^ 24 != k

/-- The indexes of the extents of a group that are given up with it. -/
def State.freePlaces (s : State) (g : Group) : State :=
  let places := g.spilled.map (·.place)
  let n := (g.spilled.map (·.run.count)).sum
  let s := s.setReg CAB_SPILLED_CELLS 0 (s.reg CAB_SPILLED_CELLS - n)
  { s with cab := { s.cab with spillPlaces := s.cab.spillPlaces.filter fun e => !places.contains e.1 } }

/-- A group whose cells are all freed gives its index back, its reuse count rising (R198). -/
def State.endGroup (s : State) (k : Nat) (g : Group) : State :=
  let s := s.freePlaces g
  let reuse := storeField 0 k ((SMap.get 0 s.cab.reuse k + 1) % 2 ^ 14) s.cab.reuse
  { s with cab := { s.cab with groups := SMap.del k s.cab.groups, reuse := reuse,
                               cellMem := dropBytes k s.cab.cellMem } }

/-- Cells `first` to `first + count - 1` of a group are freed: those on die are given back to their quads and account
(R207). -/
def State.freeRun (s : State) (k first count : Nat) : State :=
  match SMap.find s.cab.groups k with
  | none => s
  | some g =>
    let range := (List.range (min count (g.cells - first))).map (· + first)
    let live := range.filter fun c => !inRuns g.freed c && !g.isSpilled c
    let rows := live.foldl (fun m c => freeCell m (g.nums.getD c 0)) s.cab.rows
    let gone := g.spilled.filter fun e => decide (first ≤ e.run.first) && decide (e.run.first + e.run.count ≤ first + count)
    let s := s.freePlaces { g with spilled := gone }
    let g := { g with freed := { first := first, count := range.length } :: g.freed,
                      spilled := g.spilled.filter fun e => !gone.contains e }
    let s := { s with cab := { s.cab with rows := rows } }
    let s := (s.setGroup k g).uncharge g.acc live.length
    if (List.range g.cells).all (inRuns g.freed) then s.endGroup k g else s

/-- A whole group is freed. -/
def State.freeGroup (s : State) (k : Nat) : State :=
  match SMap.find s.cab.groups k with
  | some g => s.freeRun k 0 g.cells
  | none => s

/-! ### RED (R212, R213) -/

/-- One step of the 32-bit Fibonacci LFSR, x^32 + x^22 + x^2 + x + 1 (R212). -/
def lfsrStep (v : BitVec 32) : BitVec 32 :=
  let fb := v.getLsbD 31 ^^ v.getLsbD 21 ^^ v.getLsbD 1 ^^ v.getLsbD 0
  (v <<< 1) ||| (if fb then 1#32 else 0#32)

/-- The probability of a profile at `q` cells, in 1/65,536 (R212) (DEDUCED, log entry 22). -/
def redProb (mn mx pmax q : Nat) : Nat :=
  if q < mn then 0 else if mx ≤ q then 65536 else pmax * (q - mn) / (mx - mn)

/-- What a RED decision comes to (R213). -/
inductive RedHit
  | pass | mark | drop
  deriving DecidableEq, Repr

/-- The decision for a packet of colour `col` (0 green, 1 yellow, 2 red) on port `port`, its account named, its profile
the account's ingress or egress one (R212, R213): the LFSR steps once. -/
def State.redDecide (s : State) (port acc : Nat) (egress : Bool) (col : Nat) : RedHit × State :=
  let prof := if egress then s.reg CAB_CLASSLIM_PROF_OUT acc else s.reg CAB_CLASSLIM_PROF_IN acc
  let i := 3 * prof + col
  let pa := redProb (s.reg CAB_RED_MIN i) (s.reg CAB_RED_MAX i) (s.reg CAB_RED_PMAX i) (s.reg CAB_ACCFILL_CELLS acc)
  let pg := redProb (s.reg CAB_GRED_MIN col) (s.reg CAB_GRED_MAX col) (s.reg CAB_GRED_PMAX col) s.fill
  let v := lfsrStep (BitVec.ofNat 32 (SMap.get 0 s.cab.lfsr port))
  let s := { s with cab := { s.cab with lfsr := SMap.put port v.toNat s.cab.lfsr } }
  let aa := s.reg CAB_RED_ACTION i
  let ag := s.reg CAB_GRED_ACTION col
  let action := if pg < pa then aa else if pa < pg then ag else max aa ag
  (if v.toNat % 65536 < max pa pg then (if action = 1 then .drop else .mark) else .pass, s)

/-- A bad tail, counted once (R206). -/
def State.tailBad (s : State) (a : Attr) : State := s.bump CAB_TAIL_BAD 0 a

/-- A packet is dropped at a limit (R201). -/
def State.limitDrop (s : State) (acc : Nat) : State := (s.bump CAB_LIMIT_DROP 0 (accountAttr (some acc))).raise CAB_EVENT_LIMIT_DROP

/-! ### The aperture (R197, R198) -/

/-- What an aperture address names: an offset of queue memory, or a byte of a group. -/
inductive Aperture
  | queue (off : Nat)
  | cells (group off : Nat)
  | none
  deriving DecidableEq, Repr

/-- The aperture's base address. -/
def State.apertureBase (s : State) : Nat := 2 ^ 43 * s.reg CAB_APERTURE_BASE

/-- The target of a PCIe address (R198). -/
def State.apertureTarget (s : State) (a : Nat) : Aperture :=
  if a < s.apertureBase then .none
  else
    let d := a - s.apertureBase
    if 2 ^ 42 ≤ d then if d < 2 ^ 42 + 60 * 2 ^ 20 then .queue (d % 2 ^ 42) else .none
    else .cells (d / 2 ^ 24) (d % 2 ^ 24)

/-- A drive access of `n` bytes names cells of an allocated group, inside it (R198). -/
def State.cellsInGroup (s : State) (k off n : Nat) : Bool :=
  match SMap.find s.cab.groups k with
  | some g => decide (off + n ≤ g.cells * 256)
  | none => false

/-- A refused aperture access (R198). -/
def State.apertureErr (s : State) : State := (s.bump CAB_APERTURE_ERR).raise CAB_EVENT_APERTURE_ERR

end Sys2Proof.Machine
end

