-- ==== Sys2Proof/Machine/Cipher.lean ====
section
/-! DEFINITION. The cipher engine: key slots and key operations, the pairs, their queues and schedules, tests and the
entropy source (R231 to R247). -/

namespace Sys2Proof.Machine

open Sys2Proof.Reg

/-! ### Key slots (R233 to R236) -/

/-- A slot's content; EMPTY where it is not listed. -/
def State.keySlot (s : State) (k : Nat) : KeySlot := SMap.get {} s.cph.slots k

/-- Put a key into a slot; kind 0 empties it. -/
def State.setKeySlot (s : State) (k : Nat) (v : KeySlot) : State :=
  { s with cph := { s.cph with slots := if v.kind = 0 then SMap.del k s.cph.slots else SMap.put k v s.cph.slots } }

/-- Key `k` of a copy of the registers is that of bit-31 field `f`, and then its instance number. -/
def instanceOfKey (f : Field) (count k : Nat) : Option Nat :=
  let b := 8 * f.addr + f.lo
  if b ≤ k ∧ (k - b) % (8 * f.stride) = 0 ∧ (k - b) / (8 * f.stride) < count then some ((k - b) / (8 * f.stride))
  else none

/-- A copy of class L binds slot `k` by a VALID entry of CPH_VOLKEY or CPH_SUBKEY (R236). -/
def boundIn (m : SMap Nat) (k : Nat) : Bool :=
  m.any fun e => e.2 == 1 &&
    ((match instanceOfKey CPH_VOLKEY_VALID 16384 e.1 with
      | some i => SMap.get 0 m (CPH_VOLKEY_SLOT.key i) == k
      | none => false) ||
     (match instanceOfKey CPH_SUBKEY_VALID 4096 e.1 with
      | some i => SMap.get 0 m (CPH_SUBKEY_SLOT.key i) == k
      | none => false))

/-- A slot is bound (R236). -/
def State.slotBound (s : State) (k : Nat) : Bool :=
  boundIn s.regs.pend k || boundIn s.regs.cur k || (s.flag CFG_STATUS_PREV_VALID && boundIn s.regs.prev k) ||
    s.ctx.conns.any fun e => e.2.state != 0 && e.2.gcm && e.2.keyslot == k

/-- The lowest EMPTY slot, if one is free (R101). -/
def State.freeSlot (s : State) : Option Nat :=
  let k := lowestFree 0 (s.cph.slots.map (·.1))
  if k < 8192 then some k else none

/-- The setup key of a subscriber: the slot its VALID CPH_SUBKEY entry names, of kind SETUP (R236); in recovery the
record's key, for subscriber 0 (R397). -/
def State.setupKey (s : State) (sub : Nat) : Option (List Byte) :=
  if s.inRecovery then (if sub = 0 then s.fwu.recoveryKey.map (·.take 32) else none)
  else if s.flag CPH_SUBKEY_VALID sub then
    let v := s.keySlot (s.reg CPH_SUBKEY_SLOT sub)
    if v.kind = 3 then some (v.key.take 32) else none
  else none

/-- The bytes of CPH_KEY_DATA: byte 0 in bits 7:0 of word 0 (R247). -/
def State.keyData (s : State) : List Byte := (List.range 20).flatMap fun i => leBytes 4 (s.reg CPH_KEY_DATA_DATA i)

/-- 20 words of a register array filled from bytes. -/
def State.setWords (s : State) (f : Field) (bs : List Byte) : State :=
  (List.range 20).foldl (fun s i => s.setReg f i (leNat ((bs.drop (4 * i)).take 4))) s

/-- The kind a wrapped key declares and its material (R234). -/
def unwrapKey (kek blob : List Byte) : Option (Nat × List Byte) :=
  match Config.keyWrap false kek blob with
  | some p => if p.length = 72 then some ((p.getD 0 0).toNat, p.drop 8) else none
  | none => none

/-- The device key, which every reset derives from the fused device secret (R234). -/
def deviceKey : List Byte :=
  (Config.kdf Config.deviceSecret [0x52, 0x56, 0x2D, 0x53, 0x4C, 0x4F, 0x54, 0x57, 0x52, 0x41, 0x50] 32 ++ List.replicate 32 0).take 32

/-- The 64 bytes of material that a slot of a kind holds: Key1 and Key2 for XTS, else one key and 32 zero bytes (R233,
R234). -/
def slotMaterial (kind : Nat) (m : List Byte) : List Byte :=
  (m.take (if kind = 1 then 64 else 32) ++ List.replicate 64 0).take 64

/-- The plaintext of a blob (R234). -/
def blobPlain (v : KeySlot) : List Byte :=
  [b8 v.kind, 1, 0, 0, 0, 0, 0, 0] ++ (v.key ++ List.replicate 64 0).take 64

/-- The material an import brings: in plain for OP 1, unwrapped under the KEK slot or the device key for OP 2 and 3. -/
def State.importMaterial (s : State) (op : Nat) : Option (Nat × List Byte) :=
  match op with
  | 1 => none
  | 2 => if (s.keySlot (s.reg CPH_KEY_KEK_SLOT)).kind = 4 then
      unwrapKey ((s.keySlot (s.reg CPH_KEY_KEK_SLOT)).key.take 32) s.keyData else none
  | _ => unwrapKey deviceKey s.keyData

/-- The checks of R235 for operation `op` on slot `k` of kind `kind` by path `p`, in order, and the material. -/
def State.keyChecks (s : State) (p : Path) (op kind k : Nat) : Nat × List Byte :=
  if op < 1 ∨ 5 < op ∨ (op ≤ 3 ∧ kind ≠ 1 ∧ kind ≠ 3 ∧ kind ≠ 4) then (4, [])
  else if op = 1 ∧ (p = .mgmt ∨ p = .jtag) then (5, [])
  else if op ≤ 3 ∧ (s.keySlot k).kind ≠ 0 then (1, [])
  else if 4 ≤ op ∧ (s.keySlot k).kind = 0 then (7, [])
  else if op = 5 ∧ s.slotBound k then (2, [])
  else
    let mat : Option (List Byte) :=
      if op = 1 then some (s.keyData.take 64)
      else if op = 2 ∨ op = 3 then
        match s.importMaterial op with
        | some (kd, m) => if kd = kind then some m else none
        | none => none
      else some []
    match mat with
    | none => (3, [])
    | some m => if op ≤ 3 ∧ kind = 1 ∧ m.take 32 = (m.drop 32).take 32 then (6, []) else (0, m)

/-- A write of CPH_KEY_CMD (R235): refused with result 8 while an operation runs, else an operation starts. -/
def State.keyStart (s : State) (p : Path) (op kind k : Nat) : State :=
  if s.flag CPH_KEY_STATUS_BUSY then (s.setReg CPH_KEY_STATUS_RESULT 0 8).raise CPH_EVENT_KEY_FAILED
  else
    let (r, m) := s.keyChecks p op kind k
    { s with cph := { s.cph with job := some { op := op, kind := kind, slot := k, result := r, key := m } } }.setFlag
      CPH_KEY_STATUS_BUSY 0 true

/-- The operation ends (R235): its effect, its result and event; CPH_KEY_DATA is cleared. -/
def State.keyDone (s : State) : State :=
  match s.cph.job with
  | none => s
  | some j =>
    let s :=
      if j.result ≠ 0 then s
      else if j.op ≤ 3 then s.setKeySlot j.slot { kind := j.kind, key := slotMaterial j.kind j.key }
      else if j.op = 4 then
        s.setWords CPH_KEY_BLOB_BLOB ((Config.keyWrap true deviceKey (blobPlain (s.keySlot j.slot))).getD [])
      else s.setKeySlot j.slot {}
    let s := { s with cph := { s.cph with job := none } }.setFlag CPH_KEY_STATUS_BUSY 0 false
    let s := (s.setReg CPH_KEY_STATUS_RESULT 0 j.result).setWords CPH_KEY_DATA_DATA []
    s.raise (if j.result = 0 then CPH_EVENT_KEY_DONE else CPH_EVENT_KEY_FAILED)

/-- The data-unit number of a volume's block (R232). -/
def dataUnit (vol lba : Nat) : Nat := (2 ^ 48 * vol ||| lba) % 2 ^ 62

/-! ### Pairs, queues and schedules (R238 to R241) -/

/-- Pair states (R247). -/
def pairInService := 0
def pairQuarantined := 1
def pairTesting := 2

/-- The pairs in service. -/
def State.pairsInService (s : State) : List Nat :=
  (List.range 72).filter fun p => s.reg CPH_PAIR_STATE_STATE p == pairInService

/-- CPH_STATUS.PAIRS follows the pairs' states. -/
def State.countPairs (s : State) : State := s.setReg CPH_STATUS_PAIRS 0 s.pairsInService.length

/-- A pair's queue. -/
def State.pairQueue (s : State) (p : Nat) : List PairItem := SMap.get [] s.cph.queues p

/-- A pair's queue replaced; an empty one is not listed. -/
def State.setPairQueue (s : State) (p : Nat) (q : List PairItem) : State :=
  let m := if q = [] then SMap.del p s.cph.queues else SMap.put p q s.cph.queues
  { s with cph := { s.cph with queues := m } }

/-- Every item the engine holds, on a pair or waiting for one. -/
def Cph.items (c : Cph) : List CphItem := (c.queues.flatMap fun e => e.2.map (·.item)) ++ c.net ++ c.xts

/-- Every item the engine holds is changed by `f`. -/
def Cph.mapItems (c : Cph) (f : CphItem → CphItem) : Cph :=
  { c with queues := c.queues.mapVal fun _ q => q.map fun i => { i with item := f i.item }, net := c.net.map f, xts := c.xts.map f }

/-- The items that satisfy `p` leave the engine. -/
def Cph.dropItems (c : Cph) (p : CphItem → Bool) : Cph :=
  { c with queues := (c.queues.mapVal fun _ q => q.filter fun i => !p i.item).filter (fun e => e.2 != []),
           net := c.net.filter (fun i => !p i), xts := c.xts.filter fun i => !p i }

/-- The slot an item uses. -/
def CphItem.slot : CphItem → Nat
  | .xts _ _ _ k _ _ _ _ _ => k
  | .gcmRx _ _ _ k _ => k
  | .gcmTx _ _ k => k

/-- CPH_SCHED.DEPTH, 0 acting as 1. -/
def State.cphDepth (s : State) : Nat := max 1 (s.reg CPH_SCHED_DEPTH)

/-- The pair an item goes to among `ps` (R238): one that holds its schedule with room, else the one with the fewest
items queued (DESIGN CHOICE, log entry 26). -/
def State.choosePair (s : State) (ps : List Nat) (slot : Nat) : Option Nat :=
  match ps.find? fun p => (SMap.get [] s.cph.sched p).contains slot && decide ((s.pairQueue p).length < s.cphDepth) with
  | some p => some p
  | none => ps.foldl (fun b p =>
      match b with
      | none => some p
      | some q => if (s.pairQueue p).length < (s.pairQueue q).length then some p else some q) none

/-- Pair `p` uses slot `k`'s schedule, loading it over the least recently used of four where it lacks it (R238). -/
def State.useSchedule (s : State) (a : Attr) (p k : Nat) : State :=
  let l := SMap.get [] s.cph.sched p
  let l' := (k :: l.filter (· != k)).take 4
  let s := { s with cph := { s.cph with sched := SMap.put p l' s.cph.sched } }
  if l.contains k then s else s.bump CPH_SCHED_LOADS 0 a

/-- A generate request of the DRBG (R245): it is seeded again after 2^16 of them, and at the first request after the source
has passed its start-up tests again; while the source is failed it goes on from its last seed. -/
def State.drbgRequest (s : State) : State :=
  let d := s.cph.drbg
  let again := !s.flag CPH_STATUS_SRC_FAILED && (d.owed || decide (65536 ≤ d.requests))
  let d := if again then { requests := 1, owed := false, reseeds := d.reseeds + 1 } else { d with requests := d.requests + 1 }
  { s with cph := { s.cph with drbg := d } }

/-- `n` bytes that the DRBG generates (R245). -/
def State.drbgBytes (s : State) (n : Nat) : List Byte × State := s.drbgRequest.entropyBytes n

/-- The dummy rounds of `n` AES blocks (R242): floor(d) each, and one more where the DRBG's draw has it; with SHUFFLE alone
the DRBG is asked too (R243, R245) (DESIGN CHOICE, log entry 23). -/
def State.drawDummies (s : State) (n : Nat) : Nat × State :=
  let d := min 192 (s.reg CPH_CTRM_DENSITY)
  if d % 64 = 0 then (n * (d / 64), if s.flag CPH_CTRM_SHUFFLE then s.drbgRequest else s)
  else
    let (v, s) := s.drbgRequest.freeBits 32
    (n * (d / 64) + v % (n + 1), s)

/-- AES blocks of an item (R237). -/
def CphItem.blocks : CphItem → Nat
  | .xts .. => 16
  | .gcmRx _ _ k _ _ => (k.plen + 15) / 16
  | .gcmTx f _ _ => (f.out.pkt.plen + 15) / 16

/-- Put an item on a pair of `ps`, at the head of its queue where `front`, with the dummy rounds it draws; the second answer
is false where there is none (R238, R240) (DESIGN CHOICE, log entry 26). -/
def State.placeItem (s : State) (ps : List Nat) (i : CphItem) (front : Bool) : State × Bool :=
  match s.choosePair ps i.slot with
  | none => (s, false)
  | some p =>
    let (n, s) := (s.useSchedule (i.attr s) p i.slot).drawDummies i.blocks
    let x : PairItem := { item := i, dummies := n }
    (s.setPairQueue p (if front then x :: s.pairQueue p else s.pairQueue p ++ [x]), true)

/-- An item joins its waiting queue; the answer is false where no pair is in service (R238, R240). -/
def State.queueItem (s : State) (i : CphItem) : State × Bool :=
  if s.pairsInService = [] then (s, false)
  else
    (match i with
      | .xts .. => { s with cph := { s.cph with xts := s.cph.xts ++ [i] } }
      | i => { s with cph := { s.cph with net := s.cph.net ++ [i] } }, true)

/-- AES blocks that a turn of a waiting queue adds to its deficit for each unit of weight: those of the largest item
(DESIGN CHOICE, log entry 26). -/
def cphQuantum := 512

/-- What a queue with `deficit` may send: the items and what is left. -/
def drrTake : List CphItem → Nat → List CphItem × List CphItem × Nat
  | [], _ => ([], [], 0)
  | i :: is, d =>
    if i.blocks ≤ d then
      let (a, b, d') := drrTake is (d - i.blocks)
      (i :: a, b, d')
    else ([], i :: is, d)

/-- The order in which deficit round robin serves the waiting network and XTS items, with quanta `wn` and `wx`; at most `n`
rounds (R238). -/
def drrOrder (wn wx : Nat) : Nat → List CphItem → List CphItem → Nat → Nat → List CphItem
  | 0, net, xts, _, _ => net ++ xts
  | n + 1, net, xts, dn, dx =>
    let (a, net, dn) := drrTake net (dn + wn)
    let (b, xts, dx) := drrTake xts (dx + wx)
    a ++ b ++ (if net = [] ∧ xts = [] then [] else drrOrder wn wx n net xts dn dx)

/-- The waiting items go to pairs in the order of deficit round robin with weights W_NET and W_XTS, 0 acting as 1 (R238). -/
def State.serveCipher (s : State) : State :=
  if s.cph.net = [] ∧ s.cph.xts = [] then s
  else
    let w (f : Field) : Nat := cphQuantum * max 1 (s.reg f)
    let is := drrOrder (w CPH_SCHED_W_NET) (w CPH_SCHED_W_XTS) (s.cph.net.length + s.cph.xts.length) s.cph.net s.cph.xts 0 0
    let s := { s with cph := { s.cph with net := [], xts := [] } }
    is.foldl (fun s i => (s.placeItem s.pairsInService i false).1) s

/-- A GCM item that uses slot `k` is in the engine. -/
def State.slotOnPair (s : State) (k : Nat) : Bool := s.cph.items.any fun i => match i with
  | .xts .. => false
  | i => i.slot == k

/-- The GCM slot of a connection that is FREE is erased, once no item of it is on a pair (R236, R246). -/
def State.releaseSlot (s : State) (k : Nat) : State :=
  if (s.keySlot k).kind = 2 ∧ !s.slotOnPair k ∧ !s.ctx.conns.any (fun e => e.2.gcm && e.2.keyslot == k) then
    s.setKeySlot k {}
  else s

/-- The engine holds no item (R216). -/
def State.cphIdle (s : State) : Bool := s.cph.items == []

/-- An event record of the engine (R405). -/
def State.cphRecord (s : State) (pair ev count item slot : Nat) : State :=
  s.record 0x30 (if ev = 5 then 3 else 2) bCPH ([b8 pair, b8 ev, b8 count, b8 item] ++ leBytes 2 slot)

/-- The record's item code (R405). -/
def CphItem.code : CphItem → Nat
  | .xts .. => 0
  | .gcmTx .. => 1
  | .gcmRx .. => 2

/-- No pair is in service for an item (R240). -/
def State.noPair (s : State) (i : CphItem) : State :=
  (s.raise CPH_EVENT_NO_PAIR).cphRecord 0 5 0 i.code i.slot

/-- CPH_PAIR_CMD OP 1 (R241): a quarantined pair starts its test; any other state refuses. -/
def State.pairTestStart (s : State) (p : Nat) : State :=
  if s.reg CPH_PAIR_STATE_STATE p = pairQuarantined then s.setReg CPH_PAIR_STATE_STATE p pairTesting
  else s.raise CPH_EVENT_CMD_REFUSED

/-- The known-answer tests of a pair end (R241). -/
def State.pairTestEnd (s : State) (p : Nat) (pass : Bool) : State :=
  if s.reg CPH_PAIR_STATE_STATE p = pairTesting then
    if pass then
      (((s.setReg CPH_PAIR_STATE_STATE p pairInService).setReg CPH_PAIR_STATE_COUNT p 0).countPairs).cphRecord p 3 0 0 0
    else (s.setReg CPH_PAIR_STATE_STATE p pairQuarantined).cphRecord p 4 (s.reg CPH_PAIR_STATE_COUNT p) 0 0
  else s

/-- The mismatch counts begin anew at a working cycle's start (R240). -/
def State.clearMismatches (s : State) : State :=
  (List.range 72).foldl (fun s p => s.setReg CPH_PAIR_STATE_COUNT p 0) s

/-! ### The entropy source (R245) -/

/-- A health test fails: the source is failed, the DRBG goes on from its last seed. -/
def State.entropyFail (s : State) : State :=
  ((s.setFlag CPH_STATUS_SRC_FAILED 0 true).bump CPH_HEALTH_FAILS |>.raise CPH_EVENT_ENTROPY_FAIL).cphRecord 0 6 0 0 0

/-- The source passes its start-up tests again: the DRBG owes a reseed. -/
def State.entropyRecovers (s : State) : State :=
  if s.flag CPH_STATUS_SRC_FAILED then
    { s with cph := { s.cph with drbg := { s.cph.drbg with owed := true } } }.setFlag CPH_STATUS_SRC_FAILED 0 false
  else s

/-- The DRBG is instantiated and the pairs are in service (R245, R247). -/
def State.startCph (s : State) : State :=
  ({ s with cph := { s.cph with drbg := {} } }.setRuns bCPH true).countPairs

end Sys2Proof.Machine
end

