-- ==== Sys2Proof/Machine/Packets.lean ====
section
/-! DEFINITION. Naley packets as bytes and their checks: the header, CRC-16, CRC-32C, extensions, lengths (R58 to R68,
R80, R224). -/

namespace Sys2Proof.Machine

/-- One bit of CRC-16, polynomial 0x1021, not reflected (R64). -/
def crc16Bit (c : BitVec 16) : BitVec 16 := if c.getLsbD 15 then (c <<< 1) ^^^ 0x1021#16 else c <<< 1

/-- One byte of CRC-16. -/
def crc16Byte (c : BitVec 16) (b : Byte) : BitVec 16 :=
  crc16Bit (crc16Bit (crc16Bit (crc16Bit (crc16Bit (crc16Bit (crc16Bit (crc16Bit (c ^^^ (b.zeroExtend 16 <<< 8)))))))))

/-- CRC-16 with initial value 0xFFFF and no final XOR (R64). -/
def crc16 (bs : List Byte) : BitVec 16 := bs.foldl crc16Byte 0xFFFF#16

/-- One bit of CRC-32C, reflected (R68): the reversal of 0x1EDC_6F41 is 0x82F6_3B78. -/
def crc32Bit (c : BitVec 32) : BitVec 32 := if c.getLsbD 0 then (c >>> 1) ^^^ 0x82F63B78#32 else c >>> 1

/-- One byte of CRC-32C. -/
def crc32Byte (c : BitVec 32) (b : Byte) : BitVec 32 :=
  crc32Bit (crc32Bit (crc32Bit (crc32Bit (crc32Bit (crc32Bit (crc32Bit (crc32Bit (c ^^^ b.zeroExtend 32))))))))

/-- CRC-32C (R68). -/
def crc32c (bs : List Byte) : BitVec 32 := ~~~ (bs.foldl crc32Byte 0xFFFFFFFF#32)

/-- The TYPE code (R66). -/
def PktType.code : PktType → Nat
  | .cmd => 1
  | .xrdy => 2
  | .data => 3
  | .cmpl => 4
  | .ack => 5
  | .nak => 6
  | .flush => 7
  | .flushed => 8
  | .ctrl => 9
  | .mgmt => 10
  | .probe => 11

/-- The type takes a PSN (R66); a CTRL packet on connection ID 0 takes none (R98). -/
def PktType.takesPsn : PktType → Bool
  | .ack | .nak | .probe => false
  | _ => true

/-- The type is sequenced (R66). -/
def PktType.sequenced : PktType → Bool
  | .cmd | .ctrl | .mgmt => true
  | _ => false

/-- FLAGS bits (R65). -/
def flagFinal := 0x80
def flagAckReq := 0x40
def flagRetx := 0x20
def flagEcho := 0x10
def flagTag := 0x08

/-- A flag of a packet is set. -/
def Packet.has (k : Packet) (f : Nat) : Bool := k.flags &&& f != 0

/-- The entropy index: bits 5:0 of byte 6; bits 7:6 are ignored on receipt (R63). -/
def Packet.entropy (k : Packet) : Nat := k.ent % 64

/-- Header bytes 0 to 29 (R63). -/
def headBytes (t : PktType) (k : Packet) : List Byte :=
  [BitVec.ofNat 8 (k.ver * 16 + t.code), BitVec.ofNat 8 k.flags, BitVec.ofNat 8 k.hxl] ++ beBytes 3 k.conn ++
    [BitVec.ofNat 8 k.ent, BitVec.ofNat 8 k.code] ++ beBytes 4 k.psn ++ beBytes 4 k.msgid ++ beBytes 4 k.key ++
    beBytes 8 k.offset ++ beBytes 2 k.plen

/-- HCHK over header bytes 0 to 29 and the extension (R64). -/
def headCheck (t : PktType) (k : Packet) : Nat := (crc16 (headBytes t k ++ k.ext)).toNat

/-- The trailer: CRC-32C of every byte from header byte 0 through the tag or the payload (R68). -/
def trailer (t : PktType) (k : Packet) : Nat :=
  (crc32c (headBytes t k ++ beBytes 2 k.hchk ++ k.ext ++ k.payload ++ k.tag)).toNat

/-- The entries of an extension fill it exactly, none running past its end (R67), and no unknown type has bit 7 set:
TIMESTAMP (1) and padding (0) are the known ones. -/
def extLegal : Nat → List Byte → Bool
  | _, [] => true
  | 0, _ => false
  | _ + 1, [_] => false
  | n + 1, t :: l :: rest =>
    let total := 4 * ((l.toNat + 2 + 3) / 4)
    decide (total ≤ rest.length + 2) && (decide (t.toNat < 128)) && extLegal n (rest.drop (total - 2))

/-- The value of the first TIMESTAMP entry, with its whole entry (R67). -/
def timestampEntry : Nat → List Byte → Option (List Byte)
  | 0, _ => none
  | n + 1, t :: l :: rest =>
    let total := 4 * ((l.toNat + 2 + 3) / 4)
    if t.toNat = 1 then some ((t :: l :: rest).take total) else timestampEntry n (rest.drop (total - 2))
  | _, _ => none

/-- Extensions are used on CTRL, MGMT and PROBE alone (R67). -/
def headerLegal (t : PktType) (k : Packet) : Bool :=
  k.ver == 1 && extLegal 256 k.ext &&
    (k.hxl == 0 || match t with
      | .ctrl | .mgmt | .probe => true
      | _ => false)

/-- A packet's length from header byte 0 through the trailer (R217). -/
def Packet.length (k : Packet) : Nat := 32 + k.ext.length + k.payload.length + k.tag.length + 4

/-- The authenticated data of GCM: 27 bytes, then the extension (R80). -/
def gcmAad (t : PktType) (k : Packet) : List Byte :=
  beBytes 3 k.conn ++ [BitVec.ofNat 8 t.code] ++ beBytes 4 k.psn ++ beBytes 4 k.msgid ++ beBytes 4 k.key ++
    beBytes 8 k.offset ++ beBytes 2 k.plen ++ [BitVec.ofNat 8 k.code] ++ k.ext

/-- The 12-byte IV (R80): `fromDevice` the direction, `wrap` the wrap count of that direction's PSNs. -/
def gcmIv (t : PktType) (k : Packet) (fromDevice : Bool) (wrap : Nat) : List Byte :=
  let dir := if fromDevice then 0x80 else 0
  if t.takesPsn then beBytes 3 k.conn ++ [BitVec.ofNat 8 dir] ++ beBytes 4 wrap ++ beBytes 4 k.psn
  else beBytes 3 k.conn ++ [BitVec.ofNat 8 (dir + 0x40)] ++ beBytes 8 k.offset

/-- Wire bytes of a frame with a Naley packet of `n` bytes (R224): destination MAC through FCS and 20 bytes more. -/
def wireBytes (n : Nat) (v6 tagged : Bool) : Nat :=
  n + 14 + (if tagged then 4 else 0) + (if v6 then 40 else 20) + 8 + 4 + 20

/-- The longest frame that the MAC accepts, destination MAC through FCS (R61) (DESIGN CHOICE, log entry 100). -/
def macLimit := 9216

/-- Serial order modulo 2^32 (R69): `a` lies before `b`. -/
def serialBefore (a b : Nat) : Bool := decide (0 < (2 ^ 32 + b - a) % 2 ^ 32) && decide ((2 ^ 32 + b - a) % 2 ^ 32 < 2 ^ 31)

/-- Distance from `a` up to `b` modulo 2^32. -/
def serialDist (a b : Nat) : Nat := (2 ^ 32 + b - a) % 2 ^ 32

/-- The source port of a packet (R59). -/
def sourcePort (conn ent : Nat) : Nat := 0xC000 + (conn * 64 + ent) % 0x4000

end Sys2Proof.Machine
end

