-- ==== Sys2Proof/Machine/RegFile.lean ====
section
/-! DEFINITION. The register space word by word (R4, R55): which register an address names, a word put together from its
fields, and a field with one word of it replaced. -/

namespace Sys2Proof.Machine

open Sys2Proof.Reg

/-- A register named by a byte address: the register, its instance, the byte offset of the word in it. -/
structure RegAt where
  reg : Register
  inst : Nat
  off : Nat

/-- The instance and offset at which register `r` holds byte address `a`. -/
def regHolds (r : Register) (a : Nat) : Option (Nat × Nat) :=
  if a < r.addr then none
  else
    let d := a - r.addr
    let i := if r.stride = 0 then 0 else d / r.stride
    let o := if r.stride = 0 then d else d % r.stride
    if i < r.count ∧ o < r.bytes then some (i, o) else none

/-- Search a block's registers. -/
def searchRegs (a : Nat) : List Register → Option RegAt
  | [] => none
  | r :: rs =>
    match regHolds r a with
    | some (i, o) => some ⟨r, i, o⟩
    | none => searchRegs a rs

/-- The register at byte address `a` (R55): none for an unmapped offset. -/
def findReg (a : Nat) : Option RegAt :=
  match blockOf a with
  | some b => searchRegs a (blockRegisters b)
  | none => none

/-- The field whose key `k` is. -/
def fieldOfKey (k : Nat) : Option Field :=
  (findReg (k / 8)).bind fun ra => ra.reg.fields.find? fun f => f.key ra.inst == k

/-- The part of a word at byte offset `o` that field `f` with value `v` fills. -/
def fieldInWord (f : Field) (v o : Nat) : Nat :=
  if f.lo + f.width ≤ 8 * o ∨ 8 * o + 32 ≤ f.lo then 0
  else if 8 * o ≤ f.lo then (v % 2 ^ (8 * o + 32 - f.lo)) * 2 ^ (f.lo - 8 * o)
  else (v / 2 ^ (8 * o - f.lo)) % 2 ^ 32

/-- The bits of a word at byte offset `o` that field `f` covers. -/
def fieldMask (f : Field) (o : Nat) : Nat := fieldInWord f (2 ^ f.width - 1) o

/-- Field value `v` with the word at byte offset `o` replaced by `w`. -/
def spliceField (f : Field) (v o w : Nat) : Nat :=
  if f.lo + f.width ≤ 8 * o ∨ 8 * o + 32 ≤ f.lo then v
  else if 8 * o ≤ f.lo then
    let n := min f.width (8 * o + 32 - f.lo)
    v / 2 ^ n * 2 ^ n + (w / 2 ^ (f.lo - 8 * o)) % 2 ^ n
  else
    let sh := 8 * o - f.lo
    let n := min (f.width - sh) 32
    v / 2 ^ (sh + n) * 2 ^ (sh + n) + (w % 2 ^ n) * 2 ^ sh + v % 2 ^ sh

/-- The fields of a register that lie in the word at byte offset `o`. -/
def wordFields (r : Register) (o : Nat) : List Field := r.fields.filter fun f => fieldMask f o != 0

/-- The word at offset `o` of a register, from the value of each of its fields. -/
def wordOf (r : Register) (o : Nat) (get : Field → Nat) : Nat :=
  ((wordFields r o).map fun f => fieldInWord f (get f) o).sum

/-- The bits of the word that belong to no field: reserved (R4, R42). -/
def reservedBits (r : Register) (o w : Nat) : Nat :=
  w - (w &&& ((wordFields r o).map fun f => fieldMask f o).sum)

/-- The class of the word: that of its first field, C where it has none. -/
def wordClass (r : Register) (o : Nat) : RegClass :=
  match wordFields r o with
  | f :: _ => f.cls
  | [] => match r.fields with
    | f :: _ => f.cls
    | [] => .C

/-- Whether register block `b`, instance `i`, is running for a class-I write (R40, R94): an NLT instance by its own run
state. -/
def State.instRuns (s : State) (b i : Nat) : Bool :=
  if b = bNLT then s.flag NLT_RUN_RUN i else s.runs b

/-- Set one word of a copy of class L or of live class I: each field spliced. -/
def putWord (r : Register) (i o w : Nat) (m : SMap Nat) : SMap Nat :=
  (wordFields r o).foldl (fun m f =>
    storeField (f.reset i) (f.key i) (spliceField f (SMap.get (f.reset i) m (f.key i)) o w) m) m

end Sys2Proof.Machine
end

