-- ==== Sys2Proof/Machine/Rtu.lean ====
section
/-! DEFINITION. The reference-time unit: START and STOP, reference edges, lines, hold-over (R23 to R37, R453). -/

namespace Sys2Proof.Machine

open Sys2Proof.Reg

/-- RTU_STATUS.STATE codes (R39). -/
def rtuStopped := 0
def rtuWaitEdge := 1
def rtuFree := 2
def rtuLocked := 3
def rtuHoldover := 4
def rtuRelocking := 5

/-- M and D (R27). -/
def State.rtuM (s : State) : Nat := s.reg RTU_DIV_M_M1 + 1
def State.rtuD (s : State) : Nat := s.reg RTU_DIV_D_M1 + 1

/-- The period the epoch checks use: the measured one, RTU_NOMPER while not LOCKED (R30). -/
def State.checkPeriod (s : State) : Nat :=
  if s.reg RTU_STATUS_STATE = rtuLocked then s.reg RTU_PERIOD_PERIOD else s.reg RTU_NOMPER_PERIOD

/-- An epoch of 2^k lines at period `per` (2^-16 ns) lasts 2 to 250 µs (R30). -/
def epochInRange (per m d k : Nat) : Bool :=
  decide (2000 * 65536 * 4096 * d ≤ per * m * 2 ^ k) && decide (per * m * 2 ^ k ≤ 250000 * 65536 * 4096 * d)

/-- A working cycle P × M / D lasts 100 µs to 1 s (R27). -/
def cycleInRange (per m d : Nat) : Bool :=
  decide (100000 * 65536 * d ≤ per * m) && decide (per * m ≤ 1000000000 * 65536 * d)

/-- `x` units per nanosecond over one nominal epoch, divided by `d` and truncated: the nominal epoch is 2^K lines at the
period of RTU_NOMPER. -/
def State.perEpoch (s : State) (x d : Nat) : Nat :=
  x * s.reg RTU_NOMPER_PERIOD * s.rtuM * 2 ^ s.reg RTU_EPOCH_K / (65536 * 4096 * s.rtuD * d)

/-- The nominal epoch and the nominal working cycle in ns (DEDUCED, log entry 60). -/
def State.epochNs (s : State) : Nat := s.perEpoch 1 1
def State.cycleNs (s : State) : Nat := s.reg RTU_NOMPER_PERIOD * s.rtuM / (65536 * s.rtuD)

/-- The nominal line length in 2^-8 ns at the measured period (R28, R35). -/
def State.nominalLine (s : State) : Nat := s.reg RTU_PERIOD_PERIOD * s.rtuM / (s.rtuD * 4096 * 256)

/-- Tolerances clamped as their table gives (R39). -/
def State.qualCount (s : State) : Nat := min 63 (max 2 (s.reg RTU_TOL_QUAL_COUNT))
def State.lossCount (s : State) : Nat := max 1 (s.reg RTU_TOL_LOSS_COUNT)
def State.winShift (s : State) : Nat := min 10 (max 4 (s.reg RTU_TOL_WIN_SHIFT))

/-- Low 32 bits of a signed value. -/
def int32 (x : Int) : Nat := (x % (2 ^ 32)).toNat

/-- A 32-bit value read as signed. -/
def sint32 (n : Nat) : Int := if n < 2 ^ 31 then n else (n : Int) - 2 ^ 32

/-- Enter RTU state `n`: the status, its event bit, and an event record (R34, R405). -/
def State.enterRtu (s : State) (n : Nat) : State :=
  let old := s.reg RTU_STATUS_STATE
  if old = n then s else
    let s := s.setReg RTU_STATUS_STATE 0 n
    let s := if n = rtuHoldover then s.raise RTU_EVENT_HOLDOVER
      else if n = rtuLocked then s.raise RTU_EVENT_LOCKED
      else if n = rtuRelocking then s.raise RTU_EVENT_RELOCK else s
    s.record 0x10 (if n = rtuHoldover then 2 else 1) bRTU
      ([b8 old, b8 n, 0, 0] ++ leBytes 4 (s.reg RTU_PHASE_ERR_ERR))

/-- The phase error and its register (R35). -/
def State.setPhase (s : State) (e : Int) : State :=
  ({ s with rtu := { s.rtu with phaseErr := e } }).setReg RTU_PHASE_ERR_ERR 0 (int32 e)

/-- Start the line whose number stands in the state at `t0`: its length from the fractional accumulator, lengthened or
shortened by at most 1/256 while a phase error is being corrected (R28, R35). -/
def State.beginLine (s : State) (t0 : Nat) : State :=
  let nom := s.nominalLine
  let st := s.reg RTU_STATUS_STATE
  let slews := st == rtuLocked || st == rtuRelocking
  let e := s.rtu.phaseErr
  let errNs := e.natAbs * nom / 4096
  let adj := if slews then min errNs (nom / 256) else 0
  let len := if e > 0 then nom + adj else nom - adj
  let acc := s.rtu.frac + len
  let e' : Int := if slews then (if e > 0 then max 0 (e - 16) else min 0 (e + 16)) else e
  let s := { s with rtu := { s.rtu with lineStart := t0, lineTicks := acc / 256, frac := acc % 256,
                                         boundaryDone := false } }
  let s := (s.setReg RTU_LINE_LEN_LEN 0 len).setFlag RTU_STATUS_SLEWING 0 (adj != 0)
  let s := if adj ≠ 0 then s.bump RTU_SLEW_LINES else s
  let s := s.setPhase e'
  if st = rtuRelocking ∧ e'.natAbs ≤ 4 then s.enterRtu rtuLocked else s

/-- Cycle 0, line 0 begins at `t0` (R31). -/
def State.firstLine (s : State) (t0 : Nat) : State :=
  let s := { s with rtu := { s.rtu with cycle := 0, line := 0, heldSub := 0, frac := 0 } }
  ((s.setPhase 0).setReg RTU_EPOCH_COUNT_COUNT 0 0).beginLine t0

/-- The end of the line that runs (R28). -/
def State.lineEnd (s : State) : Nat := s.rtu.lineStart + s.rtu.lineTicks

/-- Lines run: any state but STOPPED and WAIT_EDGE (R31). -/
def State.linesRun (s : State) : Bool := decide (2 ≤ s.reg RTU_STATUS_STATE)

/-- The line that stands at the state is an epoch boundary (R30). -/
def State.atBoundary (s : State) : Bool := s.rtu.line % 2 ^ (s.reg RTU_EPOCH_K) == 0

/-- An epoch boundary is owed at this line: it has not run yet (DESIGN CHOICE, log entry 84). -/
def State.boundaryOwed (s : State) : Bool := s.linesRun && s.atBoundary && !s.rtu.boundaryDone

/-- The position of time `t` on the device's line grid, in sub-lines since cycle 0 (R5, R29, R35)
(DEDUCED, log entry 10). -/
def State.gridPos (s : State) (t : Int) : Int :=
  ((2 ^ 24 * s.rtu.cycle + s.rtu.line * 2 ^ 12 : Nat) : Int) +
    s.inSubLines (t - s.rtu.lineStart)

/-- The phase error of a position to the nearest expected edge, in sub-lines (R31, R35): edges fall every D/M working
cycles, cycle numbers that are a multiple of D beginning on one (DEDUCED, log entry 10). -/
def phaseOf (m d : Nat) (x : Int) : Int :=
  let full : Int := 2 ^ 24 * d
  let r := (x * m) % full
  let c := if r * 2 > full then r - full else r
  c.tdiv m

/-- The measured period moves by one sixteenth of the difference, truncating toward zero (R453). -/
def newPeriod (per : Nat) (interval : Int) : Nat :=
  ((per : Int) + (65536 * interval - per).tdiv 16).toNat

/-- An edge at time `t` (ns, after RTU_REF_DELAY) qualifies (R32). -/
def State.edgeQualifies (s : State) (t : Int) : Bool :=
  let nom : Int := s.reg RTU_NOMPER_PERIOD
  let win := nom / 2 ^ s.winShift
  (match s.rtu.prevEdge with
    | none => false
    | some p => decide ((65536 * (t - p) - nom).natAbs ≤ win.natAbs)) &&
  (if s.reg RTU_STATUS_STATE = rtuLocked then
    match s.rtu.expected with
    | none => true
    | some x => decide ((65536 * t - x).natAbs ≤ win.natAbs)
   else true)

/-- The interval to a qualified edge at `t` moves the measured period, where it follows a qualified edge with no expected
one missed between; in HOLDOVER the period keeps its value (R453). -/
def State.measure (s : State) (t : Int) : State :=
  match s.rtu.prevQual with
  | some q =>
    if s.rtu.missedSince ∨ s.reg RTU_STATUS_STATE = rtuHoldover then s
    else s.setReg RTU_PERIOD_PERIOD 0 (newPeriod (s.reg RTU_PERIOD_PERIOD) (t - q))
  | none => s

/-- The position expected after an edge at `t` that qualified: while LOCKED one measured period after the one expected
now, wherever the edge fell in its window, else one after the edge (R32) (DEDUCED, log entry 97). -/
def State.nextExpected (s : State) (t : Int) : Int :=
  s.reg RTU_PERIOD_PERIOD +
    (match s.rtu.expected with
     | some x => if s.reg RTU_STATUS_STATE = rtuLocked then x else 65536 * t
     | none => 65536 * t)

/-- A reference edge at time `t` on the selected source (R31 to R35, R453). The LOCKED record of a unit that leaves
WAIT_EDGE shows RTU_PHASE_ERR as it stood before the edge (DESIGN CHOICE, log entry 98). -/
def State.takeEdge (s : State) (t : Int) : State :=
  let st := s.reg RTU_STATUS_STATE
  if st = rtuStopped then s
  else if !s.edgeQualifies t then
    let s := { s with rtu := { s.rtu with prevEdge := some t, qualRun := 0, missedSince := true } }
    (s.bump RTU_GLITCHES).raise RTU_EVENT_GLITCH
  else
    let s := s.measure t
    let run := s.rtu.qualRun + 1
    let s := { s with rtu := { s.rtu with prevEdge := some t, prevQual := some t, missedSince := false,
                                           qualRun := run, missRun := 0,
                                           expected := some (s.nextExpected t) } }
    let enough := decide (run ≥ s.qualCount)
    if st = rtuWaitEdge then
      if enough then
        ((s.enterRtu rtuLocked).firstLine t.toNat).setReg RTU_EDGE_STAMP_TIME 0 0
      else s.setReg RTU_EDGE_STAMP_TIME 0 0
    else
      let x := s.gridPos t
      let s := s.setReg RTU_EDGE_STAMP_TIME 0 (x % 2 ^ 64).toNat
      let ph := phaseOf s.rtuM s.rtuD x
      if st = rtuLocked then s.setPhase ph
      else if st = rtuRelocking then
        let s := s.setPhase ph
        if ph.natAbs ≤ 4 then s.enterRtu rtuLocked else s
      else if enough then
        let s := (s.setPhase ph).enterRtu rtuRelocking
        if ph.natAbs ≤ 4 then s.enterRtu rtuLocked else s
      else s

/-- Enter HOLDOVER from LOCKED or RELOCKING (R33, R34). -/
def State.enterHoldover (s : State) : State :=
  if s.reg RTU_STATUS_STATE = rtuLocked ∨ s.reg RTU_STATUS_STATE = rtuRelocking then
    { s.setFlag RTU_STATUS_SLEWING 0 false with rtu := { s.rtu with missRun := 0, qualRun := 0, expected := none } }.enterRtu
      rtuHoldover
  else s

/-- RTU_CMD.START acts (R27, R31, R430, R444, R451). -/
def State.rtuDoStart (s : State) (p : Path) : State :=
  if s.reg RTU_STATUS_STATE ≠ rtuStopped ∨ s.inRecovery then s
  else if !s.flag MEP_CTRL_CFG_READY then s.refuseStart p RTU_CMD_START.addr 0x0D RTU_EVENT_START_REFUSED 0
  else if s.top.clocksLost.contains 0 ∨ s.reg RTU_SRC_SRC = 3 ∨ !cycleInRange (s.reg RTU_NOMPER_PERIOD) s.rtuM s.rtuD ∨
      !epochInRange (s.reg RTU_NOMPER_PERIOD) s.rtuM s.rtuD (s.reg RTU_EPOCH_K) then
    s.refuseStart p RTU_CMD_START.addr 0x09 RTU_EVENT_START_REFUSED 0
  else
    let s := { s with rtu := { ptpMaster := s.rtu.ptpMaster, ptpStamps := s.rtu.ptpStamps } }
    let s := (s.setReg RTU_PERIOD_PERIOD 0 (s.reg RTU_NOMPER_PERIOD)).setReg RTU_EPOCH_COUNT_COUNT 0 0
    let s := s.setRuns bRTU true
    if s.reg RTU_SRC_SRC = 2 ∨ s.flag RTU_SRC_START_MODE then (s.enterRtu rtuFree).firstLine s.ns
    else s.enterRtu rtuWaitEdge

/-- The blocks whose running keeps the RTU from stopping (R37). -/
def rtuUsers : List Nat := [bCAB, bSLP, bDRV, bPAR, bLDG, bSCH, bHNG, bNLT]

/-- RTU_CMD.STOP acts (R37, R39, R451). -/
def State.rtuDoStop (s : State) (p : Path) : State :=
  if s.reg RTU_STATUS_STATE = rtuStopped then s
  else if rtuUsers.any s.runs then s.logErr 0x0B p RTU_CMD_STOP.addr
  else
    let sub := if s.linesRun then s.subLine else 0
    let s := { s with rtu := { s.rtu with heldSub := sub } }
    ((s.setRuns bRTU false).setFlag RTU_STATUS_SLEWING 0 false).enterRtu rtuStopped

/-- Time moves on to `t` ns, never back. -/
def State.advanceTo (s : State) (t : Nat) : State := { s with ns := max s.ns t }

/-- A rising or falling edge on REF_FRAME at `t` ns: sampled only with SRC = FRAME and where RTU_SRC.EDGE asks for it,
RTU_REF_DELAY subtracted (R23, R24, R32). -/
def State.referenceEdgeAt (s : State) (t : Nat) (falling : Bool) : State :=
  let s := s.advanceTo t
  if s.reg RTU_SRC_SRC = 0 ∧ s.flag RTU_SRC_EDGE = falling then s.takeEdge ((t : Int) - sint32 (s.reg RTU_REF_DELAY_DELAY)) else s

/-- A virtual edge at PTP time PHASE + n × PERIOD, the servo keeping the timebase on PTP time (R23, DESIGN CHOICE, log
entry 11). RTU_REF_DELAY is not subtracted from it: it compensates what delays REF_FRAME (DESIGN CHOICE, log entry 98). -/
def State.ptpEdge (s : State) (n : Nat) : State :=
  if s.reg RTU_SRC_SRC = 1 then
    let t := s.reg RTU_PTP_PHASE_PHASE + n * s.reg RTU_PTP_PERIOD_PERIOD
    (s.advanceTo t).takeEdge t
  else s

/-- The PTP reference is lost: the servo is no longer locked, and with SRC = PTP the unit enters HOLDOVER (R33)
(DESIGN CHOICE, log entry 11). -/
def State.ptpLost (s : State) : State :=
  if s.reg RTU_SRC_SRC = 1 then (s.setFlag RTU_STATUS_PTP_LOCKED 0 false).enterHoldover else s

/-- The servo takes an event message: on the port, domain and transport of RTU_PTP_CFG, and, but for Sync, of its delay
mechanism (R25). -/
def State.ptpTakes (s : State) (lport : Nat) (m : PtpMsg) : Bool :=
  s.reg RTU_PTP_CFG_LPORT == lport && s.reg RTU_PTP_CFG_DOMAIN == m.domain && s.reg RTU_PTP_CFG_TRANSPORT == m.transport &&
    (match m.kind with
     | .sync => true
     | .delayReq => !s.flag RTU_PTP_CFG_DELAY_MECH
     | _ => s.flag RTU_PTP_CFG_DELAY_MECH)

/-- What a message means to the servo: a change of the selected master loses the reference; a Sync from it that comes in
steers the timebase, the servo's offset and lock being its own, whatever the source (R25, R26, R33)
(DESIGN CHOICE, log entry 11). -/
def State.ptpServo (s : State) (master selected : Nat) (m : PtpMsg) : State :=
  let old := s.rtu.ptpMaster
  let s := { s with rtu := { s.rtu with ptpMaster := some selected } }
  let s := if old = none ∨ old = some selected then s else s.ptpLost
  if m.kind = .sync ∧ !m.egress ∧ master = selected then
    let (off, s) := s.freeBits 32
    let (lock, s) := s.freeBits 1
    (s.setReg RTU_PTP_OFFSET_OFFSET 0 off).setReg RTU_STATUS_PTP_LOCKED 0 lock
  else s

/-- A PTP event message is stamped by its port, on any port, in and out, and passed to the servo where it takes it (R25). -/
def State.ptpMessage (s : State) (lport master selected : Nat) (m : PtpMsg) : State :=
  let stamps := SMap.put (2 * lport + Bool.nat m.egress) s.ns s.rtu.ptpStamps
  let s := { s with rtu := { s.rtu with ptpStamps := stamps } }
  if s.ptpTakes lport m then s.ptpServo master selected m else s

/-- The window of the expected edge closes without a qualified edge while LOCKED (R33). -/
def State.missEdge (s : State) : State :=
  match s.rtu.expected with
  | some x =>
    if s.reg RTU_STATUS_STATE = rtuLocked then
      let win := s.reg RTU_NOMPER_PERIOD / 2 ^ s.winShift
      let s := s.advanceTo ((x + win) / 65536).toNat
      let run := s.rtu.missRun + 1
      let s := { s with rtu := { s.rtu with missRun := run, qualRun := 0, missedSince := true,
                                             expected := some (x + s.reg RTU_PERIOD_PERIOD) } }
      let s := s.bump RTU_MISSED_EDGES
      if run ≥ s.lossCount then s.enterHoldover else s
    else s
  | none => s

end Sys2Proof.Machine
end

