-- ==== Sys2Proof/Machine/Cfg.lean ====
section
/-! DEFINITION. Configuration generations: commit, switch, rollback, discard, views, the error-log queue and the restore
(R40 to R54). -/

namespace Sys2Proof.Machine

open Sys2Proof.Reg

/-- The part serves as the active (R335, R349, R351, R353): HNG_STATUS.ROLE is 1 and it is not FENCED. -/
def State.isActive (s : State) : Bool := s.reg HNG_STATUS_ROLE == 1 && s.reg HNG_STATUS_PAIR != 4

/-- The ledger drives in LDG_ACTIVE: 0x3F names none (R265). -/
def State.ledgerDrives (s : State) : List Nat :=
  ([s.reg LDG_ACTIVE_A, s.reg LDG_ACTIVE_B].filter (· != 0x3F))

/-- The keys whose values differ between two copies of class L. -/
def changedKeys (a b : SMap Nat) : List Nat :=
  ((a ++ b).map (·.1)).filter fun k => SMap.find a k != SMap.find b k

/-- Some key from `8 × lo` up to below `8 × hi` is among the changed ones. -/
def changedIn (ks : List Nat) (lo hi : Nat) : Bool := ks.any fun k => decide (8 * lo ≤ k) && decide (k < 8 * hi)

/-- The offsets of NLT, CTX and RTU values that CONNECT_ACC carries in bytes 12 to 39 (R100, R108): the changed ones make
PARAMS due on the connections of port `p`. -/
def paramsChanged (ks : List Nat) (p : Nat) : Bool :=
  changedIn ks (0x400008 + 0x10000 * p) (0x40001C + 0x10000 * p) || changedIn ks 0x800000 0x800004 ||
    changedIn ks 0x10000C 0x100010

/-- A counter whose configuration changed returns to 0 (R414). -/
def State.resetChangedCounters (s : State) (ks : List Nat) : State :=
  if changedIn ks 0x3F01000 0x3F02600 then
    (List.range 176).foldl (fun s c =>
      if changedIn ks (0x3F01000 + 0x20 * c) (0x3F01018 + 0x20 * c) then s.setReg PMC_CTR_VALUE c 0 else s) s
  else s

/-- The starvation counter of a seat whose requester changed returns to 0 (R323). -/
def State.resetChangedSeats (s : State) (ks : List Nat) : State :=
  if changedIn ks 0x3000000 0x30000C0 then
    let keep := s.sbd.starve.filter fun e => !(changedIn ks (0x3000000 + 4 * e.1) (0x3000004 + 4 * e.1))
    { s with sbd := { s.sbd with starve := keep } }
  else s

/-- A changed shaper starts again from zero tokens (R224). -/
def State.resetChangedShapers (s : State) (ks : List Nat) : State :=
  let keep (base stride : Nat) (m : SMap Int) : SMap Int :=
    m.filter fun e => !(changedIn ks (base + stride * e.1) (base + stride * e.1 + 8))
  if changedIn ks 0x1800100 0x1824000 then
    { s with sch := { s.sch with portTok := keep 0x1800100 0x10 s.sch.portTok,
                                 svcTok := keep 0x1800400 0x10 s.sch.svcTok,
                                 subTok := keep 0x1804000 0x20 s.sch.subTok } }
  else s

/-- A policer whose words changed starts with both buckets full: it is no longer listed (R219)
(DEDUCED, log entry 32). -/
def State.refillChangedPolicers (s : State) (ks : List Nat) : State :=
  let keep := s.sch.policer.filter fun e => !(changedIn ks (0x180400C + 0x20 * e.1) (0x180401C + 0x20 * e.1))
  { s with sch := { s.sch with policer := keep } }

/-- PARAMS becomes due on every OPEN connection whose home port's announced values changed (R108). -/
def State.markParams (s : State) (ks : List Nat) : State :=
  let mark (c : Conn) : Conn := if c.state = 2 ∧ paramsChanged ks c.lport then { c with paramsDue := true } else c
  { s with ctx := { s.ctx with conns := s.ctx.conns.mapVal fun _ c => mark c } }

/-- Feeds follow their EN bits while the power block runs: off without it, and on, a fault forgotten, once it is set
again (R369). -/
def State.feedsFollow (s : State) : State :=
  if s.runs bSLP then
    [0, 1].foldl (fun s f =>
      if !s.flag SLP_FEED_CFG_EN f then s.setReg SLP_FEED_STAT_STATE f 0
      else if s.reg SLP_FEED_STAT_STATE f = 0 then s.setReg SLP_FEED_STAT_STATE f 1 else s) s
  else s

/-- The slots a copy of the handler table binds (R163, R164). -/
def boundSlots (m : SMap Nat) : List Nat :=
  (List.range 256).filterMap fun o =>
    if SMap.get 0 m (BNC_HANDLER_VALID.key o) = 1 then some (SMap.get 0 m (BNC_HANDLER_SLOT.key o)) else none

/-! ### What the generation area holds (R51) -/

/-- The words that a copy lists, by address: those of each field that differs from its reset value. -/
def copyWords (m : SMap Nat) : List Nat :=
  let words (k : Nat) : List Nat :=
    match fieldOfKey k with
    | some f => (List.range ((k % 32 + f.width + 31) / 32)).map fun j => k / 32 * 4 + 4 * j
    | none => []
  ((m.flatMap fun e => words e.1).foldl (fun (x : SMap Nat) a => SMap.put a 0 x) []).map (·.1)

/-- The value of the word at address `a` in a copy of class L. -/
def wordIn (m : SMap Nat) (a : Nat) : Nat :=
  match findReg a with
  | some ra => wordOf ra.reg ra.off fun f => SMap.get (f.reset ra.inst) m (f.key ra.inst)
  | none => 0

/-- A run of one word: block number, offset, count, word (R51) (PRESUMED, log entry 77). -/
def runBytes (a w : Nat) : List Byte :=
  let b := (blockOf a).getD 0
  [b8 b] ++ leBytes 3 (a - blockBases.getD b 0) ++ leBytes 4 1 ++ leBytes 4 w

/-- The body that lists the words `as`: their runs, ended by a run of count 0 (R51) (PRESUMED, log entry 77). -/
def bodyOf (as : List Nat) (word : Nat → Nat) : List Byte :=
  as.flatMap (fun a => runBytes a (word a)) ++ List.replicate 8 0

/-- The value of a register word as it acts. -/
def State.actingWord (s : State) (a : Nat) : Nat :=
  match findReg a with
  | some ra => wordOf ra.reg ra.off fun f => s.reg f ra.inst
  | none => 0

/-- The body of the generation that acts: every class-L and class-I word that differs from its reset value (R51). -/
def State.genBody (s : State) : List Byte :=
  let live := s.regs.live.filter fun e => ((fieldOfKey e.1).map (·.cls)) == some .I
  bodyOf (copyWords (live.foldl (fun m e => SMap.put e.1 e.2 m) s.regs.cur)) s.actingWord

/-- Bytes padded with zeros to `n`. -/
def padTo (n : Nat) (bs : List Byte) : List Byte := (bs ++ List.replicate (n - bs.length) 0).take n

/-- The first 4 KiB of a slot (R51) (PRESUMED, log entry 77). -/
def Persist.header (j : Persist) : List Byte :=
  padTo 4096 (leBytes 4 0x43474E48 ++ leBytes 4 j.gen ++ leBytes 8 j.seq ++ leBytes 4 j.body.length ++
    leBytes 4 (crc32c j.body).toNat)

/-- The last 4 KiB of a slot: the commit record, the seal word in its final 8 bytes (R51) (PRESUMED, log entry 77). -/
def Persist.record (j : Persist) : List Byte :=
  padTo 4088 (leBytes 4 0x43474E43 ++ leBytes 4 j.gen ++ leBytes 8 j.seq ++ leBytes 4 (crc32c j.body).toNat) ++
    leBytes 8 0x5345414C

/-! ### Writing the generation area (R51, R52) -/

/-- The generation area may be written: the part is ACTIVE, LDG runs and LDG_ACTIVE names a drive (R52). -/
def State.mayPersist (s : State) : Bool := s.runs bLDG && s.isActive && s.ledgerDrives != []

/-- The next generation that waits is written into the next slot of the ledger drives (R51). -/
def State.startPersist (s : State) : State :=
  match s.cfg.queue, s.cfg.persist with
  | e :: rest, none =>
    if !s.mayPersist then s
    else
      let slot := (s.cfg.slot + 1) % 4
      let job : Persist := { gen := e.1, seq := s.cfg.seq + 1, slot := slot, body := e.2, drawers := s.ledgerDrives }
      { s with cfg := { s.cfg with persist := some job, queue := rest, seq := s.cfg.seq + 1, slot := slot } }.setFlag
        CFG_STATUS_PERSISTING 0 true
  | _, _ => s

/-- The generation that acts is to be written: behind those that wait, or not at all while the area may not be written
(R51, R52). -/
def State.persistCurrent (s : State) : State :=
  if s.mayPersist then
    { s with cfg := { s.cfg with queue := s.cfg.queue ++ [(s.reg CFG_GEN_CURRENT_GEN, s.genBody)] } }.startPersist
  else s

/-- The area may no longer be written: the write that runs ends, and nothing waits; what acts when it may be written again
is written then (R52). -/
def State.persistStop (s : State) : State :=
  { s with cfg := { s.cfg with persist := none, queue := [] } }.setFlag CFG_STATUS_PERSISTING 0 false

/-- Every member of `need` is in `have_`. -/
def allIn (need have_ : List Nat) : Bool := need.all have_.contains

/-- A generation is durable: both commit records are complete, or the one that suffices (R51). -/
def State.persistEnds (s : State) (gen : Nat) : State :=
  let s := { s with cfg := { s.cfg with persist := none } }.setFlag CFG_STATUS_PERSISTING 0 false
  let s := (s.setReg CFG_GEN_DURABLE_GEN 0 gen).raise CFG_EVENT_DURABLE
  (s.record 0x11 1 bCFG (leBytes 4 gen ++ [4])).startPersist

/-- Slot `slot` of drive `d`'s generation area as `f` leaves it (R51). -/
def State.updArea (s : State) (d slot : Nat) (f : GenMedia → GenMedia) : State :=
  { s with cfg := { s.cfg with area := SMap.put (4 * d + slot) (f (SMap.get {} s.cfg.area (4 * d + slot))) s.cfg.area } }

/-- A body or a commit record reached drive `d` (R51): the record follows the bodies, and both records make the
generation durable. -/
def State.persistDone (s : State) (d : Nat) (record : Bool) : State :=
  match s.cfg.persist with
  | none => s
  | some j =>
    if !j.drawers.contains d then s
    else if !record then
      let s := s.updArea d j.slot fun m => { m with header := j.header, body := j.body }
      { s with cfg := { s.cfg with persist := some { j with bodyDone := d :: j.bodyDone } } }
    else if !allIn j.drawers j.bodyDone then s
    else
      let s := s.updArea d j.slot fun m => { m with record := j.record }
      let j := { j with recordDone := d :: j.recordDone }
      if allIn j.drawers j.recordDone then s.persistEnds j.gen
      else { s with cfg := { s.cfg with persist := some j } }

/-- A drive leaves the job: the others decide when it is done (R51: while a replacement is designated, one drive
suffices); with none left the area is not written. -/
def State.persistDrop (s : State) (d : Nat) : State :=
  match s.cfg.persist with
  | none => s
  | some j =>
    let ds := j.drawers.filter (· != d)
    if ds = [] then s.persistStop
    else
      let j := { j with drawers := ds }
      if allIn ds j.recordDone ∧ j.recordDone ≠ [] then s.persistEnds j.gen
      else { s with cfg := { s.cfg with persist := some j } }

/-! ### Switches (R43, R46, R47, R49) -/

/-- A switch of generations took effect: what follows from the values that changed, and the record and the write it
owes (R46, R49, R51, R382, R405). -/
def State.afterSwitch (s : State) (old : SMap Nat) (kind : Nat) : State :=
  let ks := changedKeys old s.regs.cur
  let s := ((((s.resetChangedCounters ks).resetChangedSeats ks).resetChangedShapers ks).refillChangedPolicers ks).markParams ks
  let s := s.feedsFollow
  let s := (s.setReg CFG_SWITCH_TIME_TIME 0 s.stamp).setFlag CFG_STATUS_SWITCH_UNSYNC 0 s.unsync
  let s := s.raise CFG_EVENT_SWITCHED
  let s := s.record 0x11 1 bCFG (leBytes 4 (s.reg CFG_GEN_CURRENT_GEN) ++ [b8 kind])
  s.persistCurrent.serviceAll

/-- The committed pending copy becomes current, and a new pending copy equal to it opens (R43, R46). -/
def State.switchCommitted (s : State) : State :=
  let old := s.regs.cur
  let s := { s with regs := { s.regs with prev := s.regs.cur, cur := s.regs.pend } }
  let s := s.setReg CFG_GEN_PREVIOUS_GEN 0 (s.reg CFG_GEN_CURRENT_GEN)
  let s := s.setReg CFG_GEN_CURRENT_GEN 0 (s.reg CFG_GEN_PENDING_GEN)
  let s := s.setReg CFG_GEN_PENDING_GEN 0 0
  let s := (s.setFlag CFG_STATUS_SEALED 0 false).setFlag CFG_STATUS_PREV_VALID 0 true
  s.afterSwitch old 1

/-- The previous copy becomes current again, the rolled-back copy is discarded (R49). -/
def State.switchRollback (s : State) : State :=
  let old := s.regs.cur
  let s := { s with regs := { s.regs with cur := s.regs.prev, pend := s.regs.prev, prev := [] } }
  let s := s.setReg CFG_GEN_CURRENT_GEN 0 (s.reg CFG_GEN_PREVIOUS_GEN)
  let s := s.setReg CFG_GEN_PREVIOUS_GEN 0 0
  let s := (s.setFlag CFG_STATUS_ROLLBACK_PENDING 0 false).setFlag CFG_STATUS_PREV_VALID 0 false
  s.afterSwitch old 2

/-- Action 3 of a boundary, or at once while no boundaries occur (R36, R43, R47): a sealed generation or a pending
rollback takes effect. -/
def State.generationSwitch (s : State) : State :=
  if s.flag CFG_STATUS_ROLLBACK_PENDING then s.switchRollback
  else if s.flag CFG_STATUS_SEALED then s.switchCommitted
  else s

/-- What waits for a boundary acts at once while there are none (R47). -/
def State.switchIfUnsync (s : State) : State := if s.unsync then s.generationSwitch else s

/-- CFG_RESULT written for a commit that ended; a non-zero result sets REJECTED and counts (R44, R45, R57). -/
def State.commitResult (s : State) (p : Path) (result rule index : Nat) : State :=
  let s := ((s.setReg CFG_RESULT_RESULT 0 result).setReg CFG_RESULT_RULE 0 rule).setReg CFG_RESULT_INDEX 0 index
  let a := accessAttr p CFG_COMMIT_GEN.addr
  if result = 0 then s.bump CFG_COMMITS 0 a else (s.bump CFG_REJECTS 0 a).raise CFG_EVENT_REJECTED

/-- A write of `g` to CFG_COMMIT through path `p` (R44). -/
def State.commitStart (s : State) (p : Path) (g : Nat) : State :=
  if s.flag CFG_STATUS_SEALED then s.commitResult p 3 0 0
  else if s.flag CFG_STATUS_ROLLBACK_PENDING then s.commitResult p 4 0 0
  else if s.flag CFG_STATUS_CHECKING then s.commitResult p 5 0 0
  else if g ≤ s.reg CFG_GEN_CURRENT_GEN then s.commitResult p 2 0 0
  else { s with cfg := { s.cfg with checking := some g, checkPath := p } }.setFlag CFG_STATUS_CHECKING 0 true

/-- Whether SEALED, CHECKING and ROLLBACK_PENDING are all 0 (R49). -/
def State.genIdle (s : State) : Bool :=
  !s.flag CFG_STATUS_SEALED && !s.flag CFG_STATUS_CHECKING && !s.flag CFG_STATUS_ROLLBACK_PENDING

/-- CFG_CTRL.DISCARD (R49): the pending copy becomes the current one, or is refused. -/
def State.discard (s : State) (p : Path) : State :=
  if s.genIdle then { s with regs := { s.regs with pend := s.regs.cur } }
  else s.logErr 0x08 p CFG_CTRL_DISCARD.addr

/-- The oldest entry of the error log is removed (R54). -/
def State.popErr (s : State) : State := { s with cfg := { s.cfg with errlog := s.cfg.errlog.tail } }

/-! ### The restore (R53) -/

/-- The best of the slots that qualify: complete seal word, matching CRC, read well, the highest sequence. -/
def bestSlot (slots : List GenSlot) : Option GenSlot :=
  (slots.filter fun g => g.readOk && g.sealed && g.crcOk).foldl (fun b g =>
    match b with
    | none => some g
    | some h => if h.seq < g.seq then some g else some h) none

/-- One restored word: class L goes into the new copy, class I takes effect where its block is stopped and is logged
with code 0x0C where it runs and differs (R53). -/
def State.restoreWord (s : State) (new : SMap Nat) (aw : Nat × Nat) : State × SMap Nat :=
  match findReg aw.1 with
  | none => (s, new)
  | some ra =>
    match wordClass ra.reg ra.off with
    | .L => (s, putWord ra.reg ra.inst ra.off aw.2 new)
    | .I =>
      let b := (blockOf aw.1).getD 0
      let live := wordOf ra.reg ra.off (fun f => s.reg f ra.inst)
      if !s.instRuns b ra.inst then
        ({ s with regs := { s.regs with live := putWord ra.reg ra.inst ra.off aw.2 s.regs.live } }, new)
      else if live = aw.2 then (s, new)
      else (s.logErr 0x0C .bureau aw.1, new)
    | _ => (s, new)

/-- The class-I words of registers that stand at another value than their reset value and that the body does not name:
a body holds every word that differs from its reset value, so it gives them that value (R51, R53)
(DEDUCED, log entry 94). -/
def State.absentWords (s : State) (body : List (Nat × Nat)) : List (Nat × Nat) :=
  let words (k : Nat) : List (Nat × Nat) :=
    match findReg (k / 8) with
    | none => []
    | some ra => ((List.range (ra.reg.bytes / 4)).filter fun j => wordClass ra.reg (4 * j) == .I).map fun j =>
        (ra.reg.addr + ra.reg.stride * ra.inst + 4 * j, wordOf ra.reg (4 * j) fun f => f.reset ra.inst)
  ((s.regs.live.flatMap fun e => words e.1).eraseDups).filter fun aw => !body.any fun x => x.1 == aw.1

/-- The restored generation replaces the current one and drops everything pending, and what this part was sent as a standby
where its number is not later (R53) (DEDUCED, log entry 76). -/
def State.applyRestore (s : State) (g : GenSlot) : State :=
  let old := s.regs.cur
  let (s, new) := (g.body ++ s.absentWords g.body).foldl (fun a aw => a.1.restoreWord a.2 aw) (s, ([] : SMap Nat))
  let s := if s.flag CFG_STATUS_CHECKING then
      ({ s with cfg := { s.cfg with checking := none } }.setFlag CFG_STATUS_CHECKING 0 false).commitResult s.cfg.checkPath 6 0 0
    else s
  let s := { s with regs := { s.regs with cur := new, pend := new, prev := [] }, cfg := { s.cfg with seq := g.seq, slot := g.slot % 4 },
                    hng := { s.hng with gens := s.hng.gens.filter fun e => decide (g.gen < e.1) } }
  let s := ((s.setFlag CFG_STATUS_SEALED 0 false).setFlag CFG_STATUS_ROLLBACK_PENDING 0 false).setFlag
    CFG_STATUS_PREV_VALID 0 false
  let s := ((s.setReg CFG_GEN_CURRENT_GEN 0 g.gen).setReg CFG_GEN_PENDING_GEN 0 0).setReg CFG_GEN_PREVIOUS_GEN 0 0
  s.afterSwitch old 1

/-! ### Class-L and class-I writes (R40, R42, R46, R50) -/

/-- A class-L word is stored in the pending copy, or discarded and logged while that copy is sealed or being
checked. -/
def State.writeL (s : State) (p : Path) (a : Nat) (ra : RegAt) (w : Nat) : State :=
  if s.flag CFG_STATUS_SEALED ∨ s.flag CFG_STATUS_CHECKING then s.logErr 0x07 p a
  else { s with regs := { s.regs with pend := putWord ra.reg ra.inst ra.off w s.regs.pend } }

/-- A class-I word takes effect at once while its block is stopped, else is discarded and logged. -/
def State.writeI (s : State) (p : Path) (a : Nat) (ra : RegAt) (w : Nat) : State :=
  if s.instRuns ((blockOf a).getD 0) ra.inst then s.logErr 0x01 p a
  else { s with regs := { s.regs with live := putWord ra.reg ra.inst ra.off w s.regs.live } }

/-- The copy of class L that path `p` reads (R41, R192): CFG_VIEW's for the three paths, the Bureau thread's VIEW. -/
def State.viewOf (s : State) (p : Path) (bureauView : Nat) : Nat :=
  match p with
  | .bureau => bureauView
  | p => s.reg CFG_VIEW_VIEW p.idx

/-- Field `f` as path `p` reads it (R41). -/
def State.readField (s : State) (view : Nat) (f : Field) (i : Nat) : Nat :=
  if f.acc = .wo then 0
  else if f.cls = .L then
    match view with
    | 1 => SMap.get (f.reset i) s.regs.cur (f.key i)
    | 2 => if s.flag CFG_STATUS_PREV_VALID then SMap.get (f.reset i) s.regs.prev (f.key i) else 0
    | _ => s.pendReg f i
  else s.reg f i

end Sys2Proof.Machine
end

