-- ==== Sys2Proof/Machine/Parity.lean ====
section
/-! DEFINITION. Sets and syndromes: where a volume block lies, which strips are unknown, and the field arithmetic of P
and Q (R248 to R253, R270 to R272, R286). -/

namespace Sys2Proof.Machine

open Sys2Proof.Reg

/-! ### Syndromes (R252, R253) -/

/-- Multiplication by the generator 0x02 in GF(2^8) with polynomial 0x11D. -/
def gfDouble (a : Byte) : Byte := if a.getLsbD 7 then (a <<< 1) ^^^ 0x1D#8 else a <<< 1

/-- `g^n · a`. -/
def gfScale (a : Byte) : Nat → Byte
  | 0 => a
  | n + 1 => gfDouble (gfScale a n)

/-- Product of two field elements, the second taken from its bit `n - 1` down. -/
def gfMulFrom (a b : Byte) : Nat → Byte
  | 0 => 0
  | n + 1 => (if b.getLsbD n then gfScale a n else 0) ^^^ gfMulFrom a b n

/-- Product of two field elements. -/
def gfMul (a b : Byte) : Byte := gfMulFrom a b 8

/-- Powers: `a^n`. -/
def gfPow (a : Byte) : Nat → Byte
  | 0 => 1
  | n + 1 => gfMul a (gfPow a n)

/-- The inverse of a non-zero element: `a^254`. -/
def gfInv (a : Byte) : Byte := gfPow a 254

/-- P of one byte position: the XOR of the data bytes. -/
def synP (ds : List Byte) : Byte := ds.foldl (· ^^^ ·) 0

/-- Q of the data bytes from data index `j` on. -/
def synQFrom (j : Nat) : List Byte → Byte
  | [] => 0
  | d :: ds => gfScale d j ^^^ synQFrom (j + 1) ds

/-- Q of one byte position. -/
def synQ (ds : List Byte) : Byte := synQFrom 0 ds

/-- The bytes of column `ds` with index `a` replaced. -/
def setAt (ds : List Byte) (a : Nat) (b : Byte) : List Byte := ds.set a b

/-- One byte position recovered (R253): data bytes with those of `miss` taken as 0, P and Q, and the lost strips (N is P,
N + 1 is Q), at most two. -/
def recoverByte (n : Nat) (ds : List Byte) (p q : Byte) (miss : List Nat) : List Byte × Byte × Byte :=
  let lostData := miss.filter fun i => decide (i < n)
  let ds0 := (List.range n).map fun i => if lostData.contains i then 0 else ds.getD i 0
  let p' := p ^^^ synP ds0
  let q' := q ^^^ synQ ds0
  let full : List Byte :=
    match lostData with
    | [a] => if miss.contains n then setAt ds0 a (gfMul (gfInv (gfScale 1 a)) q') else setAt ds0 a p'
    | [a, b] =>
      let da := gfMul (q' ^^^ gfScale p' b) (gfInv (gfScale 1 a ^^^ gfScale 1 b))
      setAt (setAt ds0 a da) b (p' ^^^ da)
    | _ => ds0
  (full, if miss.contains n then synP full else p, if miss.contains (n + 1) then synQ full else q)

/-- Strips of equal length, transposed to one list per byte position. -/
def columns (len : Nat) (strips : List (List Byte)) : List (List Byte) :=
  (List.range len).map fun i => strips.map fun st => st.getD i 0

/-- P and Q strips of data strips (GEN). -/
def genStrips (len : Nat) (ds : List (List Byte)) : List Byte × List Byte :=
  let cs := columns len ds
  (cs.map synP, cs.map synQ)

/-- The lost strips of `N + 2` in member order (RECON). -/
def reconStrips (n len : Nat) (strips : List (List Byte)) (miss : List Nat) : List (List Byte) :=
  let cs := (columns len strips).map fun c => recoverByte n (c.take n) (c.getD n 0) (c.getD (n + 1) 0) miss
  let pick (i : Nat) : List Byte := cs.map fun r => if i < n then r.1.getD i 0 else if i = n then r.2.1 else r.2.2
  ((List.range (n + 2)).filter miss.contains).map pick

/-- New P and Q from old and new data of member `j` (UPDATE). -/
def updateStrips (j : Nat) (od nd op oq : List Byte) : List Byte × List Byte :=
  let dd := List.zipWith (· ^^^ ·) od nd
  (List.zipWith (· ^^^ ·) op dd, List.zipWith (fun q d => q ^^^ gfScale d j) oq dd)

/-! ### Sets (R248, R249, R251) -/

/-- A set exists: EN is 1 and N lies in 4 to 22 (R251). -/
def State.setExists (s : State) (k : Nat) : Bool :=
  s.flag PAR_SET_EN k && decide (4 ≤ s.reg PAR_SET_N k) && decide (s.reg PAR_SET_N k ≤ 22)
/-- N. -/
def State.setN (s : State) (k : Nat) : Nat := s.reg PAR_SET_N k
/-- H, 3 acting as 2. -/
def State.setH (s : State) (k : Nat) : Nat := min 2 (s.reg PAR_SET_H k)
/-- W. -/
def State.setW (s : State) (k : Nat) : Nat := s.setN k + 2 + s.setH k
/-- Blocks of a strip: strip size / 4,096. -/
def State.setSb (s : State) (k : Nat) : Nat := 16 * 2 ^ (min 4 (s.reg PAR_SET_S_M16 k))
/-- The member extent's base. -/
def State.setBase (s : State) (k : Nat) : Nat := s.reg PAR_SET_BASE_LO k + 2 ^ 32 * s.reg PAR_SET_BASE_HI k
/-- ROWS. -/
def State.setRows (s : State) (k : Nat) : Nat := s.reg PAR_SET_ROWS k
/-- L as a mask of positions (R271). -/
def State.lostMask (s : State) (k : Nat) : Nat := s.reg PAR_SET_STATE_LOST k
/-- Position `x` is in L. -/
def State.isLost (s : State) (k x : Nat) : Bool := bitOf (s.lostMask k) x
/-- The set is offline. -/
def State.setOffline (s : State) (k : Nat) : Bool := s.reg PAR_SET_STATE_STATE k == 4
/-- What the set holds beside its registers. -/
def State.setSt (s : State) (k : Nat) : SetState := SMap.get {} s.par.sets k
/-- It changed. -/
def State.updSet (s : State) (k : Nat) (f : SetState → SetState) : State :=
  { s with par := { s.par with sets := SMap.put k (f (s.setSt k)) s.par.sets } }
/-- N' while reshaping. -/
def State.newN (s : State) (k : Nat) : Nat := s.reg PAR_RB_STATE_NEWN k
/-- The set is being reshaped. -/
def State.reshaping (s : State) (k : Nat) : Bool := s.newN k != 0
/-- CURSOR of the pass or of the reshape. -/
def State.cursor (s : State) (k : Nat) : Nat := s.reg PAR_RB_STATE_CURSOR_LO k + 2 ^ 32 * s.reg PAR_RB_STATE_CURSOR_HI k
/-- CURSOR set. -/
def State.setCursor (s : State) (k v : Nat) : State :=
  (s.setReg PAR_RB_STATE_CURSOR_LO k (v % 2 ^ 32)).setReg PAR_RB_STATE_CURSOR_HI k (v / 2 ^ 32)

/-- The Drawer at position `x`: a replacement, an added Drawer, or PAR_SETMEM's (R272, R285). -/
def State.posDrawer (s : State) (k x : Nat) : Nat :=
  match SMap.find (s.setSt k).moved x with
  | some d => d
  | none =>
    if s.reshaping k ∧ s.setW k ≤ x then (s.setSt k).added.getD (x - s.setW k) 0x3F
    else s.reg PAR_SETMEM_DRAWER (32 * k + x)

/-- The positions of a set, those of a reshape included. -/
def State.positions (s : State) (k : Nat) : List Nat :=
  List.range (if s.reshaping k then s.newN k + 2 + s.setH k else s.setW k)

/-- The set and position that a Drawer holds. -/
def State.memberOf (s : State) (d : Nat) : Option (Nat × Nat) :=
  (List.range 8).findSome? fun k =>
    if s.setExists k then ((s.positions k).find? fun x => s.posDrawer k x == d).map fun x => (k, x) else none

/-- A row's layout: its number, data members, positions, and whether it is a row of the new layout (R286). -/
structure RowAt where
  set : Nat
  row : Nat
  n : Nat
  w : Nat
  new : Bool

/-- The old layout's row `r`. -/
def State.oldRow (s : State) (k r : Nat) : RowAt := { set := k, row := r, n := s.setN k, w := s.setW k, new := false }
/-- The new layout's row `r`. -/
def State.newRow (s : State) (k r : Nat) : RowAt :=
  { set := k, row := r, n := s.newN k, w := s.newN k + 2 + s.setH k, new := true }

/-- The row as it lies now: of the new layout below the reshape's cursor (R286). -/
def State.layoutRow (s : State) (k r : Nat) : RowAt :=
  if s.reshaping k ∧ r < s.cursor k then s.newRow k r else s.oldRow k r

/-- LOST of an intent record in a row: L, and bit 31 for a row of the new layout (R258, R286). -/
def State.recordLost (s : State) (r : RowAt) : Nat := s.lostMask r.set + if r.new then 2 ^ 31 else 0

/-- The reshape boundary b, a set data block (R286). -/
def State.reshapeB (s : State) (k : Nat) : Nat := if s.reshaping k then s.cursor k * s.newN k * s.setSb k else 0

/-- Where set data block `d` lies: its row, data index and block offset (R251, R286). -/
def State.place (s : State) (k d : Nat) : RowAt × Nat × Nat :=
  let sb := s.setSb k
  if d < s.reshapeB k then
    let r := s.newRow k (d / (s.newN k * sb))
    (r, d % (r.n * sb) / sb, d % sb)
  else
    let r := s.oldRow k (d / (s.setN k * sb))
    (r, d % (r.n * sb) / sb, d % sb)

/-- The position of strip `i` of a row (R250): data index, N for P, N + 1 for Q, N + 2 + h for spare h. -/
def RowAt.pos (r : RowAt) (i : Nat) : Nat :=
  let p := r.w - 1 - r.row % r.w
  if i < r.n then (p + 2 + i) % r.w
  else if i = r.n then p
  else if i = r.n + 1 then (p + 1) % r.w
  else (p + 2 + i - 2) % r.w

/-- A position's target: its kind (0 none, 1 spare, 2 replacement) and its spare index or Drawer (R272). -/
def State.target (s : State) (k x : Nat) : Nat × Nat :=
  (s.reg PAR_POSMAP_TKIND (32 * k + x), s.reg PAR_POSMAP_TARGET (32 * k + x))

/-- The start row of a position whose circle is complete: every row lies behind the pass. -/
def allRows := 2 ^ 60

/-- Row `r` lies behind the pass for position `x`: from its start row up to the cursor, in pass order (R275). -/
def State.behind (s : State) (k x r : Nat) : Bool :=
  match SMap.find (s.setSt k).startRow x with
  | none => false
  | some a =>
    let c := s.cursor k
    if a = allRows then true else
    if a ≤ c then decide (a ≤ r) && decide (r < c) else decide (a ≤ r) || decide (r < c)

/-- The Drawer of a row's spare strip `h`, if its position is not lost. -/
def State.spareHome (s : State) (r : RowAt) (h : Nat) : Option Nat :=
  let y := r.pos (r.n + 2 + h)
  if s.isLost r.set y then none else some (s.posDrawer r.set y)

/-- The Drawer that holds strip `i` of a row, none while the strip is unknown (R256, R271, R272). -/
def State.stripHome (s : State) (r : RowAt) (i : Nat) : Option Nat :=
  let k := r.set
  let x := r.pos i
  let (tk, tv) := s.target k x
  let rebuilt := s.flag PAR_POSMAP_REBUILT (32 * k + x)
  let spare := match (List.range 2).find? fun h => bitsOf (s.reg PAR_RB_STATE_SPARES k) (8 * h) 8 == x with
    | some h => s.spareHome r h
    | none => none
  if s.isLost k x then
    if tk = 1 ∧ s.behind k x r.row then s.spareHome r tv
    else if tk = 2 then (if s.behind k x r.row then some tv else spare)
    else none
  else if rebuilt then
    if tk = 2 ∧ s.behind k x r.row then some tv else spare
  else some (s.posDrawer k x)

/-- The unknown strips of a row (R271). -/
def State.rowUnknown (s : State) (r : RowAt) : List Nat :=
  (List.range (r.n + 2)).filter fun i => (s.stripHome r i).isNone

/-- The member block of block offset `o` of a row (R249, R251). -/
def State.memberBlock (s : State) (r : RowAt) (o : Nat) : Nat := s.setBase r.set + r.row * s.setSb r.set + o

/-! ### Volumes (R251) -/

def State.volValid (s : State) (v : Nat) : Bool := s.flag PAR_VOL_VALID v
def State.volSet (s : State) (v : Nat) : Nat := s.reg PAR_VOL_SET v
def State.volBase (s : State) (v : Nat) : Nat := s.reg PAR_VOL_BASE_LO v + 2 ^ 32 * s.reg PAR_VOL_BASE_HI v
def State.volSize (s : State) (v : Nat) : Nat :=
  if s.volValid v then s.reg PAR_VOL_SIZE_LO v + 2 ^ 32 * s.reg PAR_VOL_SIZE_HI v else 0

/-- One contiguous piece of a strip: its row, its strip, its block offset, its blocks, and the index in the range of its
first block. -/
structure Span where
  row : RowAt
  strip : Nat
  boff : Nat
  count : Nat
  index : Nat

/-- The pieces of `n` blocks from set data block `d` on: each within one strip. -/
def State.spansFrom (s : State) (k : Nat) : Nat → Nat → Nat → Nat → List Span
  | 0, _, _, _ => []
  | fuel + 1, d, n, i =>
    if n = 0 then []
    else
      let (r, j, o) := s.place k d
      let c := min n (s.setSb k - o)
      { row := r, strip := j, boff := o, count := c, index := i } :: s.spansFrom k fuel (d + c) (n - c) (i + c)

/-- The pieces of a volume's block range. -/
def State.spans (s : State) (v slba n : Nat) : List Span :=
  s.spansFrom (s.volSet v) (n + 1) (s.volBase v + slba) n 0

/-- The spans of a range grouped by row: rows in order, each with its spans. -/
def spanRows (sp : List Span) : List (RowAt × List Span) :=
  sp.foldl (fun acc x =>
    match acc.getLast? with
    | some (r, xs) =>
      if r.row = x.row.row ∧ r.new = x.row.new then acc.dropLast ++ [(r, xs ++ [x])] else acc ++ [(x.row, [x])]
    | none => [(x.row, [x])]) []

/-- The columns of a row that its spans cover, as one run: first block offset and count. -/
def coverRun (xs : List Span) : Nat × Nat :=
  let lo := xs.foldl (fun a x => min a x.boff) (2 ^ 40)
  let hi := xs.foldl (fun a x => max a (x.boff + x.count)) 0
  (lo, hi - lo)

/-- Data blocks of the column at offset `o` that spans change (R254). -/
def touched (xs : List Span) (o : Nat) : Nat :=
  (xs.filter fun x => decide (x.boff ≤ o) && decide (o < x.boff + x.count)).length

/-- The form of a column (R254): 1 full, 2 reconstruct, 3 update. -/
def columnForm (n t : Nat) : Nat := if t = n then 1 else if n ≤ 2 * t + 2 then 2 else 3

/-! ### Damage (R280 to R282) -/

/-- The damage records held, with their slots. -/
def State.damageRecs (s : State) : List (Nat × Record) := s.ldg.recs.filter fun e => e.2.kind == 0x13

/-- A damage record covers block `o` of data index `j` in a row. -/
def Record.damages (d : Record) (r : RowAt) (j o : Nat) : Bool :=
  d.kind == 0x13 && d.set == r.set && d.row == r.row && bitOf d.dmask j && decide (d.boff ≤ o) &&
    decide (o < d.boff + d.bcnt)

/-- The index in the range of the first damaged block of spans, if one is damaged (R280). -/
def State.firstDamaged (s : State) (xs : List Span) : Option Nat :=
  let ds := s.damageRecs
  if ds = [] then none
  else xs.findSome? fun x => ((List.range x.count).find? fun i =>
    ds.any fun d => d.2.damages x.row x.strip (x.boff + i)).map (· + x.index)

/-! ### Drawers (R300) -/

/-- A Drawer beside its registers. -/
def State.drawer (s : State) (d : Nat) : Drawer := SMap.get {} s.drv.drawers d
/-- It changed. -/
def State.updDrawer (s : State) (d : Nat) (f : Drawer → Drawer) : State :=
  { s with drv := { s.drv with drawers := SMap.put d (f (s.drawer d)) s.drv.drawers } }

/-- Drawer states (R300). -/
def dEMPTY := 0
def dPOWERING := 1
def dTRAINING := 2
def dINIT := 3
def dREADY := 4
def dRESET := 5
def dFAILED := 6
def dOFF := 7

def State.dState (s : State) (d : Nat) : Nat := s.reg DRV_STATE_STATE d
def State.isReady (s : State) (d : Nat) : Bool := s.dState d == dREADY
/-- Present and healthy (R265). -/
def State.healthy (s : State) (d : Nat) : Bool := s.isReady d && s.reg DRV_WARN_CW d == 0
/-- The Drawer's capacity in units. -/
def State.dUnits (s : State) (d : Nat) : Nat := s.reg DRV_CAP_UNITS d

end Sys2Proof.Machine
end

