-- ==== Sys2Proof/Machine/Ledger.lean ====
section
/-! DEFINITION. Ledger records, the dirty map, rings, the ledger drives, lost members, targets and damage (R258 to R266,
R270 to R283). -/

namespace Sys2Proof.Machine

open Sys2Proof.Reg

/-! ### Records (R258, R259, R315) -/

/-- Highest number of record slots. -/
def slotCount := 65536

/-- Bytes 0 to 111 of a record in slot `k` (R258). -/
def Record.head (r : Record) (k : Nat) : List Byte :=
  leBytes 4 0x4C444752 ++ [b8 r.kind, b8 r.set] ++ leBytes 2 k ++ leBytes 8 r.rseq ++ leBytes 8 r.row ++
    leBytes 4 r.dmask ++ leBytes 4 r.lost ++ leBytes 4 r.boff ++ leBytes 4 r.bcnt ++ leBytes 2 r.vol ++
    List.replicate 6 0 ++ leBytes 8 r.slba ++ leBytes 4 r.conn ++ leBytes 4 r.msgid ++ leBytes 4 r.csn ++
    leBytes 4 r.gen ++ leBytes 8 r.written ++ (r.extra ++ List.replicate 32 0).take 32

/-- The record's 128 bytes as sealed at epoch count `e`. -/
def Record.sealedBytes (r : Record) (k e : Nat) : List Byte :=
  let b := r.head k ++ leBytes 8 e
  b ++ leBytes 4 (crc32c b).toNat ++ leBytes 4 0x5345414C

/-- Where slot `k` lies; its twin lies 256 bytes above (R315). -/
def slotAddr (k : Nat) : Nat := ledgerBase + 512 * k

/-- Write a slot and its twin. -/
def State.writeSlot (s : State) (k : Nat) (bs : List Byte) : State :=
  (s.sbWrite (slotAddr k) bs).sbWrite (slotAddr k + 256) bs

/-- The lowest free record slot. -/
def State.freeRecSlot (s : State) : Option Nat :=
  let k := lowestFree 0 (s.ldg.recs.map (·.1))
  if k < slotCount then some k else none

/-- LDG_STATUS.OPEN follows the unretired records. -/
def State.countOpen (s : State) : State := s.setReg LDG_STATUS_OPEN 0 s.ldg.recs.length

/-! ### The dirty map (R260) -/

/-- Key of a region. -/
def regionKey (k x : Nat) : Nat := 2 ^ 32 * k + x

/-- LDG_DIRTY follows the map. -/
def State.countDirty (s : State) : State := s.setReg LDG_DIRTY_COUNT 0 s.ldg.dirty.length

/-- Region `x` of set `k` becomes dirty. -/
def State.markDirty (s : State) (k x : Nat) : State :=
  let key := regionKey k x
  match SMap.find s.ldg.dirty key with
  | some d => { s with ldg := { s.ldg with dirty := SMap.put key { d with idle := 0 } s.ldg.dirty } }
  | none =>
    { s with ldg := { s.ldg with dirty := SMap.put key {} s.ldg.dirty,
                                 mapChanges := s.ldg.mapChanges ++ [(key, true)] } }.countDirty

/-- A record of region `key` was open in the epoch that runs (R260). -/
def State.regionLive (s : State) (key : Nat) : State :=
  match SMap.find s.ldg.dirty key with
  | some d => { s with ldg := { s.ldg with dirty := SMap.put key { d with live := true } s.ldg.dirty } }
  | none => s

/-- A region is dirty in a confirmed copy, or in a durable batch (R260). -/
def State.dirtyConfirmed (s : State) (k row : Nat) : Bool :=
  match SMap.find s.ldg.dirty (regionKey k (row / 256)) with
  | some d => d.confirmed
  | none => false

/-- The attributes of what a record's command causes (R413). -/
def Record.attr (r : Record) (s : State) : Attr :=
  if r.conn = 0 then {} else { (s.cmdAttr r.frame) with
    master := (s.connById r.conn).map (·.sub), cls := (s.connById r.conn).map (·.pcp) }

/-- Write a record into the lowest free slot: its RSEQ, its bytes in both copies, the dirty marks of its row's region and
of the next (R258 to R260). -/
def State.putRecord (s : State) (k : Nat) (r : Record) : State :=
  let r := { r with rseq := s.ldg.rseq + 1, gen := s.reg CFG_GEN_CURRENT_GEN, written := s.refTime }
  let s := { s with ldg := { s.ldg with recs := SMap.put k r s.ldg.recs, rseq := r.rseq } }
  let s := (s.writeSlot k (r.head k ++ List.replicate 16 0)).countOpen
  let s := ((s.bump LDG_RECORDS 0 (r.attr s)).markDirty r.set (r.row / 256)).markDirty r.set (r.row / 256 + 1)
  s.regionLive (regionKey r.set (r.row / 256))

/-- A record is retired: its slot is free (R259). -/
def State.retireRecord (s : State) (k : Nat) : State :=
  match SMap.find s.ldg.recs k with
  | none => s
  | some r =>
    let s := { s with ldg := { s.ldg with recs := SMap.del k s.ldg.recs, retired := s.ldg.retired ++ [r.rseq],
                                          retiredBatch := s.ldg.retiredBatch ++ [r.rseq] } }
    ((s.writeSlot k (List.replicate 128 0)).countOpen.bump LDG_RETIRES 0 (r.attr s)).regionLive (regionKey r.set (r.row / 256))

/-- Every intent record that is sealed, confirmed and whose writes are complete is retired, but for an offline set's
(R259, R283). -/
def State.retireReady (s : State) : State :=
  (s.ldg.recs.filter fun e => decide (e.2.kind ≤ 6) && e.2.sealed.isSome && e.2.confirmed && e.2.writesDone &&
    !s.setOffline e.2.set).foldl (fun s e => s.retireRecord e.1) s

/-- Change the records that satisfy `p`. -/
def State.mapRecords (s : State) (p : Record → Bool) (f : Record → Record) : State :=
  { s with ldg := { s.ldg with recs := s.ldg.recs.mapVal fun _ r => if p r then f r else r } }

/-- The newest confirmed checkpoint record of kind `kd` of set `k`. -/
def State.confirmedCkpt (s : State) (kd k : Nat) : Option Record :=
  ((s.ldg.recs.filter fun e => e.2.kind == kd && e.2.set == k && e.2.sealed.isSome && e.2.confirmed).map (·.2)).foldl
    (fun b r => match b with
      | none => some r
      | some c => if c.rseq < r.rseq then some r else some c) none

/-- A confirmed checkpoint retires its predecessors, and a confirmed reshape checkpoint the row records below it; the
set's CKPT shows its row (R277, R288, R294). -/
def State.settleCkpts (s : State) : State :=
  (List.range 8).foldl (fun s k => [0x10, 0x12].foldl (fun s kd =>
    match s.confirmedCkpt kd k with
    | none => s
    | some c =>
      let old := s.ldg.recs.filter fun e => e.2.set == k && decide (e.2.rseq < c.rseq) &&
        (e.2.kind == kd || (kd == 0x12 && e.2.kind == 0x11 && decide (e.2.row < c.row)))
      let s := old.foldl (fun s e => s.retireRecord e.1) s
      (s.setReg PAR_RB_STATE_CKPT_LO k (c.row % 2 ^ 32)).setReg PAR_RB_STATE_CKPT_HI k (c.row / 2 ^ 32)) s) s

/-- Records `rs` (RSEQs) and regions `ds` are confirmed (R259, R260). -/
def State.confirmRecords (s : State) (rs ds : List Nat) : State :=
  let s := s.mapRecords (fun r => rs.contains r.rseq) fun r => { r with confirmed := true }
  let dirty := s.ldg.dirty.mapVal fun k (d : Dirty) => if ds.contains k then { d with confirmed := true } else d
  { s with ldg := { s.ldg with dirty := dirty } }.settleCkpts.retireReady

/-- Every drive write that a command's records in rows `rows` of a set cover has completed. -/
def State.writesDone (s : State) (frame set : Nat) (rows : List Nat) : State :=
  (s.mapRecords (fun r => r.frame == some frame && r.set == set && rows.contains r.row)
    fun r => { r with writesDone := true }).retireReady

/-- A command ended with no drive write out: none of its records covers one. -/
def State.frameWritesDone (s : State) (frame : Nat) : State :=
  (s.mapRecords (fun r => r.frame == some frame) fun r => { r with writesDone := true, frame := none }).retireReady

/-- Seal of the closing epoch (action 2 of R36): every record not yet sealed. -/
def State.sealRecords (s : State) (e : Nat) : State :=
  s.ldg.recs.foldl (fun s kr =>
    match kr.2.sealed with
    | some _ => s
    | none =>
      let r := { kr.2 with sealed := some e }
      { s with ldg := { s.ldg with recs := SMap.put kr.1 r s.ldg.recs } }.writeSlot kr.1 (r.sealedBytes kr.1 e)) s

/-- RETAIN, 0 acting as 1. -/
def State.retain (s : State) : Nat := max 1 (s.reg LDG_REGION_RETAIN)

/-- At a boundary of the active part, a region of which no record was open in the epoch grows idle, and is cleared after
RETAIN such epochs; a standby's map follows the copies (R260, R261). -/
def State.ageDirty (s : State) : State :=
  if !s.isActive then s
  else
  let hasOpen (key : Nat) : Bool := s.ldg.recs.any fun e => regionKey e.2.set (e.2.row / 256) == key
  let aged := s.ldg.dirty.mapVal fun k d =>
    { d with idle := if d.live ∨ hasOpen k then 0 else d.idle + 1, live := false }
  let gone := (aged.filter fun e => decide (s.retain ≤ e.2.idle)).map (·.1)
  { s with ldg := { s.ldg with dirty := aged.filter (fun e => decide (e.2.idle < s.retain)),
                               mapChanges := s.ldg.mapChanges ++ gone.map (fun k => (k, false)),
                               cleared := s.ldg.cleared ++ gone } }.countDirty

/-! ### Rings (R262, R265, R266) -/

/-- An event record of the ledger (R405). -/
def State.ldgRecord (s : State) (ev drawer : Nat) : State :=
  s.record 0x61 (if ev = 4 then 3 else 2) bLDG [b8 ev, b8 drawer]

/-- The rings in use. -/
def State.rings (s : State) : List Ring := s.ldg.ringA.toList ++ s.ldg.ringB.toList

/-- Some ring counts (R266) (DEDUCED, log entry 72). -/
def State.ringCounts (s : State) : Bool := s.rings.any (·.counts)

/-- Change the ring on a Drawer. -/
def State.updRing (s : State) (d : Nat) (f : Ring → Ring) : State :=
  let g (r : Ring) : Ring := if r.drawer = d then f r else r
  { s with ldg := { s.ldg with ringA := s.ldg.ringA.map g, ringB := s.ldg.ringB.map g } }

/-- The ring on a Drawer. -/
def State.ringOn (s : State) (d : Nat) : Option Ring := s.rings.find? fun r => r.drawer == d

/-- A map change of a batch or a copy: the set in bits 7:0, bit 8 for a region that becomes dirty, and the region in bits
47:16 (R262, R340) (DESIGN CHOICE, log entry 106). -/
def mapChangeBytes (key : Nat) (isSet : Bool) : List Byte :=
  leBytes 8 (key / 2 ^ 32 + Bool.nat isSet * 2 ^ 8 + 2 ^ 16 * (key % 2 ^ 32))

/-- The bytes of a batch's records, retirements and map changes (R262). -/
def Batch.content (b : Batch) : List Byte :=
  (b.full.flatMap fun e => e.2.sealedBytes e.1 (e.2.sealed.getD b.epoch)) ++ b.retire.flatMap (leBytes 8) ++
    (b.dirty.flatMap fun e => mapChangeBytes e.1 true) ++ b.cleared.flatMap fun k => mapChangeBytes k false

/-- A batch's length in 4 KiB units: a header of 64 bytes, what it carries, a trailer of 16 (R262). -/
def Batch.units (b : Batch) : Nat :=
  (64 + 128 * b.full.length + 8 * (b.retire.length + b.dirty.length + b.cleared.length) + 16 + 4095) / 4096

/-- A batch's header (R262) (DESIGN CHOICE, log entry 106). -/
def Batch.header (b : Batch) : List Byte :=
  padTo 64 (leBytes 4 0x4C444742 ++ [b8 1, b8 (Bool.nat b.ckpt), 0, 0] ++ leBytes 8 b.bseq ++ leBytes 8 b.epoch ++
    leBytes 4 b.full.length ++ leBytes 4 b.retire.length ++ leBytes 4 (b.dirty.length + b.cleared.length) ++
    leBytes 4 b.units)

/-- A batch as its ring holds it: the trailer takes the last 16 bytes, its CRC covers everything before, and the commit
word comes last (R262). -/
def Batch.bytes (b : Batch) : List Byte :=
  let body := padTo (4096 * b.units - 16) (b.header ++ b.content) ++ leBytes 8 b.bseq
  body ++ leBytes 4 (crc32c body).toNat ++ leBytes 4 0x4C444743

/-- The 4 KiB units of a ledger ring, at the start of a Drawer's system area (R263). -/
def ringUnits := 1048576

/-- A batch put behind those of a ring (R262). -/
def Ring.append (r : Ring) (b : Batch) : Ring :=
  { r with queue := r.queue ++ [{ b with place := r.next }], next := (r.next + b.units) % ringUnits }

/-- The unit behind the newest batch that a Drawer's ring holds (DESIGN CHOICE, log entry 106). -/
def State.ringNext (s : State) (d : Nat) : Nat :=
  match (SMap.get [] s.ldg.media d).getLast? with
  | some b => (b.place + b.units) % ringUnits
  | none => 0

/-- A batch of the records sealed at epoch `e`, or a checkpoint of everything open (R262). -/
def State.makeBatch (s : State) (e : Nat) (ckpt : Bool) : Batch :=
  let full := s.ldg.recs.filter fun r => ckpt || r.2.sealed == some e
  { bseq := s.ldg.bseq, ckpt := ckpt, epoch := e, recs := full.map (·.2.rseq), full := full,
    retire := if ckpt then [] else s.ldg.retiredBatch,
    dirty := (s.ldg.dirty.filter fun r => ckpt || !r.2.confirmed).map fun r => (r.1, 1),
    cleared := if ckpt then [] else s.ldg.cleared }

/-- The batch of a boundary is appended to each ring while the part is ACTIVE (R262, R353). -/
def State.appendBatch (s : State) (e : Nat) : State :=
  if s.isActive ∧ s.runs bLDG ∧ s.rings ≠ [] then
    let s := { s with ldg := { s.ldg with bseq := s.ldg.bseq + 1 } }
    let b := s.makeBatch e (s.ldg.ckptDue || s.ldg.bseq % 1024 == 0)
    { s with ldg := { s.ldg with
      ringA := s.ldg.ringA.map (·.append b), ringB := s.ldg.ringB.map (·.append b), ckptDue := false,
      retiredBatch := [], cleared := [] } }
  else s

/-- A record of RSEQ `r` still waits in the queue of a ring that counts. -/
def State.stillQueued (s : State) (r : Nat) : Bool :=
  s.rings.any fun g => g.counts && g.queue.any fun b => b.recs.contains r

/-- A region still waits there. -/
def State.dirtyQueued (s : State) (k : Nat) : Bool :=
  s.rings.any fun g => g.counts && g.queue.any fun b => b.dirty.any fun d => d.1 == k

/-- What is durable on every ring in use counts as confirmed for a part that runs alone, and while PFW_N is asserted (R18, R259, R260,
R355). -/
def State.confirmDurable (s : State) (b : Batch) : State :=
  if (s.hng.paired ∧ !s.top.pfw) ∨ !s.ringCounts then s
  else s.confirmRecords (b.recs.filter fun r => !s.stillQueued r)
    ((b.dirty.map (·.1)).filter fun k => !s.dirtyQueued k)

/-- LDG_ACTIVE.REPLACING follows the rings. -/
def State.countReplacing (s : State) : State :=
  s.setFlag LDG_ACTIVE_REPLACING 0 (s.rings.any (·.replacing))

/-- The entry of LDG_ACTIVE that names Drawer `d` reads 0x3F (R265). -/
def State.clearActive (s : State) (d : Nat) : State :=
  let s := if s.reg LDG_ACTIVE_A = d then { s.setReg LDG_ACTIVE_A 0 0x3F with ldg := { s.ldg with ringA := none } } else s
  if s.reg LDG_ACTIVE_B = d then { s.setReg LDG_ACTIVE_B 0 0x3F with ldg := { s.ldg with ringB := none } } else s

/-- A ledger drive is lost (R265, R266). -/
def State.ledgerDriveLost (s : State) (d : Nat) : State :=
  if s.runs bLDG ∧ d ≠ 0x3F ∧ (s.reg LDG_ACTIVE_A = d ∨ s.reg LDG_ACTIVE_B = d) then
    let s := (s.clearActive d).countReplacing
    let s := ((s.raise LDG_EVENT_DRIVE_LOST).ldgRecord 1 d).persistDrop d
    if s.ringCounts then s else (s.raise LDG_EVENT_NO_RING).ldgRecord 4 0x3F
  else s

/-- The Drawers that may be designated beside survivor `o` (R265). -/
def State.candidates (s : State) (o : Nat) : List Nat :=
  (List.range 48).filter fun d => bitOf (s.reg LDG_CAND_MASK) d && s.healthy d && d != o

/-- The replacement beside survivor `o`: the lowest on the other core, else the lowest of all. -/
def State.chooseRing (s : State) (o : Nat) : Option Nat :=
  let cs := s.candidates o
  let other := if o = 0x3F then cs else cs.filter fun d => decide (d < 24) != decide (o < 24)
  match other.head? with
  | some d => some d
  | none => cs.head?

/-- Designate a replacement for entry A (or B) where it reads 0x3F (R265, R266); its checkpoint carries the newest batch's
BSEQ, so that no ring has a gap (DEDUCED, log entry 96). -/
def State.designate (s : State) (isA : Bool) : State :=
  let mine := if isA then s.reg LDG_ACTIVE_A else s.reg LDG_ACTIVE_B
  let other := if isA then s.reg LDG_ACTIVE_B else s.reg LDG_ACTIVE_A
  if mine ≠ 0x3F then s
  else
    match s.chooseRing other with
    | none => (s.raise LDG_EVENT_NO_CANDIDATE).ldgRecord 5 0x3F
    | some d =>
      let r := ({ drawer := d, replacing := true, next := s.ringNext d } : Ring).append (s.makeBatch s.epoch true)
      let s := if isA then { s.setReg LDG_ACTIVE_A 0 d with ldg := { s.ldg with ringA := some r } }
        else { s.setReg LDG_ACTIVE_B 0 d with ldg := { s.ldg with ringB := some r } }
      s.countReplacing.ldgRecord 2 d

/-- At a boundary a lost ledger drive is replaced, while the part is ACTIVE (R265). -/
def State.designateBoth (s : State) : State :=
  if s.runs bLDG ∧ s.isActive then (s.designate true).designate false else s

/-- A durable batch is what the ring on a Drawer holds; a checkpoint replaces what it held (R262). -/
def State.keepOnMedia (s : State) (d : Nat) (b : Batch) : State :=
  let held := if b.ckpt then [b] else SMap.get [] s.ldg.media d ++ [b]
  { s with ldg := { s.ldg with media := SMap.put d held s.ldg.media } }

/-- The oldest batch of a Drawer's ring became durable, or its write failed (R262, R265). -/
def State.batchDone (s : State) (d : Nat) (ok : Bool) : State :=
  match s.ringOn d with
  | none => s
  | some r =>
    match r.queue with
    | [] => s
    | b :: rest =>
      if !ok then s.ledgerDriveLost d
      else
        let counts := r.counts || b.ckpt
        let s := s.updRing d fun r => { r with queue := rest, counts := counts, genDue := r.genDue || (r.replacing && !r.counts) }
        let s := s.keepOnMedia d b
        let s := (s.bump LDG_BATCHES).setReg LDG_BSEQ_BSEQ 0 (max b.bseq (s.reg LDG_BSEQ_BSEQ))
        s.confirmDurable b

/-- The generation slot of a replacement is durable: REPLACING clears (R265). -/
def State.replacementDone (s : State) (d : Nat) : State :=
  match s.ringOn d with
  | some r =>
    if r.replacing ∧ r.counts then
      ((s.updRing d fun r => { r with replacing := false, genDue := false }).countReplacing.raise
        LDG_EVENT_REPLACED).ldgRecord 3 d
    else s
  | none => s

/-! ### Lost members and targets (R270 to R272, R283) -/

/-- An event record of a set (R405). -/
def State.setRecord (s : State) (k ev pos row : Nat) : State :=
  s.record 0x60 (if ev = 4 then 3 else 2) bPAR ([b8 k, b8 ev, b8 pos, 0, 0, 0, 0, 0] ++ leBytes 8 row)

/-- The positions in L. -/
def State.lostPositions (s : State) (k : Nat) : List Nat := (s.positions k).filter (s.isLost k)

/-- Some position in L has a target. -/
def State.hasTarget (s : State) (k : Nat) : Bool := (s.lostPositions k).any fun x => (s.target k x).1 != 0

/-- STATE written. -/
def State.setSetState (s : State) (k v : Nat) : State := s.setReg PAR_SET_STATE_STATE k v

/-- Position served by spare `h`; 0xFF free. -/
def State.spareServes (s : State) (k h : Nat) : Nat := bitsOf (s.reg PAR_RB_STATE_SPARES k) (8 * h) 8

/-- Spare `h` serves position `v` (0xFF: free). -/
def State.setSpare (s : State) (k h v : Nat) : State :=
  let o := s.spareServes k (1 - h)
  s.setReg PAR_RB_STATE_SPARES k (if h = 0 then v + 256 * o else o + 256 * v)

/-- The lowest free spare of a set. -/
def State.freeSpare (s : State) (k : Nat) : Option Nat :=
  (List.range (s.setH k)).find? fun h => s.spareServes k h == 0xFF

/-- Rows `a` to `b - 1` whose number modulo `w` is `c`. -/
def countResidue (a b w c : Nat) : Nat := (b + w - 1 - c) / w - (a + w - 1 - c) / w

/-- Rows behind the pass for position `x` whose spare strip `h` lies on position `y`. -/
def State.rowsOn (s : State) (k x h y : Nat) : Nat :=
  let w := s.setW k
  match (List.range w).find? fun c => (s.oldRow k c).pos (s.setN k + 2 + h) == y with
  | none => 0
  | some c =>
    match SMap.find (s.setSt k).startRow x with
    | none => 0
    | some a =>
      if a = allRows then countResidue 0 (s.setRows k) w c
      else if a ≤ s.cursor k then countResidue a (s.cursor k) w c
      else countResidue a (s.setRows k) w c + countResidue 0 (s.cursor k) w c

/-- UNCOVERED follows the uncovered rows of all positions (R272). -/
def State.countUncovered (s : State) (k : Nat) : State :=
  s.setReg PAR_RB_STATE_UNCOVERED k
    (((s.setSt k).uncovered.map fun e => (e.2.map (·.2)).sum).sum)

/-- `n` more rows of position `x` whose target strip lies on `y` are uncovered. -/
def State.addUncovered (s : State) (k x y n : Nat) : State :=
  if n = 0 then s
  else
    (s.updSet k fun t =>
      let l := SMap.get [] t.uncovered x
      let old := ((l.filter fun e => e.1 == y).map (·.2)).sum
      { t with uncovered := SMap.put x ((y, old + n) :: l.filter fun e => e.1 != y) t.uncovered }).countUncovered k

/-- Position `x` gets a target: the lowest free spare, else NEED_TARGET (R272, R278). -/
def State.giveTarget (s : State) (k x : Nat) : State :=
  match s.freeSpare k with
  | some h =>
    let s := (s.setSpare k h x).setReg PAR_POSMAP_TKIND (32 * k + x) 1
    let s := s.setReg PAR_POSMAP_TARGET (32 * k + x) h
    s.updSet k fun t => { t with startRow := SMap.put x (s.cursor k) t.startRow, nextBoff := 0 }
  | none => (s.raise PAR_RB_EVENT_NEED_TARGET).setRecord k 8 x 0

/-- The columns that the piece in progress of a set holds are free (R257, R275): a piece's holder is of no command and
counts as submitted. -/
def State.dropPieceHolders (s : State) (k : Nat) : State :=
  { s with par := { s.par with holders := s.par.holders.filter fun h => !(h.frame.isNone && h.set == k && h.submitted) } }

/-- A rebuilding set none of whose positions in L has a target is degraded (R271). -/
def State.settleState (s : State) (k : Nat) : State :=
  if s.reg PAR_SET_STATE_STATE k = 2 ∧ !s.hasTarget k then s.setSetState k 1 else s

/-- The set goes offline (R271, R283). -/
def State.goOffline (s : State) (k : Nat) (drawer : Option Nat) : State :=
  if s.setOffline k then s
  else
    let was := s.reg PAR_SET_STATE_STATE k
    let ident := (drawer.map fun d => s.reg DRV_NGUID_ID d).getD 0
    let s := s.updSet k fun t => { t with
      offlineDrawer := drawer, offlineFrom := was, piece := none, offlineId := ident }
    let s := s.dropPieceHolders k
    ((s.setSetState k 4).raise PAR_RB_EVENT_OFFLINE).setRecord k 4 0xFF 0

/-- Position `x` of set `k` becomes lost (R270, R271, R278). -/
def State.loseMember (s : State) (k x : Nat) : State :=
  if s.isLost k x then s
  else
    let d := s.posDrawer k x
    let s := (s.setReg PAR_SET_STATE_LOST k (s.lostMask k ||| 2 ^ x)).setFlag PAR_POSMAP_LOST (32 * k + x) true
    let s := ((s.setFlag PAR_POSMAP_REBUILT (32 * k + x) false).raise PAR_EVENT_DEGRADED).setRecord k 1 x 0
    let s := (s.lostPositions k).foldl (fun s y =>
      if (s.target k y).1 = 1 ∧ y ≠ x then s.addUncovered k y x (s.rowsOn k y (s.target k y).2 x) else s) s
    if 3 ≤ (s.lostPositions k).length then s.goOffline k (some d)
    else
      let s := if s.reg PAR_SET_STATE_STATE k = 0 then s.setSetState k 1 else s
      if s.reshaping k then s else s.giveTarget k x

/-- A Drawer's position, if it holds one, becomes lost; a replacement that fails is no target any more (R270, R272). -/
def State.loseDrawer (s : State) (d : Nat) : State :=
  let s := match s.memberOf d with
    | some (k, x) => if s.setExists k then s.loseMember k x else s
    | none => s
  (List.range 8).foldl (fun s k => (s.positions k).foldl (fun s x =>
    if s.target k x = (2, d) then
      (((s.setReg PAR_POSMAP_TKIND (32 * k + x) 0).setReg PAR_POSMAP_TARGET (32 * k + x) 0).raise
        PAR_RB_EVENT_NEED_TARGET).settleState k
    else s) s) s

/-- MEDIA_MAX, 0 acting as 1. -/
def State.mediaMax (s : State) : Nat := max 1 (s.reg PAR_RB_CFG_MEDIA_MAX)

/-- A repair of `n` blocks of position `x` counts; more than MEDIA_MAX in a working cycle lose the position (R270, R273). -/
def State.countRepair (s : State) (a : Attr) (k x n : Nat) : State :=
  let v := SMap.get 0 (s.setSt k).repairs x + n
  let s := (s.updSet k fun t => { t with repairs := SMap.put x v t.repairs }).bumpBy PAR_REPAIRS 0 n a
  if s.mediaMax < v then s.loseMember k x else s

/-! ### Damage (R279 to R281) -/

/-- PAR_DMG_COUNT follows the damage records. -/
def State.countDamage (s : State) : State := s.setReg PAR_DMG_COUNT_COUNT 0 s.damageRecs.length

/-- One damage record is written, or the set goes offline where 4,096 are held (R279, R281). -/
def State.recordDamage (s : State) (r : RowAt) (j boff cnt cause : Nat) : State :=
  if 4096 ≤ s.damageRecs.length then (s.goOffline r.set none).raise PAR_RB_EVENT_DMG_FULL
  else
    match s.freeRecSlot with
    | none => s
    | some k =>
      let s := s.putRecord k { kind := 0x13, set := r.set, row := r.row, dmask := 2 ^ j, boff := boff, bcnt := cnt,
                               lost := s.lostMask r.set, extra := [b8 cause], writesDone := true }
      let s := (s.countDamage.bump PAR_DMG_RECORDED).raise PAR_RB_EVENT_DAMAGE
      s.setRecord r.set 5 (r.pos j) r.row

/-- Blocks `boff` to `boff + cnt - 1` of several data indexes of a row are damaged; a block already recorded is recorded
once (R279, R293). -/
def State.damageStrips (s : State) (r : RowAt) (js : List Nat) (boff cnt cause : Nat) : State :=
  js.foldl (fun s j =>
    if s.damageRecs.any fun d => d.2.damages r j boff then s else s.recordDamage r j boff cnt cause) s

/-- The parts of a damage record left when its blocks `lo` to `hi - 1` are cleared. -/
def Record.cut (d : Record) (lo hi : Nat) : List Record :=
  let e := d.boff + d.bcnt
  (if d.boff < lo then [{ d with bcnt := min e lo - d.boff }] else []) ++
    (if hi < e then [{ d with boff := max hi d.boff, bcnt := e - max hi d.boff }] else [])

/-- The blocks of a span are written: damage records over them are cleared in part or whole (R280). -/
def State.clearDamage (s : State) (x : Span) : State :=
  let hit (d : Record) : Bool := d.set == x.row.set && d.row == x.row.row && bitOf d.dmask x.strip &&
    decide (d.boff < x.boff + x.count) && decide (x.boff < d.boff + d.bcnt)
  (s.damageRecs.filter fun e => hit e.2).foldl (fun s e =>
    let s := (s.retireRecord e.1).bump PAR_DMG_CLEARED
    let s := (e.2.cut x.boff (x.boff + x.count)).foldl (fun s d =>
      match s.freeRecSlot with
      | some k => (s.putRecord k { d with sealed := none, confirmed := false }).bump PAR_DMG_RECORDED
      | none => s) s
    s.countDamage) s

/-- A command's range is cleared of damage at its release (R280). -/
def State.clearRange (s : State) (vol slba n : Nat) : State :=
  if s.damageRecs = [] then s else (s.spans vol slba n).foldl State.clearDamage s

end Sys2Proof.Machine
end

