-- ==== Sys2Proof/Machine/Scheduler.lean ====
section
/-! DEFINITION. Policers, gates, shapers and the egress hierarchy (R217 to R230). -/

namespace Sys2Proof.Machine

open Sys2Proof.Reg

/-! ### Logical ports (R93) -/

/-- SPLIT of the 800G port a logical port belongs to (R93). -/
def State.split (s : State) (port : Nat) : Nat := s.reg NLT_PORTCFG_SPLIT (port / 4 * 4)

/-- The logical port is in use under the current split (R93). -/
def State.portInUse (s : State) (port : Nat) : Bool :=
  match s.split port with
  | 0 => port % 4 == 0
  | 1 => port % 2 == 0
  | _ => true

/-- Line rate of a logical port in Mb/s (R225). -/
def State.portRate (s : State) (port : Nat) : Nat :=
  match s.split port with
  | 0 => 800000
  | 1 => 400000
  | _ => 200000

/-- The logical port runs (R94). -/
def State.portRuns (s : State) (port : Nat) : Bool := s.flag NLT_RUN_RUN port

/-- A logical port is down: its clock is missing (R444), its link fault has outlasted the hold, or its flush runs (R94,
R214). -/
def State.portIsDown (s : State) (port : Nat) : Bool :=
  s.top.clocksLost.contains (1 + port / 16) || s.nlt.flushing.contains port ||
    ((SMap.find s.cab.faultAt port).isSome && !s.flag CAB_PORTFILL_HOLDING port)

/-! ### Policers (R217 to R220) -/

/-- Tokens of one byte: buckets are kept in 1/2,048,000 byte, so that a rate in Mb/s times a length in 2^-8 ns adds
exactly (R219). -/
def polByte := 2048000

/-- The acting rates and depths (R219): PIR at least CIR, depths at least 9,216 bytes. -/
def State.polPir (s : State) (u : Nat) : Nat := max (s.reg SCH_SUB_PIR u) (s.reg SCH_SUB_CIR u)
def State.polCbs (s : State) (u : Nat) : Nat := max 9216 (s.reg SCH_SUB_CBS u) * polByte
def State.polPbs (s : State) (u : Nat) : Nat := max 9216 (s.reg SCH_SUB_PBS u) * polByte

/-- A subscriber's buckets: full where they are not listed. -/
def State.policer (s : State) (u : Nat) : Policer :=
  match SMap.find s.sch.policer u with
  | some p => { tc := min p.tc (s.polCbs u), tp := min p.tp (s.polPbs u) }
  | none => { tc := s.polCbs u, tp := s.polPbs u }

/-- The refill of every policer at a line start (R219): the line's length in 2^-8 ns. -/
def State.refillPolicers (s : State) : State :=
  let len := s.reg RTU_LINE_LEN_LEN
  let next (u : Nat) (p : Policer) : Policer :=
    { tc := min (s.polCbs u) (p.tc + s.reg SCH_SUB_CIR u * len), tp := min (s.polPbs u) (p.tp + s.polPir u * len) }
  let full (u : Nat) (p : Policer) : Bool := p.tc == s.polCbs u && p.tp == s.polPbs u
  { s with sch := { s.sch with policer := (s.sch.policer.mapVal next).filter fun e => !full e.1 e.2 } }

/-- A packet's pre-colour (R218): 0 green, 1 yellow, 2 red. -/
def State.preColour (s : State) (u : Nat) (m : RxMeta) : Nat :=
  if s.flag SCH_SUB_AWARE u then
    let d := min 2 (bitsOf (s.reg SCH_DSCP_COLOUR_COLOUR (m.dscp / 16)) (2 * (m.dscp % 16)) 2)
    max d (if m.dei then 1 else 0)
  else 0

/-- The trTCM's decision for a packet of `n` bytes, the buckets debited, the monitored subscriber's colours counted
(R219, R230) (DEDUCED, log entry 32). -/
def State.meter (s : State) (a : Attr) (u : Nat) (m : RxMeta) (n : Nat) : Nat × State :=
  let pre := s.preColour u m
  let b := n * polByte
  let off := s.reg SCH_SUB_CIR u == 0 && s.reg SCH_SUB_PIR u == 0
  let p := s.policer u
  let (col, p') :=
    if off then (pre, p)
    else if pre = 2 ∨ p.tp < b then (2, p)
    else if pre = 1 ∨ p.tc < b then (1, { p with tp := p.tp - b })
    else (0, { tc := p.tc - b, tp := p.tp - b })
  let s := if off ∨ col = 2 then s else { s with sch := { s.sch with policer := SMap.put u p' s.sch.policer } }
  let s := if s.reg SCH_POL_MON_SUB = u then
      s.bump (if col = 0 then SCH_POL_GREEN else if col = 1 then SCH_POL_YELLOW else SCH_POL_RED) 0 a
    else s
  (col, s)

/-- The policer drops a red packet (R220). -/
def State.policerDrop (s : State) (a : Attr) : State := (s.bump SCH_POL_DROP 0 a).raise SCH_EVENT_POL_DROP

/-! ### Time gates (R226 to R228) -/

/-- COUNT as it acts: 1 to 256. -/
def State.gateCount (s : State) (port : Nat) : Nat := min 256 (max 1 (s.reg SCH_GATE_CTL_COUNT port))

/-- SHIFT, a signed 12-bit count of lines, modulo 4,096. -/
def State.gateShift (s : State) (port : Nat) : Nat := s.reg SCH_GATE_CTL_SHIFT port

/-- The line at which entry `e` of a port acts: its line moved by SHIFT modulo 4,096 (R227). -/
def State.gateLine (s : State) (port e : Nat) : Nat :=
  (s.reg SCH_GATE_LIST_LINE (256 * port + e) + s.gateShift port) % 4096

/-- Insert an entry (line, index) by line. -/
def insertGate (x : Nat × Nat) : List (Nat × Nat) → List (Nat × Nat)
  | [] => [x]
  | y :: ys => if x.1 < y.1 then x :: y :: ys else y :: insertGate x ys

/-- A port's list under the current generation, in order of shifted line: (line, index). -/
def State.gateList (s : State) (port : Nat) : List (Nat × Nat) :=
  (List.range (s.gateCount port)).foldl (fun l e => insertGate (s.gateLine port e, e) l) []

/-- The list in force at a port: (line, OPEN) in order of line; none where the gates follow no list. -/
def State.gatesInForce (s : State) (port : Nat) : List (Nat × Nat) := SMap.get [] s.sch.gates port

/-- The entry of a list in force at a line: the last at or before it, else the list's last (R226). -/
def entryAt (line : Nat) (l : List (Nat × Nat)) : Option (Nat × Nat) :=
  match (l.filter fun e => decide (e.1 ≤ line)).getLast? with
  | some e => some e
  | none => l.getLast?

/-- The state of a port's gates set from an entry's index. -/
def State.setGates (s : State) (port e : Nat) : State :=
  (s.setReg SCH_GATE_STATE_ENTRY port e).setReg SCH_GATE_STATE_OPEN port (s.reg SCH_GATE_LIST_OPEN (256 * port + e))

/-- The list that the current generation gives a port, (line, index): none with EN at 0 (R226). -/
def State.portList (s : State) (port : Nat) : List (Nat × Nat) :=
  if s.flag SCH_GATE_CTL_EN port then s.gateList port else []

/-- The same list as (line, OPEN). -/
def State.portMasks (s : State) (port : Nat) : List (Nat × Nat) :=
  (s.portList port).map fun e => (e.1, s.reg SCH_GATE_LIST_OPEN (256 * port + e.2))

/-- A port's gates follow the current generation's list from now on, and stand as it sets them for this line (R227). -/
def State.followList (s : State) (port : Nat) : State :=
  let new := s.portMasks port
  let s := { s with sch := { s.sch with gates :=
    (if new = [] then SMap.del port s.sch.gates else SMap.put port new s.sch.gates) } }
  match entryAt s.rtu.line (s.portList port) with
  | some e => s.setGates port e.2
  | none => (s.setReg SCH_GATE_STATE_ENTRY port 0).setReg SCH_GATE_STATE_OPEN port 0xFF

/-- Action 6 of a boundary (R227): each port's gates move to the current generation's list; a changed list sets
GATE_SWAP. Nothing moves while the scheduler is stopped. -/
def State.swapGates (s : State) : State :=
  if !s.runs bSCH then s
  else
    (List.range 32).foldl (fun s port =>
      if s.portMasks port = s.gatesInForce port then s else (s.followList port).raise SCH_EVENT_GATE_SWAP) s

/-- A generation that switched while no boundaries occur moves the gates at once (R47, R226)
(DEDUCED, log entry 95). -/
def State.gatesFollow (s : State) : State := if s.unsync then s.swapGates else s

/-- CFG_CTRL.ROLLBACK (R49): sets ROLLBACK_PENDING, acting at once while no boundaries occur, or is refused. -/
def State.rollback (s : State) (p : Path) : State :=
  if s.flag CFG_STATUS_PREV_VALID ∧ s.genIdle then (s.setFlag CFG_STATUS_ROLLBACK_PENDING 0 true).switchIfUnsync.gatesFollow
  else s.logErr 0x08 p CFG_CTRL_ROLLBACK.addr

/-- The line of a gate entry starts: the entry acts (R226). -/
def State.gateActs (s : State) (port e : Nat) : State :=
  if s.runs bSCH ∧ s.flag SCH_GATE_CTL_EN port ∧ e < s.gateCount port ∧ s.rtu.line = s.gateLine port e ∧
      s.gatesInForce port ≠ [] then s.setGates port e
  else s

/-- A line has started: the entries of that line act before any transmit decision in it (R226, R229). -/
def State.gatesAtLine (s : State) : State :=
  (s.sch.gates.map (·.1)).foldl (fun s port =>
    (List.range (s.gateCount port)).foldl (fun s e => s.gateActs port e) s) s

/-- Gate `c` of a port is open. -/
def State.gateOpen (s : State) (port c : Nat) : Bool := bitOf (s.reg SCH_GATE_STATE_OPEN port) c

/-- Lines from the current one to each entry that turns gate `c` from open to closed, given the entry before (R228). -/
def closeLines (line c : Nat) (prev : Nat × Nat) : List (Nat × Nat) → List Nat
  | [] => []
  | e :: es =>
    let rest := closeLines line c e es
    if bitOf prev.2 c ∧ !bitOf e.2 c then
      (if e.1 = line then 4096 else (4096 + e.1 - line) % 4096) :: rest
    else rest

/-- Lines from `line` to each close of gate `c` under a list. -/
def closesOf (line c : Nat) (l : List (Nat × Nat)) : List Nat :=
  match l.getLast? with
  | none => []
  | some last => closeLines line c last l

/-- The copy of class L that will switch in at the next boundary, as it stands now (R43, R50, R53). -/
def State.nextCopy (s : State) : Option (SMap Nat) :=
  match s.hng.gens.getLast?, s.cfg.restoreWait with
  | some g, _ => some g.2
  | none, some g => some (s.applyRestore g).regs.cur
  | none, none =>
    if s.flag CFG_STATUS_ROLLBACK_PENDING then some s.regs.prev
    else if s.flag CFG_STATUS_SEALED then some s.regs.pend
    else none

/-- The closes of gate `c` where the list is swapped `b` lines from now: those of the old list before the swap; at the swap
if the new list has the gate closed there; else those of the new list after it (R228). -/
def closesOver (line b c : Nat) (old new : List (Nat × Nat)) : List Nat :=
  let at_ := (line + b) % 4096
  let shut := match entryAt at_ new with
    | some e => !bitOf e.2 c
    | none => false
  ((closesOf line c old).filter fun d => decide (d < b)) ++
    if shut then [b] else (closesOf at_ c new).map (· + b)

/-- Lines to the next close of gate `c`, if it ever closes (R228) (DEDUCED, log entry 95). -/
def State.nextClose (s : State) (port c : Nat) : Option Nat :=
  let old := s.gatesInForce port
  match s.nextCopy with
  | none => (closesOf s.rtu.line c old).min?
  | some copy =>
    let epoch := 2 ^ s.reg RTU_EPOCH_K
    let new := { s with regs := { s.regs with cur := copy } }.portMasks port
    (closesOver s.rtu.line (epoch - s.rtu.line % epoch) c old new).min?

/-- A frame of `w` wire bytes ends before the next close of gate `c` (R228). -/
def State.guardFits (s : State) (port c w : Nat) : Bool :=
  match s.nextClose port c with
  | none => true
  | some d => decide (w * 8000 * 256 + s.portRate port * 256 * (s.ns - s.rtu.lineStart) ≤
      s.portRate port * (d * s.reg RTU_LINE_LEN_LEN))

/-! ### Shapers (R224, R225) -/

/-- A shaper's refresh: the gain of one nominal epoch, its depth the larger of BURST and the gain plus 9,216. -/
def State.refreshTok (s : State) (rate burst : Nat) (tok : Int) : Int :=
  let gain := s.perEpoch rate 8000
  min ((max burst (gain + 9216) : Nat) : Int) (tok + gain)

/-- One family of shapers refreshed: those with a rate. -/
def State.refreshFamily (s : State) (count : Nat) (rate burst : Field) (m : SMap Int) : SMap Int :=
  (List.range count).foldl (fun m i =>
    if s.reg rate i = 0 then SMap.del i m
    else SMap.put i (s.refreshTok (s.reg rate i) (s.reg burst i) (SMap.get 0 m i)) m) m

/-- Action 5 of a boundary (R36, R224). -/
def State.refreshShapers (s : State) : State :=
  { s with sch := { s.sch with
      portTok := s.refreshFamily 32 SCH_PORT_RATE SCH_PORT_BURST s.sch.portTok,
      svcTok := s.refreshFamily 256 SCH_SVC_RATE SCH_SVC_BURST s.sch.svcTok,
      subTok := s.refreshFamily 4096 SCH_SUB_RATE SCH_SUB_BURST s.sch.subTok } }

/-- A shaper lets its node send: it is off, or holds tokens above 0. -/
def shaperOpen (rate : Nat) (tok : Int) : Bool := rate == 0 || decide (0 < tok)

def State.portOpen (s : State) (p : Nat) : Bool := shaperOpen (s.reg SCH_PORT_RATE p) (SMap.get 0 s.sch.portTok p)
def State.svcOpen (s : State) (n : Nat) : Bool := shaperOpen (s.reg SCH_SVC_RATE n) (SMap.get 0 s.sch.svcTok n)
def State.subOpen (s : State) (u : Nat) : Bool := shaperOpen (s.reg SCH_SUB_RATE u) (SMap.get 0 s.sch.subTok u)

/-- A sent packet subtracts its wire bytes from every shaper on its path (R224). -/
def State.chargeShapers (s : State) (port svc u w : Nat) : State :=
  let take (rate : Nat) (i : Nat) (m : SMap Int) : SMap Int :=
    if rate = 0 then m else SMap.put i (SMap.get 0 m i - w) m
  { s with sch := { s.sch with
      portTok := take (s.reg SCH_PORT_RATE port) port s.sch.portTok,
      svcTok := take (s.reg SCH_SVC_RATE (8 * port + svc)) (8 * port + svc) s.sch.svcTok,
      subTok := take (s.reg SCH_SUB_RATE u) u s.sch.subTok } }

/-! ### The hierarchy (R221 to R223) -/

/-- The packet bypasses the hierarchy: it takes no PSN, or belongs to connection ID 0 (R98, R221). -/
def OutPkt.bypass (o : OutPkt) : Bool := !o.typ.takesPsn || o.ci.isNone

/-- A connection by context index. -/
def State.conn (s : State) (ci : Nat) : Conn := SMap.get {} s.ctx.conns ci

/-- Bytes a packet will take from header byte 0 through its trailer. -/
def State.outLength (s : State) (o : OutPkt) : Nat :=
  36 + o.pkt.ext.length + o.pkt.plen + match o.ci with
    | some ci => if (s.conn ci).gcm then 16 else 0
    | none => 0

/-- Its wire bytes. -/
def State.outWire (s : State) (o : OutPkt) : Nat :=
  match o.ci, o.asked with
  | some ci, _ => wireBytes (s.outLength o) (s.conn ci).v6 (s.conn ci).tagged
  | none, some m => wireBytes (s.outLength o) m.v6 m.tagged
  | none, none => wireBytes (s.outLength o) false false

/-- Depth of a connection's pacing bucket: twice its largest packet, in 1/8,000 byte (R91). -/
def Conn.paceDepth (c : Conn) : Nat := 2 * (36 + (if c.data8k then 8192 else 4096) + if c.gcm then 16 else 0) * 8000

/-- Tokens of the pacing bucket now (R91). -/
def State.paceTokens (s : State) (c : Conn) : Nat := min c.paceDepth (c.tx.tokens + c.tx.rate * (s.ns - c.tx.tokAt))

/-- What a head packet lacks to be eligible (R221, R228). -/
inductive HeadState
  | ready | blocked | guard
  deriving DecidableEq, Repr

/-- A head's eligibility: the send window (R70), the pacing bucket (R91), its class's gate and the guard (R228). -/
def State.headState (s : State) (o : OutPkt) : HeadState :=
  match o.ci with
  | none => .blocked
  | some ci =>
    let c := s.conn ci
    if !o.retx ∧ 256 ≤ serialDist c.tx.una c.tx.next then .blocked
    else if s.paceTokens c < s.outLength o * 8000 then .blocked
    else if !s.gateOpen o.port c.pcp then .blocked
    else if !s.guardFits o.port c.pcp (s.outWire o) then .guard
    else .ready

/-- The head packet of each connection with packets queued at a port, in queue order (R221). -/
def State.heads (s : State) (port : Nat) : List OutPkt :=
  s.nlt.txq.foldl (fun acc o =>
    if o.port = port ∧ !o.bypass ∧ acc.all (fun h => h.ci != o.ci) then acc ++ [o] else acc) []

/-- Join and leave a round (R223): nodes no longer eligible leave, new ones join its end with a deficit of 0. -/
def syncRound (elig : List Nat) (r : List DwrrNode) : List DwrrNode :=
  let kept := r.filter fun n => elig.contains n.node
  kept ++ (elig.filter fun n => !(kept.any fun k => k.node == n)).map fun n => { node := n }

/-- Turns of a round until a node's deficit covers its next packet (R223): the node picked and the round left. A node whose
only heads are skipped has nothing to send now: its turn passes with its deficit as it was (R223, R228). -/
def dwrrTurn (quantum : Nat → Nat) (bytes : Nat → Option Nat) : Nat → List DwrrNode → Option (Nat × List DwrrNode)
  | 0, _ => none
  | _ + 1, [] => none
  | n + 1, k :: ks =>
    let d := if k.begun then k.deficit else k.deficit + quantum k.node
    match bytes k.node with
    | none => dwrrTurn quantum bytes n (ks ++ [{ k with begun := false }])
    | some b =>
      if b ≤ d then some (k.node, { node := k.node, deficit := d - b, begun := true } :: ks)
      else dwrrTurn quantum bytes n (ks ++ [{ node := k.node, deficit := d, begun := false }])

/-- SCH_QUANTUM, below 256 acting as 256. -/
def State.quantum (s : State) : Nat := max 256 (s.reg SCH_QUANTUM_BYTES)

/-- The one after `last` among rising `ns`, round robin. -/
def nextTurn (last : Nat) (ns : List Nat) : Option Nat :=
  match ns.find? fun n => decide (last < n) with
  | some n => some n
  | none => ns.head?

/-- The head that subscriber `u` sends next in service `n` = 8 × port + class: its connections' eligible heads round
robin (R222). -/
def State.subHead (s : State) (ready : List OutPkt) (n u : Nat) : Option OutPkt :=
  let mine := ready.filter fun o => match o.ci with
    | some ci => (s.conn ci).sub == u && (s.conn ci).pcp == n % 8
    | none => false
  let cis := (mine.filterMap (·.ci)).mergeSort (fun a b => decide (a ≤ b))
  match nextTurn (SMap.get 0 s.sch.connTurn (n * 4096 + u)) cis with
  | some ci => mine.find? fun o => o.ci == some ci
  | none => none

/-- Subscribers eligible in service `n` whose shapers are open (R222). -/
def State.eligSubs (s : State) (ready : List OutPkt) (n : Nat) : List Nat :=
  let us := (ready.filterMap fun o => match o.ci with
    | some ci => if (s.conn ci).pcp = n % 8 then some (s.conn ci).sub else none
    | none => none).eraseDups
  us.filter s.subOpen

/-- A round kept, or dropped once it is empty. -/
def keepRound (i : Nat) (r : List DwrrNode) (m : SMap (List DwrrNode)) : SMap (List DwrrNode) :=
  if r = [] then SMap.del i m else SMap.put i r m

/-- The rounds of a port follow what is eligible now (R223): the subscribers of each service, and its enabled services below
6 whose shapers are open (DEDUCED, log entry 95). -/
def State.syncRounds (s : State) (port : Nat) : State :=
  let live := (s.heads port).filter fun o => s.headState o != .blocked
  let subs := (List.range 8).foldl (fun (m : SMap (List DwrrNode)) (c : Nat) =>
    keepRound (8 * port + c) (syncRound (s.eligSubs live (8 * port + c)) (SMap.get [] m (8 * port + c))) m) s.sch.subRound
  let svcs := [0, 1, 2, 3, 4, 5].filter fun c =>
    s.flag SCH_SVC_EN (8 * port + c) && s.svcOpen (8 * port + c) && s.eligSubs live (8 * port + c) != []
  { s with sch := { s.sch with
      subRound := subs, svcRound := keepRound port (syncRound svcs (SMap.get [] s.sch.svcRound port)) s.sch.svcRound } }

/-- The ports with packets in the hierarchy, or with a round. -/
def State.roundPorts (s : State) : List Nat :=
  let queued : List Nat := (s.nlt.txq.filter fun o => !o.bypass).map (·.port)
  let held : List Nat := s.sch.svcRound.map (·.1) ++ s.sch.subRound.map (·.1 / 8)
  (queued ++ held).eraseDups

/-- Every port's rounds follow what is eligible now (R223). -/
def State.syncPorts (s : State) : State := s.roundPorts.foldl (fun s p => s.syncRounds p) s

/-- What the scheduler does at a line start: the refill of the policers comes before any metering, the gate entries before
any transmit decision (R219, R226, R229). -/
def State.schedulerLine (s : State) : State := if s.runs bSCH then s.refillPolicers.gatesAtLine.syncPorts else s

/-- The first line starts where lines did not run before (R31, R219). -/
def State.firstSchedulerLine (s u : State) : State := if !s.linesRun ∧ u.linesRun then u.schedulerLine else u

/-- The scheduler's rounds and turns of a port that goes down are gone (R229). -/
def State.clearRounds (s : State) (port : Nat) : State :=
  { s with sch := { s.sch with
      svcRound := SMap.del port s.sch.svcRound,
      subRound := s.sch.subRound.filter fun e => e.1 / 8 != port,
      connTurn := s.sch.connTurn.filter fun e => e.1 / 32768 != port,
      idleTurn := SMap.del port s.sch.idleTurn } }

/-- `pick_subscriber` (R222): the packet that service `n` sends next, and the round of its subscribers after it. -/
def State.pickSub (s : State) (ready : List OutPkt) (n : Nat) : Option (OutPkt × List DwrrNode) :=
  let round := SMap.get [] s.sch.subRound n
  let bytes (u : Nat) : Option Nat := (s.subHead ready n u).map s.outWire
  match dwrrTurn (fun u => s.reg SCH_SUB_WEIGHT u * s.quantum) bytes (64 * (round.length + 1)) round with
  | some (u, r) => (s.subHead ready n u).map fun o => (o, r)
  | none => none

/-- The rounds and turns kept after a pick. -/
def State.keepPick (s : State) (n : Nat) (o : OutPkt) (r : List DwrrNode) : State :=
  match o.ci with
  | some ci => { s with sch := { s.sch with
      subRound := SMap.put n r s.sch.subRound,
      connTurn := SMap.put (n * 4096 + (s.conn ci).sub) ci s.sch.connTurn } }
  | none => s

/-- The packet that the hierarchy of a port sends, and the scheduler's state after the pick (R222)
(DEDUCED, log entry 95). -/
def State.pickPacket (s : State) (port : Nat) (ready : List OutPkt) : Option (OutPkt × State) :=
  let svc (c : Nat) : Nat := 8 * port + c
  let can (c : Nat) : Bool := s.svcOpen (svc c) && (s.pickSub ready (svc c)).isSome
  match [7, 6].find? can with
  | some c => (s.pickSub ready (svc c)).map fun x => (x.1, s.keepPick (svc c) x.1 x.2)
  | none =>
    let round := SMap.get [] s.sch.svcRound port
    let bytes (c : Nat) : Option Nat := (s.pickSub ready (svc c)).map fun x => s.outWire x.1
    match dwrrTurn (fun c => s.reg SCH_SVC_WEIGHT (svc c) * s.quantum) bytes (64 * (round.length + 1)) round with
    | some (c, r) =>
      (s.pickSub ready (svc c)).map fun x =>
        let s := { s with sch := { s.sch with svcRound := SMap.put port r s.sch.svcRound } }
        (x.1, s.keepPick (svc c) x.1 x.2)
    | none =>
      let idle := [0, 1, 2, 3, 4, 5].filter fun c =>
        !s.flag SCH_SVC_EN (svc c) && (s.pickSub ready (svc c)).isSome
      match nextTurn (SMap.get 0 s.sch.idleTurn port) idle with
      | some c => (s.pickSub ready (svc c)).map fun x =>
          let s := { s with sch := { s.sch with idleTurn := SMap.put port c s.sch.idleTurn } }
          (x.1, s.keepPick (svc c) x.1 x.2)
      | none => none

/-! ### START and STOP (R230) -/

/-- Policers full, shapers at 0, rounds and turns empty (R219, R229, R230). -/
def State.freshScheduler (s : State) : State :=
  { s with sch := { s.sch with
      policer := [], portTok := [], svcTok := [], subTok := [], svcRound := [], subRound := [], connTurn := [], idleTurn := [] } }

/-- SCH_CMD.START: policers full, shapers at 0, each port's gates as the current generation's list sets them for this line
(R219, R226, R230). -/
def State.schDoStart (s : State) (p : Path) : State :=
  s.startBlock p SCH_CMD_START.addr bSCH SCH_EVENT_CMD_REFUSED [bRTU, bCAB] fun s =>
    (List.range 32).foldl (fun s port => s.followList port) s.freshScheduler

/-- SCH_CMD.STOP: refused while any NLT instance runs (R230). -/
def State.schDoStop (s : State) : State := s.stopBlock bSCH (s.runs bNLT) SCH_EVENT_CMD_REFUSED id

end Sys2Proof.Machine
end

