-- ==== Sys2Proof/Machine/Net.lean ====
section
/-! DEFINITION. Connections: lookup, the queues to the wire, acknowledgement state, grants, regions, the context cache and
teardown (R69 to R92, R95 to R119). -/

namespace Sys2Proof.Machine

open Sys2Proof.Reg

/-! ### Acting values -/

def State.rtoEpochs (s : State) (p : Nat) : Nat := max 1 (s.reg NLT_RTO_RTO_EPOCHS p)
def State.reorder (s : State) (p : Nat) : Nat := max 8 (s.reg NLT_RTO_REORDER p)
def State.retryMax (s : State) (p : Nat) : Nat := max 1 (s.reg NLT_RTO_RETRY_MAX p)
def State.coalesce (s : State) (p : Nat) : Nat := max 1 (s.reg NLT_ACK_COALESCE p)
def State.ackDelay (s : State) (p : Nat) : Nat := s.reg NLT_ACK_DELAY p
/-- ENT_MAX, 1 to 64: a value outside acts as the nearer bound (R93) (DESIGN CHOICE, log entry 100). -/
def State.entMax (s : State) (p : Nat) : Nat := min 64 (max 1 (s.reg NLT_XPORT_ENT_MAX p))
def State.liveIdle (s : State) : Nat := max 1 (s.reg CTX_LIVE_IDLE)
/-- LIMIT: at or below the acting IDLE it acts as IDLE + 1 (R118). -/
def State.liveLimit (s : State) : Nat := max (s.liveIdle + 1) (s.reg CTX_LIVE_LIMIT)
def State.setupCycles (s : State) : Nat := max 1 (s.reg CTX_SETUP_SETUP)
def State.quarCycles (s : State) : Nat := max 2 (s.reg CTX_SETUP_QUAR)
def State.pinLimit (s : State) : Nat := min 16384 (s.reg CTX_PIN_LIMIT_LIMIT)

/-- Connection states (R104). -/
def cFREE := 0
def cSETUP := 1
def cOPEN := 2
def cCLOSING := 3
def cQUARANTINE := 4

/-! ### Connections -/

/-- The context a connection ID names: its index must hold that ID, and not be FREE (R95). -/
def State.findConn (s : State) (id : Nat) : Option (Nat × Conn) :=
  match SMap.find s.ctx.conns (id % 2 ^ 18) with
  | some c => if c.id = id ∧ c.state ≠ cFREE then some (id % 2 ^ 18, c) else none
  | none => none

/-- The connection is known under R78: SETUP, OPEN or CLOSING (R104) (DEDUCED, log entry 83). -/
def Conn.known (c : Conn) : Bool := c.state == cSETUP || c.state == cOPEN || c.state == cCLOSING

/-- A context's 256 bytes (R109). -/
def Conn.bytes (c : Conn) : List Byte :=
  leBytes 4 (c.id + 2 ^ 24 * c.state + 2 ^ 28 * Bool.nat c.gcm + 2 ^ 29 * Bool.nat c.data8k + 2 ^ 30 * Bool.nat c.v6 +
      2 ^ 31 * Bool.nat c.pin) ++
    leBytes 4 (c.sub + (c.e - 1) * 2 ^ 12 + 2 ^ 18 * c.lport) ++ leBytes 2 c.peerUdp ++
    leBytes 2 (c.vid + c.pcp * 2 ^ 12 + Bool.nat c.tagged * 2 ^ 15) ++ leBytes 4 c.keyslot ++
    leBytes 16 (if c.v6 then c.peerIp else 2 ^ 96 * c.peerIp) ++
    leBytes 8 c.nexthop ++ leBytes 4 c.tx.next ++ leBytes 4 c.tx.una ++ leBytes 4 c.tx.csn ++ leBytes 4 c.tx.wrap ++
    leBytes 8 c.tx.unseq ++ leBytes 4 c.tx.rate ++ leBytes 4 c.tx.ceSeen ++ leBytes 8 c.tx.retired ++
    leBytes 4 c.tx.rtt ++ leBytes 4 c.rx.base ++ leBytes 4 c.rx.csn ++ leBytes 4 c.rx.wrap ++ leBytes 8 c.rx.unseq ++
    leBytes 4 c.rx.ce ++ leBytes 4 c.rx.pkts ++ leBytes 32 c.rx.bitmap ++ leBytes 8 c.lastRxEpoch ++
    leBytes 4 c.inflight ++ leBytes 4 0 ++ (c.hostNonce ++ List.replicate 16 0).take 16 ++
    (c.devNonce ++ List.replicate 16 0).take 16 ++ leBytes 8 c.opened ++ List.replicate 56 0

/-- A connection changed: its cached context no longer equals its home copy; one that is at home changes there (R110). -/
def State.updConn (s : State) (ci : Nat) (f : Conn → Conn) : State :=
  match SMap.find s.ctx.conns ci with
  | some c =>
    let c' := { f c with dirty := c.cache != .home }
    let s := { s with ctx := { s.ctx with conns := SMap.put ci c' s.ctx.conns } }
    if c.cache = .home then s.sbWrite (contextBase + 256 * ci) c'.bytes else s
  | none => s

/-- The reuse counts of the context indexes once a connection is FREE: its own index's rises (R95). -/
def Conn.raiseReuse (c : Conn) (ci : Nat) (m : SMap Nat) : SMap Nat := storeField 0 ci ((c.id / 2 ^ 18 + 1) % 64) m

/-- CTX_OPEN counts the OPEN connections. -/
def State.countConns (s : State) : State :=
  s.setReg CTX_OPEN_COUNT 0 (s.ctx.conns.filter fun e => e.2.state == cOPEN).length

/-- A connection enters a state (R104). -/
def State.setConnState (s : State) (ci st : Nat) : State :=
  (s.updConn ci fun c => { c with state := st, sinceCycle := s.rtu.cycle }).countConns

/-- DATA size of a connection (R75). -/
def Conn.dataSize (c : Conn) : Nat := if c.data8k then 8192 else 4096

/-! ### Entropy values (R72, R73) -/

/-- The active entropy values, in order. -/
def Conn.active (c : Conn) : List Nat := (List.range c.e).filter fun i => !bitOf c.tx.retired i

/-- The value of a packet that is not DATA: 0, else the lowest active one. -/
def Conn.lowEnt (c : Conn) : Nat := c.active.headD 0

/-- The active value after `i` in rising order, round robin. -/
def Conn.entAfter (c : Conn) (i : Nat) : Nat :=
  match c.active.find? fun j => decide (i < j) with
  | some j => j
  | none => c.active.headD 0

/-! ### Packets on their way out -/

/-- Append a packet to the transmit queue of its connection or port. -/
def State.sendPkt (s : State) (o : OutPkt) : State := { s with nlt := { s.nlt with txq := s.nlt.txq ++ [o] } }

/-- Put a retransmission before the packets of its connection that wait (R85, R86). -/
def insertRetx (o : OutPkt) : List OutPkt → List OutPkt
  | [] => [o]
  | q :: qs => if q.ci = o.ci ∧ !q.retx ∧ !q.bypass then o :: q :: qs else q :: insertRetx o qs

/-- The value of the unsequenced counter for the next ACK, NAK or PROBE (R80). -/
def State.takeUnseq (s : State) (ci : Nat) : Nat × State :=
  ((s.conn ci).tx.unseq % 2 ^ 64,
   s.updConn ci fun c => { c with tx := { c.tx with unseq := (c.tx.unseq + 1) % 2 ^ 64 } })

/-- A CTRL packet of a connection (R97), ACKREQ where asked. -/
def State.sendCtrl (s : State) (ci code : Nat) (payload : List Byte) (ackreq : Bool) (msgid : Nat := 0) : State :=
  let c := s.conn ci
  s.sendPkt { typ := .ctrl, ci := some ci, port := c.lport,
              pkt := { conn := c.id, code := code, flags := (if ackreq then flagAckReq else 0), msgid := msgid,
                       plen := payload.length, payload := payload } }

/-- The ACK payload (R81). -/
def ConnRx.ackPayload (r : ConnRx) : List Byte :=
  leBytes 32 r.bitmap ++ beBytes 4 (r.ce % 2 ^ 32) ++ beBytes 4 (r.pkts % 2 ^ 32)

/-- Send an ACK on entropy value `ent` (R72, R81, R82): ECHO where the CE count has advanced since the last one. -/
def State.sendAck (s : State) (ci ent : Nat) : State :=
  let (u, s) := s.takeUnseq ci
  let c := s.conn ci
  let o : OutPkt := {
    typ := .ack, ci := some ci, port := c.lport,
    pkt := { conn := c.id, ent := ent, psn := c.rx.base, offset := u, plen := 40, payload := c.rx.ackPayload,
             flags := (if c.rx.ce = c.rx.ceAcked then 0 else flagEcho) } }
  (s.sendPkt o).updConn ci fun c => { c with rx := { c.rx with
    sinceAck := 0, oldest := none, lastAck := some s.ns, ceAcked := c.rx.ce } }

/-- Send a NAK for a packet (R72, R84). -/
def State.sendNak (s : State) (ci reason : Nat) (k : Packet) : State :=
  let (u, s) := s.takeUnseq ci
  let c := s.conn ci
  (s.sendPkt {
    typ := .nak, ci := some ci, port := c.lport,
    pkt := { conn := c.id, ent := Packet.entropy k, code := reason, psn := k.psn, msgid := k.msgid, key := k.key,
             offset := u } }).bump NLT_NAK_TX c.lport c.attr

/-- NAK 0x07 for an unknown connection, at most one per microsecond and logical port (R78). Its OFFSET is 0, since there is
no counter to take (DESIGN CHOICE, log entry 100). -/
def State.nakUnknown (s : State) (m : RxMeta) (k : Packet) : State :=
  let recent := match SMap.find s.nlt.nak7At m.lport with
    | some t => decide (s.ns < 1000 + t)
    | none => false
  if recent then s
  else
    let s := { s with nlt := { s.nlt with nak7At := SMap.put m.lport s.ns s.nlt.nak7At } }
    ((s.sendPkt { typ := .nak, port := m.lport, asked := some m,
                  pkt := { conn := k.conn, ent := Packet.entropy k, code := 7, psn := k.psn, msgid := k.msgid, key := k.key } }
      ).bump NLT_NAK_TX m.lport { cls := some m.pcp }).bump NLT_CONN_NAK m.lport { cls := some m.pcp }

/-- Send a PROBE (R73): code 0 a request with the reference time, 1 a reply with the entry it copies. -/
def State.sendProbe (s : State) (ci ent code : Nat) (ext : List Byte) : State :=
  let (u, s) := s.takeUnseq ci
  let c := s.conn ci
  let s := s.sendPkt {
    typ := .probe, ci := some ci, port := c.lport,
    pkt := { conn := c.id, ent := ent, code := code, offset := u, hxl := ext.length / 4, ext := ext } }
  if code = 0 then s.bump NLT_PROBES c.lport c.attr else s

/-- A TIMESTAMP entry of this instant (R67). -/
def State.stampEntry (s : State) : List Byte := [1, 8] ++ beBytes 8 s.refTime ++ [0, 0]

/-- One PROBE on each retired value of every known connection (R73). -/
def State.probeRetired (s : State) : State :=
  s.ctx.conns.foldl (fun s e =>
    if e.2.known then
      ((List.range e.2.e).filter (bitOf e.2.tx.retired)).foldl (fun s i => s.sendProbe e.1 i 0 s.stampEntry) s
    else s) s

/-! ### The receive window (R70, R81) -/

/-- Where a PSN lies: below the window or received in it, above it, or new. -/
inductive PsnPlace
  | dup | above | fresh
  deriving DecidableEq, Repr

/-- R70. -/
def ConnRx.psnPlace (r : ConnRx) (psn : Nat) : PsnPlace :=
  let d := serialDist r.base psn
  if 2 ^ 31 ≤ d then .dup
  else if 256 ≤ d then .above
  else if bitOf r.bitmap d then .dup
  else .fresh

/-- Advance the base over received PSNs. -/
def advanceBase : Nat → ConnRx → ConnRx
  | 0, r => r
  | n + 1, r =>
    if bitOf r.bitmap 0 then
      advanceBase n { r with base := (r.base + 1) % 2 ^ 32, bitmap := r.bitmap / 2,
                             wrap := (if r.base + 1 = 2 ^ 32 then r.wrap + 1 else r.wrap) }
    else r

/-- A PSN is received for the first time, accepted or NAKed (R70, R81). -/
def ConnRx.receive (r : ConnRx) (psn : Nat) : ConnRx :=
  advanceBase 257 { r with bitmap := r.bitmap ||| 2 ^ serialDist r.base psn, pkts := (r.pkts + 1) % 2 ^ 32 }

/-- The wrap count of a PSN received in the window (R80). -/
def ConnRx.wrapOf (r : ConnRx) (psn : Nat) : Nat := if psn < r.base ∧ serialDist r.base psn < 2 ^ 31 then r.wrap + 1 else r.wrap

/-- A FLUSH may be answered (R88): every lower PSN is received; or, with CODE 1, no grant of its message waits for DATA, so
that none of its DATA packets is missing (DEDUCED, log entry 28). -/
def State.flushReady (s : State) (c : Conn) (f : Nat × Packet) : Bool :=
  decide (f.1 = c.rx.base ∨ serialBefore f.1 c.rx.base) ||
    (f.2.code == 1 && s.ctx.grants.all fun e => !(e.2.isOpen && e.2.conn == c.id && e.2.msgid == f.2.msgid))

/-- FLUSHED for every FLUSH whose covered PSNs are all received (R88). -/
def State.answerFlushes (s : State) (ci : Nat) : State :=
  let c := s.conn ci
  let ready (f : Nat × Packet) : Bool := s.flushReady c f
  let s := (c.rx.flushes.filter ready).foldl (fun s f =>
    s.sendPkt { typ := .flushed, ci := some ci, port := c.lport,
                pkt := { conn := c.id, code := f.2.code, msgid := f.2.msgid, offset := f.1 } }) s
  if c.rx.flushes.any ready then
    s.updConn ci fun c => { c with rx := { c.rx with flushes := c.rx.flushes.filter fun f => !ready f } }
  else s

/-! ### Regions (R96, R114 to R116) -/

/-- A region entry: a FREE one has never been used where it is not listed. -/
def State.region (s : State) (i : Nat) : Region := SMap.get {} s.ctx.regions i
/-- It changed. -/
def State.setRegion (s : State) (i : Nat) (r : Region) : State :=
  { s with ctx := { s.ctx with regions := SMap.put i r s.ctx.regions } }
/-- CTX_REGIONS counts the VALID and REVOKING entries. -/
def State.countRegions (s : State) : State :=
  s.setReg CTX_REGIONS_COUNT 0 (s.ctx.regions.filter fun e => e.2.state != 0).length
/-- The key of a region. -/
def regionKeyOf (i : Nat) (r : Region) : Nat := 2 ^ 18 * r.gen + i
/-- The region a host region key names, with a current generation (R96). -/
def State.regionOf (s : State) (key : Nat) : Option (Nat × Region) :=
  if key = 0 ∨ 2 ^ 31 ≤ key then none
  else
    let i := key % 2 ^ 18
    let r := s.region i
    if r.state ≠ 0 ∧ r.gen = key / 2 ^ 18 then some (i, r) else none

/-- A region becomes FREE from REVOKING: its generation advances, skipping 0 (R96, R116). -/
def State.freeRegion (s : State) (i : Nat) : State :=
  let r := s.region i
  let g := if r.gen = 8191 then 1 else r.gen + 1
  ((s.setRegion i { gen := g }).countRegions).bump CTX_REVOKES

/-- A REVOKING region whose in-flight count is 0 becomes FREE (R116). -/
def State.settleRegion (s : State) (i : Nat) : State :=
  if (s.region i).state = 2 ∧ (s.region i).inflight = 0 then s.freeRegion i else s

/-- A packet leaves a region's in-flight count (R115). -/
def State.leaveRegion (s : State) (i : Nat) : State :=
  let r := s.region i
  (s.setRegion i { r with inflight := r.inflight - 1 }).settleRegion i

/-- A VALID region becomes REVOKING (R116). -/
def State.revokeRegion (s : State) (i : Nat) : State :=
  let r := s.region i
  if r.state = 1 then (s.setRegion i { r with state := 2 }).settleRegion i else s

/-- R115 for `n` bytes at `off` under `key`, on connection `id` of subscriber `sub`: none where it passes, else the
status and the bytes of the range that lie inside the region. -/
def State.checkRegion (s : State) (key off n id sub : Nat) : Option (Nat × Nat) :=
  match s.regionOf key with
  | none => some (0x0006, 0)
  | some (_, r) =>
    if r.state = 2 then some (0x0007, 0)
    else if r.sub ≠ sub ∨ (r.connScope ∧ r.conn ≠ id) then some (0x0006, 0)
    else if !r.place then some (0x0006, 0)
    else if r.len < off + n then some (0x0005, r.len - off)
    else none

/-! ### Grants (R96, R133, R134) -/

/-- The index that a new grant takes: the lowest never used, else that of the closed grant that opened longest ago
(DESIGN CHOICE, log entry 102). -/
def State.freeGrant (s : State) : Option Nat :=
  let k := lowestFree 0 (s.ctx.grants.map (·.1))
  if k < 131072 then some k
  else ((s.ctx.grants.filter fun e => !e.2.isOpen).foldl (fun (b : Option (Nat × Grant)) e =>
    match b with
    | none => some e
    | some x => if e.2.order < x.2.order then some e else some x) none).map (·.1)

/-- A grant key of an index that has been used again since: its grant is closed (R134) (DESIGN CHOICE, log entry 102). -/
def State.oldGrant (s : State) (key : Nat) : Bool :=
  decide (2 ^ 31 ≤ key) && match SMap.find s.ctx.grants (key % 2 ^ 17) with
    | some g =>
      let d := (g.reuse + 2 ^ 14 - key / 2 ^ 17 % 2 ^ 14) % 2 ^ 14
      d != 0 && decide (d < 2 ^ 13)
    | none => false

/-- The grant a grant key names. -/
def State.grantOf (s : State) (key : Nat) : Option (Nat × Grant) :=
  if key < 2 ^ 31 then none
  else
    match SMap.find s.ctx.grants (key % 2 ^ 17) with
    | some g => if g.reuse = key / 2 ^ 17 % 2 ^ 14 then some (key % 2 ^ 17, g) else none
    | none => none

/-- The key of a grant. -/
def grantKeyOf (k : Nat) (g : Grant) : Nat := 2 ^ 31 + 2 ^ 17 * g.reuse + k

/-- A grant put back. -/
def State.setGrant (s : State) (k : Nat) (g : Grant) : State :=
  { s with ctx := { s.ctx with grants := SMap.put k g s.ctx.grants } }

/-- Grants that satisfy `p` close. -/
def State.closeGrants (s : State) (p : Grant → Bool) : State :=
  { s with ctx := { s.ctx with grants := s.ctx.grants.mapVal fun _ g => if p g then { g with isOpen := false } else g } }

/-- Bytes of a connection's open grants (R203). -/
def State.openBytes (s : State) (id : Nat) : Nat :=
  ((s.ctx.grants.filter fun e => e.2.isOpen && e.2.conn == id).map (·.2.len)).sum

/-- The 4 KiB blocks of a grant, by command offset / 4,096. -/
def Grant.blocks (g : Grant) : List Nat := (List.range (g.len / 4096)).map (· + g.coff / 4096)

/-- Every byte of a grant has been received. -/
def Grant.full (g : Grant) : Bool := g.blocks.all g.got.contains

/-! ### The context and its cache (R109 to R113) -/

/-- Places of the cache (R110). -/
def cacheSize := 24576

/-- Entries the cache holds, or has under way. -/
def State.cacheUsed (s : State) : Nat := (s.ctx.conns.filter fun e => e.2.cache != .home).length

/-- CTX_STATUS.CACHED and PINNED follow the contexts. -/
def State.countCache (s : State) : State :=
  let n := (s.ctx.conns.filter fun e => e.2.cache == .cached).length
  let p := (s.ctx.conns.filter fun e => e.2.pin).length
  (s.setReg CTX_STATUS_CACHED 0 n).setReg CTX_STATUS_PINNED 0 p

/-- The parks that hold packets of context `ci` (R112). -/
def State.hasParked (s : State) (ci : Nat) : Bool := s.nlt.parks.any fun e => e.2.any fun p => p.ci == ci

/-- A context's state with the cache set, its home copy written where it goes home (R110). -/
def State.setCache (s : State) (ci : Nat) (v : CacheState) : State :=
  match SMap.find s.ctx.conns ci with
  | some c =>
    let c' := { c with cache := v, dirty := if v = .home then false else c.dirty }
    let s := { s with ctx := { s.ctx with conns := SMap.put ci c' s.ctx.conns } }
    (if v = .home ∧ c.dirty then s.sbWrite (contextBase + 256 * ci) c.bytes else s).countCache
  | none => s

/-- A context is used now (DEDUCED, log entry 65). -/
def State.touchConn (s : State) (ci : Nat) : State :=
  match SMap.find s.ctx.conns ci with
  | some c => { s with ctx := { s.ctx with conns := SMap.put ci { c with lru := s.ctx.clock } s.ctx.conns,
                                           clock := s.ctx.clock + 1 } }
  | none => s

/-- A packet of the connection is being sent: it waits in a cipher pair on its way to the wire (R110, R238). -/
def State.isSending (s : State) (ci : Nat) : Bool := s.cph.items.any fun i => match i with
  | .gcmTx f _ _ => f.out.ci == some ci
  | _ => false

/-- The least recently used entry that may be evicted (R110). -/
def State.evictable (s : State) : Option (Nat × Conn) :=
  (s.ctx.conns.filter fun e => e.2.cache == .cached && !e.2.pin && !s.hasParked e.1 && !s.isSending e.1).foldl (fun b e =>
    match b with
    | none => some e
    | some x => if e.2.lru < x.2.lru then some e else some x) none

/-- Contexts at home that packets wait for. -/
def State.waitingFetches (s : State) : Nat := (s.ctx.conns.filter fun e => e.2.cache == .home && s.hasParked e.1).length

/-- Make room for one entry, where `n` contexts want one: true where a place is free now; a changed victim is written back
first, and no further one is evicted while a write-back that makes the room is under way (R110). -/
def State.makeRoom (s : State) (a : Attr) (n : Nat) : Bool × State :=
  if s.cacheUsed < cacheSize then (true, s)
  else if n ≤ (s.ctx.conns.filter fun e => e.2.cache == .writing).length then (false, s)
  else
    match s.evictable with
    | none => (false, s)
    | some (v, c) =>
      let s := s.bump CTX_EVICTS 0 a
      if c.dirty then (false, s.setCache v .writing) else (true, s.setCache v .home)

/-- The attributes of the packet for which a context is fetched: the first that waits for it (R413). -/
def State.awaitAttr (s : State) (ci : Nat) : Attr :=
  match (s.nlt.parks.flatMap (·.2)).find? fun x => x.ci == ci with
  | some x => { cls := some x.rx.pcp }
  | none => {}

/-- A fetch starts for a context at home, or waits for room (R110, R112) (DEDUCED, log entry 65). -/
def State.startFetch (s : State) (ci : Nat) : State :=
  if (s.conn ci).cache = .home then
    let (room, s) := s.makeRoom (s.awaitAttr ci) s.waitingFetches
    if room then (s.setCache ci .fetching).bump CTX_MISSES 0 (s.awaitAttr ci) else s
  else s

/-- The park of the 800G port of a logical port (R112). -/
def State.park (s : State) (port : Nat) : List Parked := SMap.get [] s.nlt.parks (port / 4)

/-- A park replaced; NLT_PARK_LEVEL of instance 4p follows it. -/
def State.setPark (s : State) (p : Nat) (l : List Parked) : State :=
  let m := if l = [] then SMap.del p s.nlt.parks else SMap.put p l s.nlt.parks
  { s with nlt := { s.nlt with parks := m } }.setReg NLT_PARK_LEVEL_LEVEL (4 * p) l.length

/-- Park a packet whose context is away, its payload in cells charged to the arriving port (R112, R113)
(DEDUCED, log entry 38) (DEDUCED, log entry 65). -/
def State.parkPacket (s : State) (m : RxMeta) (t : PktType) (k : Packet) (ci : Nat) : State :=
  let acc := accountOf m.lport m.pcp
  if 2048 ≤ (s.park m.lport).length then (s.bump NLT_PARK_DROP (m.lport / 4 * 4) { cls := some m.pcp }).raise CTX_EVENT_PARK_FULL
  else if !s.arrivalFits acc (cellsOf k.plen) then s.limitDrop acc
  else
    let s := s.hold (some acc) (cellsOf k.plen)
    let s := s.setPark (m.lport / 4) (s.park m.lport ++ [{ rx := m, typ := t, pkt := k, ci := ci }])
    (s.bump NLT_PARK_PKTS (m.lport / 4 * 4) { cls := some m.pcp }).startFetch ci

/-! ### Teardown (R104, R106, R116, R328) -/

/-- Cells that hold the payload of a packet are given back to the account it arrived on (R205, R207). -/
def State.dropHeld (s : State) (m : RxMeta) (k : Packet) : State :=
  s.unhold (some (accountOf m.lport m.pcp)) (cellsOf k.plen)

/-- The cell of a capsule is given back (R207). -/
def State.dropCell (s : State) (acc : Option Nat) : State :=
  match acc with
  | some a => s.unhold (some a) 1
  | none => s

/-- Queued packets that satisfy `p` are dropped, with the capsule cells that some of them stand for. -/
def State.dropOut (s : State) (p : OutPkt → Bool) : State :=
  let gone := s.nlt.txq.filter p
  gone.foldl (fun s o => s.dropCell o.cell) { s with nlt := { s.nlt with txq := s.nlt.txq.filter fun o => !p o } }

/-- Capsules not yet taken up that satisfy `p` are dropped. -/
def State.dropInbox (s : State) (p : Delivered → Bool) : State :=
  let gone := s.cmd.inbox.filter p
  gone.foldl (fun s d => s.dropCell d.acc) { s with cmd := { s.cmd with inbox := s.cmd.inbox.filter fun d => !p d } }

/-- Sequenced packets of a connection that wait for their turn are dropped. -/
def State.dropSequenced (s : State) (ci : Nat) : State :=
  let s := (s.conn ci).rx.held.foldl (fun s e => match e.2 with
    | some h => s.dropHeld h.rx h.pkt
    | none => s) s
  s.updConn ci fun c => { c with rx := { c.rx with held := [] } }

/-- What a connection still holds towards the wire is freed: queued and retained packets, their in-flight counts. -/
def State.dropTx (s : State) (ci : Nat) : State :=
  let c := s.conn ci
  let s := (s.dropOut fun o => o.ci == some ci).dropSequenced ci
  let s := c.tx.retained.foldl (fun s r =>
    match r.out.region with
    | some i => s.leaveRegion i
    | none => s) s
  s.updConn ci fun c => { c with tx := { c.tx with retained := [] } }

/-- A connection is torn down (R106): RESET with `reason` is sent once where one is given; its state becomes
QUARANTINE, its grants close, its regions are revoked, its locks abandoned. -/
def State.teardown (s : State) (ci : Nat) (reason : Option Nat) : State :=
  let c := s.conn ci
  if !c.known then s
  else
    let s := s.dropTx ci
    let s := match reason with
      | some r => s.sendCtrl ci 9 [b8 r, 0, 0, 0] true
      | none => s
    let s := if c.state = cCLOSING then s else s.bump CTX_TEARDOWNS 0 c.attr
    let s := s.setConnState ci cQUARANTINE
    let s := s.closeGrants fun g => g.conn == c.id
    let s := (s.ctx.regions.filter fun e => e.2.state == 1 && e.2.connScope && e.2.conn == c.id).foldl
      (fun s e => s.revokeRegion e.1) s
    s.abandonOwner (.mgmt c.id)

/-- An orderly close ends: CLOSED was acknowledged (R104). -/
def State.endClose (s : State) (ci : Nat) : State :=
  let c := s.conn ci
  if c.state = cCLOSING then
    let s := (s.dropTx ci).setConnState ci cQUARANTINE
    let s := s.closeGrants fun g => g.conn == c.id
    let s := (s.ctx.regions.filter fun e => e.2.state == 1 && e.2.connScope && e.2.conn == c.id).foldl
      (fun s e => s.revokeRegion e.1) s
    s.abandonOwner (.mgmt c.id)
  else s

end Sys2Proof.Machine
end

