-- ==== Sys2Proof/Machine/Tickets.lean ====
section
/-! DEFINITION. Tickets of commands and of Bureau threads (R158, R184, R186). -/

namespace Sys2Proof.Machine

open Sys2Proof.Reg

/-- The owner number of Bureau thread `t` (512 and above): owners below 65,536 are frames
(DESIGN CHOICE, log entry 5). -/
def bureauOwner (t : Nat) : Nat := 65536 + (t - 512)

/-- A command frame. -/
def State.frame (s : State) (f : Nat) : Option Cmd := SMap.find s.cmd.frames f

/-- A frame changed. -/
def State.updFrame (s : State) (f : Nat) (g : Cmd → Cmd) : State :=
  match s.frame f with
  | some c => { s with cmd := { s.cmd with frames := SMap.put f (g c) s.cmd.frames } }
  | none => s

/-- A thread: as at reset where it is not listed. -/
def State.thread (s : State) (t : Nat) : Thread := SMap.get {} s.bnc.threads t

/-- A thread changed. -/
def State.updThread (s : State) (t : Nat) (g : Thread → Thread) : State :=
  { s with bnc := { s.bnc with threads := SMap.put t (g (s.thread t)) s.bnc.threads } }

/-- The tickets of an owner. -/
def State.tickets (s : State) (o : Nat) : SMap Ticket :=
  if o < 65536 then
    match s.frame o with
    | some c => c.tickets
    | none => []
  else (s.thread (o - 65536 + 512)).tickets

/-- They changed. -/
def State.setTickets (s : State) (o : Nat) (m : SMap Ticket) : State :=
  if o < 65536 then s.updFrame o fun c => { c with tickets := m }
  else s.updThread (o - 65536 + 512) fun t => { t with tickets := m }

/-- One ticket. -/
def State.ticket (s : State) (o t : Nat) : Option Ticket := SMap.find (s.tickets o) t

/-- It changed. -/
def State.updTicket (s : State) (o t : Nat) (g : Ticket → Ticket) : State :=
  match s.ticket o t with
  | some k => s.setTickets o (SMap.put t (g k) (s.tickets o))
  | none => s

/-- A result word (R186). -/
def resultWord (status detail value : Nat) : DWord :=
  BitVec.ofNat 64 (2 ^ 48 * (status % 2 ^ 16) + 2 ^ 32 * (detail % 2 ^ 16) + value % 2 ^ 32)

/-- An engine has a ticket's result; the ticket is done at its REQUEST_COMPLETE. -/
def State.answer (s : State) (o t status detail value : Nat) : State :=
  s.updTicket o t fun k => { k with ready := some (resultWord status detail value) }

/-- A ticket's engine has taken it up. -/
def State.started (s : State) (o t : Nat) : State := s.updTicket o t fun k => { k with started := true }

end Sys2Proof.Machine
end

