-- ==== Sys2Proof/Machine/Drives.lean ====
section
/-! DEFINITION. NVMe commands at the drives: contexts, submission, member operations, DRIVE requests and their recovery
(R254 to R257, R273, R274, R298, R302 to R310). -/

namespace Sys2Proof.Machine

open Sys2Proof.Reg

/-! ### Submission (R302 to R305) -/

/-- MAX_OUT as it acts (R313). -/
def State.maxOut (s : State) : Nat := min 15345 (max 64 (s.reg DRV_LIMIT_MAX_OUT))

/-- The submission queue of an operation (R302): 15 for Flush and reservations, else by frame. -/
def MemberOp.sq (o : MemberOp) : Nat :=
  match o.kind with
  | .flush | .acquire => 15
  | _ => 1 + (o.owner.getD 0) % 12

/-- Key of context `c` of queue `q`. -/
def ctxKey (q c : Nat) : Nat := 1024 * q + c

/-- The lowest context of a queue that is not in use (R304). -/
def Drawer.freeCtx (d : Drawer) (q : Nat) : Option Nat :=
  let k := lowestFree 0 ((d.ctxs.filter fun e => e.1 / 1024 == q).map fun e => e.1 % 1024)
  if k < 1023 then some k else none

/-- DRV_OUT, and DRV_INFLIGHT over all Drawers, follow the contexts (R303). -/
def State.countCtxs (s : State) (d : Nat) : State :=
  let q := ((s.drawer d).ctxs.filter fun e => e.2.quar.isSome).length
  let n := (s.drawer d).ctxs.length
  let s := (s.setReg DRV_OUT_QUAR d q).setReg DRV_OUT_OUT d (n - q)
  s.setReg DRV_INFLIGHT_COUNT 0 ((s.drv.drawers.map fun e => e.2.ctxs.length).sum)

/-- Bytes of an LBA of a Drawer's namespace. -/
def State.lbads (s : State) (d : Nat) : Nat := if s.flag DRV_FMT_LBA4K d then 4096 else 512

/-- The aperture address of an operation's cells (R198). -/
def State.opAddr (s : State) (o : MemberOp) : Nat := s.apertureBase + 2 ^ 24 * o.group + o.goff

/-- The data pointer's two words (R305): an SGL Data Block descriptor, or PRP1 and PRP2 (PRESUMED, log entry 13). -/
def State.dataPointer (s : State) (d : Nat) (o : MemberOp) : Nat × Nat :=
  let a := s.opAddr o
  let n := o.units * 4096
  if s.flag DRV_FMT_SGL d then (a, n)
  else if o.units ≤ 1 then (a, 0)
  else if o.units = 2 then (a, a + 4096)
  else (a, 2 ^ 47 + s.apertureBase + 2 ^ 28 * o.group + 2 ^ 16 * (o.goff / 4096 + 1))

/-- The NVMe opcode of an operation (PRESUMED, log entry 13). -/
def OpKind.nvme : OpKind → Nat
  | .read => 2
  | .write => 1
  | .flush => 0
  | .dealloc => 9
  | .acquire => 0x11

/-- The submission queue entry (R296, R298, R299, R305; its layout is NVMe's, PRESUMED, log entry 13). -/
def State.sqe (s : State) (d : Nat) (o : MemberOp) (cid : Nat) : List Byte :=
  let data := o.kind == .read || o.kind == .write
  let (p1, p2) := if data then s.dataPointer d o else (0, 0)
  let psdt := if data && s.flag DRV_FMT_SGL d then 2 ^ 14 else 0
  let per := 4096 / s.lbads d
  let lba := o.unit * per
  let dw12 := match o.kind with
    | .read => o.units * per - 1
    | .write => o.units * per - 1 + (if o.fua then 2 ^ 30 else 0)
    | _ => 0
  let dw10 := match o.kind with
    | .read | .write => lba
    | .acquire => 1 * 2 ^ 8 + 1
    | _ => 0
  let dw11 := match o.kind with
    | .dealloc => 4
    | _ => 0
  leBytes 4 (o.kind.nvme + psdt + 2 ^ 16 * cid) ++ leBytes 4 (s.drawer d).nsid ++ List.replicate 16 0 ++
    leBytes 8 p1 ++ leBytes 8 p2 ++ leBytes 8 (dw10 + 2 ^ 32 * dw11) ++ leBytes 4 dw12 ++ List.replicate 12 0

/-- The doorbell of a queue is written (R304). -/
def State.ring (s : State) (d q v : Nat) : State :=
  s.updDrawer d fun w => { w with doorbells := SMap.put q v w.doorbells }

/-- Two cell ranges of one group overlap. -/
def overlaps (g1 o1 n1 g2 o2 n2 : Nat) : Bool := g1 == g2 && decide (o1 < o2 + n2) && decide (o2 < o1 + n1)

/-- A quarantined read's cells accept drive writes again once a drive read names them (R308). -/
def State.reopenCells (s : State) (o : MemberOp) : State :=
  if o.kind != .read then s
  else
    let f (c : NvmeCtx) : NvmeCtx :=
      if c.quar.isSome ∧ c.op.kind = .read ∧
        overlaps c.op.group c.op.goff (c.op.units * 4096) o.group o.goff (o.units * 4096) then
        { c with reopened := true } else c
    let g (w : Drawer) : Drawer := { w with ctxs := w.ctxs.mapVal fun _ c => f c }
    { s with drv := { s.drv with drawers := s.drv.drawers.mapVal fun _ w => g w } }

/-! ### Reserved draws within their shares (R149, R150) -/

/-- Epochs of a working cycle. -/
def State.epochsPerCycle (s : State) : Nat := 4096 / 2 ^ s.reg RTU_EPOCH_K

/-- Upper quotient. -/
def ceilDiv (a b : Nat) : Nat := (a + b - 1) / b

/-- Share of a reservation in drive bytes per epoch (R149), `epochs` an epoch count per cycle
(DEDUCED, log entry 35). -/
def shareOf (n bytes epochs : Nat) (isRead : Bool) : Nat :=
  if isRead then ceilDiv bytes epochs else ceilDiv (bytes * (n + 2)) (n * epochs)

/-- Share of a reservation under the acting values. -/
def State.share (s : State) (r : Reservation) : Nat :=
  shareOf (s.setN (s.volSet r.vol)) r.bytes s.epochsPerCycle r.isRead

/-- The reservation an RSVID names. -/
def State.rsvOf (s : State) (id : Nat) : Option (Nat × Reservation) :=
  match SMap.find s.cmd.rsv (id % 4096) with
  | some r => if r.id = id then some (id % 4096, r) else none
  | none => none

/-- The reservation that an operation's command has drawn on. -/
def State.opRsv (s : State) (o : MemberOp) : Option (Nat × Reservation) :=
  if !o.drawn then none
  else
    match o.owner.bind s.frame with
    | some c => c.work.rsv.bind s.rsvOf
    | none => none

/-- Its drive bytes are within what the plan of this epoch leaves of the reservation's share (R150, R303)
(DEDUCED, log entry 35). -/
def State.withinShare (s : State) (o : MemberOp) : Bool :=
  match s.opRsv o with
  | some (_, r) => r.inPlan && decide (r.used + 4096 * o.units ≤ s.share r)
  | none => false

/-- A submitted operation uses up its reservation's share (DEDUCED, log entry 35). -/
def State.useShare (s : State) (o : MemberOp) : State :=
  match s.opRsv o with
  | some (i, r) =>
    if s.withinShare o then
      { s with cmd := { s.cmd with rsv := SMap.put i { r with used := r.used + 4096 * o.units } s.cmd.rsv } }
    else s
  | none => s

/-- What its submission means to a command (R145, R168, R169): it has submitted a drive operation, a drive write unless it is
a read or a flush. -/
def State.markSubmitted (s : State) (o : MemberOp) : State :=
  match o.owner with
  | some f => s.updFrame f fun c => { c with work := { c.work with
      driveSubmitted := c.work.driveSubmitted || o.kind != .read,
      wroteDrive := c.work.wroteDrive || o.kind == .write || o.kind == .dealloc } }
  | none => s

/-- An operation takes context `c` of queue `q`: its entry is written, then the tail doorbell (R304). -/
def State.submit (s : State) (d : Nat) (o : MemberOp) (c : Nat) : State :=
  let q := o.sq
  let s := ((s.reopenCells o).useShare o).markSubmitted o
  let w := s.drawer d
  let rot := SMap.get 0 w.rot (ctxKey q c)
  let tail := SMap.get 0 w.sqTail q
  let e := s.sqe d o (rot * 1024 + c)
  let s := { s with cab := { s.cab with queueMem := Mem.writeAll (0x140000 * d + 0x10000 * q + tail * 64) e s.cab.queueMem } }
  let s := s.updDrawer d fun w => { w with
    ctxs := SMap.put (ctxKey q c) { op := o, rot := rot, stamp := s.epoch } w.ctxs,
    sqTail := SMap.put q ((tail + 1) % 1024) w.sqTail }
  ((s.ring d q ((tail + 1) % 1024)).countCtxs d).bump DRV_SUBMITTED d (s.cmdAttr o.owner)

/-- Order of a Drawer's pending list (R303, R348): contest acquires, queue 15, drawn operations within their shares, the
rest (DEDUCED, log entry 35). -/
def State.rank (s : State) (o : MemberOp) : Nat :=
  match o.kind with
  | .acquire => 0
  | .flush => 1
  | _ => if s.withinShare o then 2 else 3

/-- Earlier holders of an operation's columns by another command (R257): those before this command's own holder. -/
def State.earlierHolders (s : State) (o : MemberOp) : List Holder :=
  let hits (h : Holder) : Bool := some h.set == o.set && h.row == o.row && decide (h.boff < o.boff + o.units) &&
    decide (o.boff < h.boff + h.count)
  s.par.holders.takeWhile (fun h => !(hits h && h.frame == o.owner)) |>.filter hits

/-- An operation may go to its drive: the dirty map (R260) and the column chain (R257) allow a write. -/
def State.opAllowed (s : State) (o : MemberOp) : Bool :=
  match o.set with
  | some k =>
    if o.kind = .write ∨ o.kind = .dealloc then
      s.dirtyConfirmed k o.row &&
        (let hs := s.earlierHolders o
         if o.parity then hs == [] else hs.all fun h => h.reads == 0)
    else true
  | none => true

/-- A Drawer accepts I/O: READY, not fenced, and this part may submit (R299, R349, R351): contest acquires go from a
standby too, and no non-RAW write goes to a Drawer whose acquire is under way (R350). -/
def State.accepts (s : State) (d : Nat) (o : MemberOp) : Bool :=
  s.isReady d && !(s.drawer d).fenced && (s.isActive || o.kind == .acquire) &&
    !(o.kind == .write && o.set.isSome && s.hng.acquiring.contains d)

/-- The first operation of the pending list that may be submitted, in the order of R303. -/
def State.nextOp (s : State) (d : Nat) : Option MemberOp :=
  [0, 1, 2, 3].findSome? fun r => (s.drawer d).pend.find? fun o => s.rank o == r && s.opAllowed o && s.accepts d o

/-- Submit what waits at a Drawer while there is room (R303). -/
def pump (d : Nat) : Nat → State → State
  | 0, s => s
  | n + 1, s =>
    match s.nextOp d with
    | none => s
    | some o =>
      if s.maxOut ≤ (s.drawer d).ctxs.length ∨ 131072 ≤ s.reg DRV_INFLIGHT_COUNT then s.raise DRV_GEVENT_POOL_WAIT
      else
        match (s.drawer d).freeCtx o.sq with
        | none => s.raise DRV_GEVENT_POOL_WAIT
        | some c =>
          let s := s.updDrawer d fun w => { w with pend := w.pend.erase o }
          pump d n (s.submit d o c)

/-- Every Drawer's pending list. -/
def State.pumpAll (s : State) : State :=
  s.drv.drawers.foldl (fun s e => if e.2.pend = [] then s else pump e.1 e.2.pend.length s) s

/-- An operation in pieces of at most `m` units, in ascending order (R298). -/
def splitOp (m : Nat) (o : MemberOp) : Nat → List MemberOp
  | 0 => [o]
  | n + 1 =>
    if o.units ≤ m then [o]
    else { o with units := m } ::
      splitOp m { o with unit := o.unit + m, units := o.units - m, goff := o.goff + m * 4096, boff := o.boff + m } n

/-- The pieces a drive's transfer limit asks for; 0 is no limit (R298, R312). -/
def State.opPieces (s : State) (o : MemberOp) : List MemberOp :=
  let m := s.reg DRV_FMT_MDTS_KIB o.drawer / 4
  if m = 0 ∨ (o.kind ≠ .read ∧ o.kind ≠ .write) then [o] else splitOp m o o.units

/-- An operation joins its Drawer's pending list; a write that must wait for the dirty map is counted (R260). -/
def State.queueOp (s : State) (o : MemberOp) : State :=
  let o := { o with order := s.drv.next }
  let s := { s with drv := { s.drv with next := s.drv.next + 1 } }
  let s := match o.set with
    | some k => if (o.kind = OpKind.write ∨ o.kind = OpKind.dealloc) ∧ !s.dirtyConfirmed k o.row then s.bump LDG_DIRTY_WAITS 0 (s.cmdAttr o.owner)
      else s
    | none => s
  let ps := s.opPieces o
  s.updDrawer o.drawer fun w => { w with pend := w.pend ++ ps }

/-! ### DRIVE requests -/

/-- Key of a DRIVE request. -/
def reqKey (o t : Nat) : Nat := 64 * o + t

/-- A DRIVE request under way. -/
def State.driveReq (s : State) (o t : Nat) : Option DriveReq := SMap.find s.drv.reqs (reqKey o t)

/-- It changed. -/
def State.updReq (s : State) (o t : Nat) (f : DriveReq → DriveReq) : State :=
  match s.driveReq o t with
  | some r => { s with drv := { s.drv with reqs := SMap.put (reqKey o t) (f r) s.drv.reqs } }
  | none => s

/-- The rows a command's DRIVE write covers, by set. -/
def State.writtenRows (s : State) (v slba n : Nat) : List Nat := ((spanRows (s.spans v slba n)).map (·.1.row)).eraseDups

/-- Holders of a command leave the columns they held (R257). -/
def State.dropHolders (s : State) (p : Holder → Bool) : State :=
  { s with par := { s.par with holders := s.par.holders.filter fun h => !p h } }

/-- A context still holds its operation up: outstanding, or a write's original that is not accounted for (R308). -/
def NvmeCtx.holdsOp (c : NvmeCtx) : Bool := c.quar.isNone || (c.op.kind != .read && !c.accounted)

/-- Operations that have not ended: those that a command at a drive holds up, and those that wait. -/
def State.liveOps (s : State) : List MemberOp :=
  s.drv.drawers.flatMap fun e =>
    ((e.2.ctxs.map (·.2)).filter NvmeCtx.holdsOp).map (·.op) ++ e.2.pend ++ e.2.again ++ e.2.nnr

/-- The cells of a holder's P and Q: group, first byte, bytes. -/
def Holder.outRanges (h : Holder) : List (Nat × Nat × Nat) :=
  match h.out with
  | some (g, p, q) => [(g, p, h.count * 4096), (g, q, h.count * 4096)]
  | none => []

/-- A drive write, or a holder of busy columns, still names some of the cells (R17, R257). -/
def State.cellsNamed (s : State) (g off n : Nat) : Bool :=
  (s.liveOps.any fun p => p.kind == .write && overlaps p.group p.goff (p.units * 4096) g off n) ||
    s.par.holders.any fun h => h.outRanges.any fun r => overlaps r.1 r.2.1 r.2.2 g off n

/-- The cells that drive writes have read are freed once nothing names them any more (R17, R207). -/
def State.freeStored (s : State) (g off n : Nat) : State :=
  if s.cellsNamed g off n then s else s.freeRun g (off / 256) (n / 256)

/-- The P and Q writes of a holder of columns have ended: it holds them no more, and its cells are free (R207, R257). -/
def State.endHolder (s : State) (o : MemberOp) : State :=
  let mine (h : Holder) : Bool := h.frame == o.owner && some h.set == o.set && h.row == o.row && h.submitted && h.writes == 0
  let more := s.liveOps.any fun p => p.parity && p.order != o.order && p.owner == o.owner && p.set == o.set && p.row == o.row
  if !o.parity || more then s
  else
    let gone := (s.par.holders.filter mine).flatMap Holder.outRanges
    gone.foldl (fun s r => s.freeStored r.1 r.2.1 r.2.2) (s.dropHolders mine)

/-- A DRIVE request whose parts have all ended has its result (R187): MEDIA_DAMAGED, SET_OFFLINE, or the blocks
reconstructed. -/
def State.endReqIfDone (s : State) (o t : Nat) : State :=
  match s.driveReq o t with
  | none => s
  | some r =>
    if r.jobs ≠ [] ∨ r.ops ≠ 0 then s
    else
      let s := { s with drv := { s.drv with reqs := SMap.del (reqKey o t) s.drv.reqs } }
      let q : Option Req := (s.ticket o t).map (·.req)
      let s := match q with
        | some (Req.drive 1 _ 0 v _ _ a n _ _) =>
          let s := s.writesDone o (s.volSet v) (s.writtenRows v a n)
          s.dropHolders fun h => h.frame == some o && h.writes == 0 && h.set == s.volSet v && (s.writtenRows v a n).contains h.row
        | _ => s
      let s := s.updFrame o fun c => { c with work := { c.work with driveOps := c.work.driveOps - 1 } }
      let offline : Bool := match q with
        | some (Req.drive _ _ 0 v _ _ _ _ _ _) => s.setOffline (s.volSet v)
        | _ => false
      if offline then s.answer o t 0x0011 0 0
      else
        match r.damaged with
        | some i => s.answer o t 0x0010 0 i
        | none => s.answer o t 0 0 r.recon

/-- One member operation of a request has ended. -/
def State.endOpOf (s : State) (o : MemberOp) : State :=
  match o.owner with
  | some f => ((s.endHolder o).updReq f o.ticket fun r => { r with ops := r.ops - 1 }).endReqIfDone f o.ticket
  | none => s

/-- One of each operation, whatever pieces and reissues it is at the drive in. -/
def distinctOps (os : List MemberOp) : List MemberOp :=
  os.foldl (fun l o => if l.any fun p => p.order == o.order then l else l ++ [o]) []

/-- The position a Drawer holds is lost: its writes, and the operation whose failure lost it, end once each; their contexts
are quarantined (R256, R308). -/
def State.skipWrites (s : State) (d : Nat) (failed : Option MemberOp) : State :=
  let w := s.drawer d
  let hit (o : MemberOp) : Bool := ((o.kind == .write || o.kind == .dealloc) && o.set.isSome) || failed.any fun p => p.order == o.order
  let out := ((w.ctxs.map (·.2)).filter NvmeCtx.holdsOp).map (·.op) ++ w.pend ++ w.again ++ w.nnr
  let ended := distinctOps (out.filter hit ++ failed.toList)
  let skip (c : NvmeCtx) : NvmeCtx := if hit c.op then
      { c with op := { c.op with owner := none }, quar := some (c.quar.getD s.epoch) } else c
  let keep (l : List MemberOp) : List MemberOp := l.filter fun o => !hit o
  let s := s.updDrawer d fun w => { w with
    pend := keep w.pend, again := keep w.again, nnr := keep w.nnr, ctxs := w.ctxs.mapVal fun _ c => skip c }
  (ended.foldl (fun s o => s.endOpOf o) s).countCtxs d

/-- A read job has ended. -/
def State.endJob (s : State) (j : Nat) : State :=
  match SMap.find s.drv.jobs j with
  | none => s
  | some w =>
    let s := match w.staging with
      | some g => s.freeGroup g
      | none => s
    let s := { s with drv := { s.drv with jobs := SMap.del j s.drv.jobs } }
    (s.updReq w.owner w.ticket fun r => { r with jobs := r.jobs.erase j }).endReqIfDone w.owner w.ticket

/-- The row a job reads. -/
def State.jobRow (s : State) (w : ReadJob) : RowAt := s.layoutRow w.set w.row

/-- The strips a recovery of `miss` reads (R253): the other data, P where one data strip is lost, and Q where two are, or
one with P. -/
def wantedStrips (n : Nat) (miss : List Nat) : List Nat :=
  let lost := (miss.filter fun i => decide (i < n)).length
  ((List.range n).filter fun i => !miss.contains i) ++ (if miss.contains n ∨ lost = 0 then [] else [n]) ++
    (if !miss.contains (n + 1) ∧ (lost = 2 ∨ (lost = 1 ∧ miss.contains n)) then [n + 1] else [])

/-- Blocks of strips that a present member could not return are put back (R273); a member that they lose for MEDIA_MAX has its
writes skipped (R270, R308). -/
def State.repairStrips (s : State) (r : RowAt) (w : ReadJob) : State :=
  (w.unknown.filter fun i => (s.stripHome r i).isSome).foldl (fun s i =>
    let x := r.pos i
    let h : Holder := { set := w.set, row := w.row, boff := w.boff, count := w.count }
    let s := { s with par := { s.par with
      repairs := s.par.repairs ++ [(w.set, x, s.memberBlock r w.boff)], holders := s.par.holders ++ [h] } }
    let was := s.isLost w.set x
    let s := s.countRepair (s.cmdAttr (some w.owner)) w.set x w.count
    if s.isLost w.set x ∧ !was then s.skipWrites (s.posDrawer w.set x) none else s) s

/-- All strips a recovery wanted are in its staging group: the lost blocks are computed into their cells (R253, R273); a block
that a reissued read brought is put there. -/
def State.finishRecovery (s : State) (j : Nat) (w : ReadJob) (g : Nat) : State :=
  let r := s.jobRow w
  let len := w.count * 4096
  let strips := (List.range (r.n + 2)).map fun i => s.groupRead g (i * len) len
  let miss := w.unknown ++ w.missing
  let lost := reconStrips r.n len strips miss
  let mine := (((List.range (r.n + 2)).filter miss.contains).zip lost).find? fun e => e.1 == w.strip
  let s := match mine with
    | some (_, bs) =>
      let s := (s.groupWrite w.group w.goff bs .driveRead).bumpBy PAR_DEG_READS 0 w.count (s.cmdAttr (some w.owner))
      s.updReq w.owner w.ticket fun q => { q with recon := q.recon + w.count }
    | none => s.groupWrite w.group w.goff (s.groupRead g (w.strip * len) len) .driveRead
  (s.repairStrips r w).endJob j

/-- A job's strips as its recovery sees them: those of its row that are unknown by now are unknown, and where three strips
are out in all the ones that only timed out are read again (R271, R307). -/
def State.jobStrips (s : State) (w : ReadJob) : ReadJob :=
  let un := (w.unknown ++ s.rowUnknown (s.jobRow w)).eraseDups
  let late := w.missing.filter fun i => !un.contains i
  { w with unknown := un, missing := if un.length + late.length ≤ 2 then late else [] }

/-- The device finds `n` cells for itself: a free group, fill below the spill threshold, its account within its limit (R200 to
R202). -/
def State.systemFits (s : State) (n : Nat) : Bool :=
  s.freeGroupIndex.isSome && decide (s.fill < s.spillThreshold) && s.withinLimits none n

/-- Start the recovery of a job's blocks, or go on with it where another strip is out (R273, R274): damage where three strips
are unknown, else the reads it still needs into a staging group of the device, once there are cells for it (R201, R202)
(DEDUCED, log entry 33). -/
def State.recoverPart (s : State) (j : Nat) (w : ReadJob) : State :=
  let r := s.jobRow w
  let v := s.jobStrips w
  if 3 ≤ v.unknown.length then
    let s := s.damageStrips r (v.unknown.filter fun i => decide (i < r.n)) w.boff w.count 1
    let s := { s with drv := { s.drv with jobs := SMap.put j v s.drv.jobs } }
    let s := s.updReq w.owner w.ticket fun q => { q with damaged := some (min w.index (q.damaged.getD w.index)) }
    s.endJob j
  else
    let (g?, s) := match w.staging with
      | some g => (some g, s)
      | none =>
        let n := (r.n + 2) * w.count * 16
        match (if s.systemFits n then s.freeGroupIndex else none) with
        | some g => (some g, (s.takeGroup g none none n).1)
        | none => (none, s)
    match g? with
    | none => { s with drv := { s.drv with jobs := SMap.put j { v with waits := true } s.drv.jobs } }
    | some g =>
      let want := wantedStrips r.n (v.unknown ++ v.missing)
      let fresh := want.filter fun i => !w.want.contains i || w.missing.contains i
      let v := { v with staging := some g, want := want, waits := false }
      let s := { s with drv := { s.drv with jobs := SMap.put j v s.drv.jobs } }
      if want.all v.got.contains then s.finishRecovery j v g
      else fresh.foldl (fun s i =>
        match s.stripHome r i with
        | some d => s.queueOp {
            kind := .read, owner := some w.owner, ticket := w.ticket, drawer := d,
            unit := s.memberBlock r w.boff, units := w.count, group := g, goff := i * w.count * 4096,
            set := some w.set, row := w.row, strip := i, boff := w.boff, job := some j }
        | none => s) s

/-- The recovery of a job: one whose strips would not lie in one group is cut in two (R198, R273). -/
def State.recoverJob (s : State) (j : Nat) (w : ReadJob) : State :=
  let h := w.count / 2
  if w.staging.isSome ∨ (s.jobRow w).n + 2 ≤ 4096 / w.count then s.recoverPart j w
  else
    let k := s.drv.next
    let s := { s with drv := { s.drv with next := k + 1 } }
    let s := s.updReq w.owner w.ticket fun r => { r with jobs := k :: r.jobs }
    let b := { w with boff := w.boff + h, count := w.count - h, goff := w.goff + h * 4096, index := w.index + h }
    (s.recoverPart j { w with count := h }).recoverPart k b

/-- Recoveries that wait for cells are tried again (R201, R202). -/
def State.retryJobs (s : State) : State :=
  (s.drv.jobs.filter fun e => e.2.waits).foldl (fun s e => match SMap.find s.drv.jobs e.1 with
    | some w => if w.waits then s.recoverPart e.1 w else s
    | none => s) s

/-- A member read of a job ended with its data in the cells. -/
def State.jobGot (s : State) (o : MemberOp) : State :=
  match o.job with
  | none => s.endOpOf o
  | some j =>
    match SMap.find s.drv.jobs j with
    | none => s
    | some w =>
      match w.staging with
      | none => s.endJob j
      | some g =>
        let got := o.strip :: w.got
        let w := { w with got := got }
        let s := { s with drv := { s.drv with jobs := SMap.put j w s.drv.jobs } }
        if w.want.all got.contains then s.finishRecovery j w g else s

/-- A member read of a job found its strip unknown, or missing for a timeout alone (R273, R274, R307). -/
def State.jobFailed (s : State) (o : MemberOp) (isUnknown : Bool) : State :=
  match o.job with
  | none => s.endOpOf o
  | some j =>
    match SMap.find s.drv.jobs j with
    | none => s
    | some w =>
      if isUnknown then (if w.unknown.contains o.strip then s else s.recoverJob j { w with unknown := o.strip :: w.unknown })
      else if (w.unknown ++ w.missing).contains o.strip then s
      else s.recoverJob j { w with missing := o.strip :: w.missing }

/-- The column of a read is recoverable without its member: at most one other strip is unknown or missing (R307). -/
def State.recoverable (s : State) (o : MemberOp) : Bool :=
  match o.job with
  | none => false
  | some j =>
    match SMap.find s.drv.jobs j with
    | none => false
    | some w => decide (((w.unknown ++ w.missing).filter (· != o.strip)).length ≤ 1)

/-- Read jobs of a request begin: each at its strip's home, or with its recovery. -/
def State.startJobs (s : State) (o t : Nat) (drawn : Bool) (ws : List ReadJob) : State :=
  let s := { s with drv := { s.drv with reqs := SMap.put (reqKey o t) ({} : DriveReq) s.drv.reqs } }
  let s := s.updFrame o fun c => { c with work := { c.work with driveOps := c.work.driveOps + 1 } }
  let ids := (List.range ws.length).map (· + s.drv.next)
  let s := { s with drv := { s.drv with next := s.drv.next + ws.length } }
  let s := s.updReq o t fun r => { r with jobs := ids }
  let s := (ids.zip ws).foldl (fun s jw =>
    let (j, w) := jw
    let s := { s with drv := { s.drv with jobs := SMap.put j w s.drv.jobs } }
    let r := s.jobRow w
    match s.stripHome r w.strip with
    | some d => s.queueOp {
        kind := .read, owner := some o, ticket := t, drawer := d, unit := s.memberBlock r w.boff, units := w.count,
        group := w.group, goff := w.goff, set := some w.set, row := w.row, strip := w.strip, boff := w.boff,
        job := some j, drawn := drawn }
    | none => s.recoverJob j w) s
  s.pumpAll.endReqIfDone o t

/-- Start a DRIVE read of a volume range (R187, R273, R280). -/
def State.startRead (s : State) (o t v g goff a n : Nat) (drawn : Bool) : State :=
  let sp := s.spans v a n
  if s.setOffline (s.volSet v) then s.answer o t 0x0011 0 0
  else
    match s.firstDamaged sp with
    | some i => s.answer o t 0x0010 0 i
    | none => s.startJobs o t drawn (sp.map fun x => {
        owner := o, ticket := t, set := x.row.set, row := x.row.row, strip := x.strip, boff := x.boff,
        count := x.count, group := g, goff := goff + x.index * 4096, index := x.index,
        unknown := s.rowUnknown x.row })

/-- A drive write of columns of a row has not ended. -/
def State.columnsWritten (s : State) (k row boff n : Nat) : Bool :=
  s.liveOps.any fun p => (p.kind == .write || p.kind == .dealloc) && p.set == some k && p.row == row &&
    decide (p.boff < boff + n) && decide (boff < p.boff + p.units)

/-- Every column of a row takes the form of R256: a member is lost, or the row awaits resync (R264). -/
def State.readsAll (s : State) (r : RowAt) : Bool :=
  s.rowUnknown r != [] || s.par.resync.any fun y => y.set == r.set && y.row == r.row

/-- The form of column `i` of a row that owner `o` writes by spans `xs` (R254, R256, R257): the one its holder has chosen, else
the one that the table gives. -/
def State.columnFormAt (s : State) (o : Nat) (r : RowAt) (xs : List Span) (i : Nat) : Nat :=
  let mine (h : Holder) : Bool := h.frame == some o && h.set == r.set && h.row == r.row
  match (s.par.holders.find? mine).bind fun h => SMap.find h.forms i with
  | some v => v
  | none => if s.readsAll r then 2 else columnForm r.n (touched xs i)

/-- The spans of a row in the range of the LEDGER request that a DRIVE write of `n` blocks from `a` falls under (R189). -/
def State.ledgerSpans (s : State) (o v a n : Nat) (r : RowAt) (xs : List Span) : List Span :=
  let done := if o < 65536 then ((s.frame o).map (·.work.ledgered)).getD [] else (s.thread (o - 65536 + 512)).ledgered
  match done.find? fun l => l.1 == v && decide (l.2.1 ≤ a) && decide (a + n ≤ l.2.1 + l.2.2) with
  | some l => (((spanRows (s.spans v l.2.1 l.2.2)).find? fun e => e.1.row == r.row && e.1.new == r.new).map (·.2)).getD xs
  | none => xs

/-- The forms of a row's columns are counted as its write is submitted, each with the first of its changed blocks (R268). -/
def State.countForms (s : State) (o v a n : Nat) (r : RowAt) (xs : List Span) : State :=
  let ys := s.ledgerSpans o v a n r xs
  let first (l : List Span) (i : Nat) : Option Nat :=
    (l.find? fun x => decide (x.boff ≤ i) && decide (i < x.boff + x.count)).map (·.strip)
  let (lo, m) := coverRun xs
  (((List.range m).map (· + lo)).filter fun i => first xs i == first ys i).foldl (fun s i =>
    match s.columnFormAt o r ys i with
    | 1 => s.bump PAR_FULL 0 (s.cmdAttr (some o))
    | 2 => s.bump PAR_RECON_W 0 (s.cmdAttr (some o))
    | _ => s.bump PAR_UPDATE 0 (s.cmdAttr (some o))) s

/-- Where the staged copy of a strip of an old row lies: its added Drawer, and its first block; none while the row is not
staged or that Drawer is lost (R287) (DESIGN CHOICE, log entry 107). -/
def State.stagedHome (s : State) (r : RowAt) (i : Nat) : Option (Nat × Nat) :=
  let k := r.set
  let t := s.setSt k
  let m := t.added.length
  if r.new ∨ !s.flag PAR_RB_STATE_STAGING k ∨ t.stagingRow ≤ r.row ∨ m = 0 then none
  else
    let at_ := r.row * r.w + r.pos i
    let x := r.w + at_ % m
    if s.isLost k x then none
    else some (s.posDrawer k x, s.setBase k + (s.setRows k - 1 - at_ / m) * s.setSb k)

/-- The writes of a row with those to its staged copy, in the same drive phase (R287). -/
def State.withStaged (s : State) (r : RowAt) (ops : List MemberOp) : List MemberOp :=
  ops ++ ops.filterMap fun o => (s.stagedHome r o.strip).map fun h => { o with drawer := h.1, unit := h.2 + o.boff }

/-- The member writes of one row: data to the strips present, P and Q of the run of columns (R188, R256, R257). -/
def State.rowWrites (s : State) (o t g goff pg poff : Nat) (fua drawn : Bool) (r : RowAt) (xs : List Span) : List MemberOp :=
  let (lo, n) := coverRun xs
  let base : MemberOp := { kind := .write, owner := some o, ticket := t, fua := fua, set := some r.set, row := r.row,
                           drawn := drawn }
  let data := xs.filterMap fun x => (s.stripHome r x.strip).map fun d =>
    { base with drawer := d, unit := s.memberBlock r x.boff, units := x.count, group := g,
                goff := goff + x.index * 4096, strip := x.strip, boff := x.boff }
  let syn (i off : Nat) : List MemberOp := ((s.stripHome r i).map fun d =>
    { base with drawer := d, unit := s.memberBlock r lo, units := n, group := pg, goff := off,
                strip := i, parity := true, boff := lo }).toList
  s.withStaged r (data ++ syn r.n poff ++ syn (r.n + 1) (poff + n * 4096))

/-- The writes of several rows, P and Q of each row behind those of the row before (R188). -/
def State.allWrites (s : State) (o t g goff pg : Nat) (fua drawn : Bool) : Nat → List (RowAt × List Span) → List MemberOp
  | _, [] => []
  | poff, (r, xs) :: rows =>
    s.rowWrites o t g goff pg poff fua drawn r xs ++
      s.allWrites o t g goff pg fua drawn (poff + 2 * (coverRun xs).2 * 4096) rows

/-- A write's holder of a row's columns has its P and Q cells (R257). -/
def State.holdOut (s : State) (o pg poff : Nat) (r : RowAt) (xs : List Span) : State :=
  let (lo, n) := coverRun xs
  let mine (h : Holder) : Bool := h.frame == some o && h.set == r.set && h.row == r.row
  let h : Holder := { frame := some o, set := r.set, row := r.row, boff := lo, count := n,
                      out := some (pg, poff, poff + n * 4096), submitted := true }
  if s.par.holders.any mine then
    let f (x : Holder) : Holder := if mine x then { h with reads := x.reads, writes := x.writes - 1, forms := x.forms } else x
    { s with par := { s.par with holders := s.par.holders.map f } }
  else { s with par := { s.par with holders := s.par.holders ++ [h] } }

/-- Start a DRIVE write of a volume range with its P and Q (R188, R189, R255 to R257). -/
def State.startWrite (s : State) (o t v g goff a n pg poff : Nat) (fua drawn : Bool) : State :=
  let rows := spanRows (s.spans v a n)
  if s.setOffline (s.volSet v) then s.answer o t 0x0011 0 0
  else
    let ops := s.allWrites o t g goff pg fua drawn poff rows
    let s := { s with drv := { s.drv with reqs := SMap.put (reqKey o t) { ops := ops.length } s.drv.reqs } }
    let s := s.updFrame o fun c => { c with work := { c.work with driveOps := c.work.driveOps + 1 } }
    let (s, _) := rows.foldl (fun (sp : State × Nat) rx =>
      ((sp.1.holdOut o pg sp.2 rx.1 rx.2).countForms o v a n rx.1 rx.2, sp.2 + 2 * (coverRun rx.2).2 * 4096)) (s, poff)
    let s := ops.foldl (fun s m => s.queueOp m) s
    s.pumpAll.endReqIfDone o t

/-- A write that takes P or Q from an earlier holder is in the update form there (R257). -/
def State.noteChained (s : State) (o k row off n : Nat) : State :=
  let mine (h : Holder) : Bool := h.frame == some o && h.set == k && h.row == row
  let forms (m : SMap Nat) : SMap Nat := ((List.range n).map (· + off)).foldl (fun m i => SMap.put i 3 m) m
  if s.par.holders.any mine then
    let f (x : Holder) : Holder := if mine x then { x with forms := forms x.forms } else x
    { s with par := { s.par with holders := s.par.holders.map f } }
  else
    let h : Holder := { frame := some o, set := k, row := row, boff := off, count := n, forms := forms [] }
    { s with par := { s.par with holders := s.par.holders ++ [h] } }

/-- Start a RAW DRIVE operation on a Drawer's units (R188). A RAW read by a write of blocks of a column that another
write holds takes P and Q from that holder's output cells (R257) (DEDUCED, log entry 34). -/
def State.startRaw (s : State) (o t op d g goff unit n : Nat) (fua : Bool) : State :=
  let s := { s with drv := { s.drv with reqs := SMap.put (reqKey o t) { ops := 1 } s.drv.reqs } }
  let s := s.updFrame o fun c => { c with work := { c.work with driveOps := c.work.driveOps + 1 } }
  let chained : Option (Nat × Nat × Nat × Nat × Nat) :=
    if op ≠ 0 then none
    else match s.memberOf d with
      | none => none
      | some (k, x) =>
        let sb := s.setSb k
        let row := (unit - s.setBase k) / sb
        let off := (unit - s.setBase k) % sb
        let r := s.layoutRow k row
        if unit < s.setBase k then none
        else (s.par.holders.filter fun h => h.frame != some o && h.set == k && h.row == row && decide (h.boff ≤ off) &&
            decide (off + n ≤ h.boff + h.count)).getLast?.bind fun h => h.out.bind fun q =>
          if r.pos r.n = x then some (q.1, q.2.1 + (off - h.boff) * 4096, k, row, off)
          else if r.pos (r.n + 1) = x then some (q.1, q.2.2 + (off - h.boff) * 4096, k, row, off) else none
  match chained with
  | some (hg, hoff, k, row, off) =>
    let s := (s.groupWrite g goff (s.groupRead hg hoff (n * 4096)) .driveRead).bump PAR_CHAINED 0 (s.cmdAttr (some o))
    let s := s.noteChained o k row off n
    (s.updReq o t fun r => { r with ops := 0 }).endReqIfDone o t
  | none =>
    (s.queueOp { kind := (match op with | 0 => .read | 1 => .write | 2 => .flush | _ => .dealloc), owner := some o, ticket := t, drawer := d, unit := unit,
                 units := n, group := g, goff := goff, fua := fua }).pumpAll

/-- Start a DRIVE flush (R129): each member with an enabled volatile write cache; at once where there is none. -/
def State.startFlushReq (s : State) (o t v : Nat) : State :=
  let k := s.volSet v
  let ds := ((s.positions k).filter fun x => !s.isLost k x).map (s.posDrawer k)
  let ds := (ds.filter fun d => (s.drawer d).vwc)
  let s := { s with drv := { s.drv with reqs := SMap.put (reqKey o t) { ops := ds.length } s.drv.reqs } }
  let s := s.updFrame o fun c => { c with work := { c.work with driveOps := c.work.driveOps + 1 } }
  let s := ds.foldl (fun s d => s.queueOp { kind := .flush, owner := some o, ticket := t, drawer := d }) s
  s.pumpAll.endReqIfDone o t

/-- Rows of a range that lie in it whole. -/
def wholeRows (sb : Nat) (rows : List (RowAt × List Span)) : List RowAt :=
  (rows.filter fun rx => decide (((rx.2.map (·.count)).sum) = rx.1.n * sb)).map (·.1)

/-- The strips with a home of the whole stripes of a deallocation: row, strip, Drawer. -/
def State.deallocHomes (s : State) (v a n : Nat) : List (RowAt × Nat × Nat) :=
  (wholeRows (s.setSb (s.volSet v)) (spanRows (s.spans v a n))).flatMap fun r =>
    (List.range (r.n + 2)).filterMap fun i => (s.stripHome r i).map fun d => (r, i, d)

/-- Some drive of a deallocation does not report deallocated blocks as zeros: it is written zeros (R128). -/
def State.zerosNeeded (s : State) (v a n : Nat) : Bool := (s.deallocHomes v a n).any fun h => !(s.drawer h.2.2).dlfeat

/-- The device finds the cells that a deallocation's zeros take (R200 to R202). -/
def State.zerosFit (s : State) (v a n : Nat) : Bool := !s.zerosNeeded v a n || s.systemFits (s.setSb (s.volSet v) * 16)

/-- Start a DRIVE deallocate (R128): Dataset Management to every member of each whole stripe whose drive reports
deallocated blocks as zeros, a write of zero ciphertext to every other, from cells of the device that are freed with the
last of these writes (DEDUCED, log entry 37). -/
def State.startDealloc (s : State) (o t v a n : Nat) : State :=
  let k := s.volSet v
  if s.setOffline k then s.answer o t 0x0011 0 0
  else
    let sb := s.setSb k
    let homes := s.deallocHomes v a n
    let g := if s.zerosNeeded v a n then s.freeGroupIndex.getD 0 else 0
    let s := if s.zerosNeeded v a n then
        ((s.takeGroup g none (some o) (sb * 16)).1).groupWrite g 0 (List.replicate (sb * 4096) 0) .other
      else s
    let s := { s with drv := { s.drv with reqs := SMap.put (reqKey o t) { ops := homes.length } s.drv.reqs } }
    let s := s.updFrame o fun c => { c with work := { c.work with driveOps := c.work.driveOps + 1 } }
    let s := homes.foldl (fun s h => s.queueOp {
      kind := (if (s.drawer h.2.2).dlfeat then .dealloc else .write), owner := some o, ticket := t, drawer := h.2.2,
      unit := s.memberBlock h.1 0, units := sb, group := g, goff := 0, set := some k, row := h.1.row, strip := h.2.1,
      parity := decide (h.1.n ≤ h.2.1), boff := 0 }) s
    s.pumpAll.endReqIfDone o t

/-- A DRIVE request starts (R187 to R189). -/
def State.startDrive (s : State) (o t : Nat) (drawn : Bool) : Req → State
  | .drive op fua raw v g goff a n pg poff =>
    let s := s.started o t
    if raw = 1 then s.startRaw o t op v g goff a n (fua == 1)
    else if op = 0 then s.startRead o t v g goff a n drawn
    else if op = 1 then s.startWrite o t v g goff a n pg poff (fua == 1) drawn
    else if op = 2 then s.startFlushReq o t v
    else s.startDealloc o t v a n
  | _ => s

/-! ### How an NVMe command ends (R304 to R310) -/

/-- A context is free: its rotation moves on (R304). -/
def State.freeCtx (s : State) (d key : Nat) : State :=
  let s := s.updDrawer d fun w => { w with
    ctxs := SMap.del key w.ctxs, rot := SMap.put key ((SMap.get 0 w.rot key + 1) % 64) w.rot }
  s.countCtxs d

/-- No other command at a Drawer serves the same operation: every piece of it has ended (R298, R308). -/
def State.lastPiece (s : State) (o : MemberOp) : Bool :=
  let w := s.drawer o.drawer
  w.ctxs.all (fun e => e.2.op.order != o.order || !e.2.holdsOp) &&
    (w.pend ++ w.again ++ w.nnr).all fun p => p.order != o.order

/-- The cells that a completed drive write has read are freed (R17, R207). -/
def State.freeWritten (s : State) (o : MemberOp) : State :=
  if o.kind = .write then s.freeStored o.group o.goff (o.units * 4096) else s

/-- A member operation, or a piece of one, ended well. -/
def State.opDone (s : State) (o : MemberOp) : State :=
  let s := s.freeWritten o
  if !s.lastPiece o then s
  else
    match o.kind with
    | .read => s.jobGot o
    | .write => s.endOpOf o
    | _ => s.endOpOf o

/-- The same operation is submitted again with a new CID. -/
def State.reissue (s : State) (o : MemberOp) : State :=
  let s := s.updDrawer o.drawer fun w => { w with pend := w.pend ++ [{ o with reissued := true }] }
  s.bump DRV_REISSUES o.drawer (s.cmdAttr o.owner)

/-- The position a Drawer holds is lost; its writes are skipped (R270, R308). -/
def State.losePosition (s : State) (d : Nat) : State := (s.loseDrawer d).skipWrites d none

/-- An operation that failed for good (R270, R307, R309): a read is recovered or sent again, anything else loses the
position. -/
def State.opFailed (s : State) (o : MemberOp) (dnr : Bool) : State :=
  match o.kind with
  | .read =>
    if s.recoverable o then s.jobFailed o false
    else s.reissue o
  | .acquire => if o.reissued then s else s.reissue o
  | _ =>
    if !dnr ∧ !o.reissued then s.reissue o
    else (s.loseDrawer o.drawer).skipWrites o.drawer (some o)

end Sys2Proof.Machine
end

