-- ==== Sys2Proof/Machine/Commands.lean ====
section
/-! DEFINITION. Host commands: capsule fields and checks, bindings, the overlap tracker, reservations, completions and
their release, withdrawal and faults (R120 to R153, R165 to R169). -/

namespace Sys2Proof.Machine

open Sys2Proof.Reg

/-! ### Capsule fields (R120, R161) -/

def Cmd.flagBits (c : Cmd) : Nat := capField c.capsule 1 1
def Cmd.fua (c : Cmd) : Bool := bitOf c.flagBits 0
def Cmd.fence (c : Cmd) : Bool := bitOf c.flagBits 1
def Cmd.rsv (c : Cmd) : Bool := bitOf c.flagBits 2
def Cmd.rsvid (c : Cmd) : Nat := capField c.capsule 4 4
def Cmd.dkey (c : Cmd) : Nat := capField c.capsule 20 4
def Cmd.doff (c : Cmd) : Nat := capField c.capsule 24 8
/-- ARGS bytes `o` to `o + n - 1`. -/
def Cmd.arg (c : Cmd) (o n : Nat) : Nat := capField c.capsule (32 + o) n

/-- The MSGID that the capsule of an ABORT names: its tag and its incarnation (R146). -/
def abortTarget (c : List Byte) : Nat := 2 ^ 16 * capField c 34 2 + capField c 32 2
def Cmd.target (c : Cmd) : Nat := abortTarget c.capsule

/-! ### Opcodes (R124) -/

def opREAD := 0x01
def opWRITE := 0x02
def opFLUSH := 0x03
def opWRITE_ZEROES := 0x04
def opDEALLOCATE := 0x05
def opCOMPARE_WRITE := 0x06
def opABORT := 0x08
def opREGION_REGISTER := 0x10
def opREGION_REVOKE := 0x11
def opCYCLE_RESERVE := 0x18
def opCYCLE_RELEASE := 0x19
def opIDENTIFY := 0x20
def opLOG_READ := 0x21
def opKEEPALIVE := 0x22

/-- One row of R124: the flags allowed, the capsule bytes the opcode uses beside OPCODE and FLAGS, whether its release is
sealed, and the rights it needs (1 read, 2 write). -/
structure OpRow where
  flags : Nat
  used : List (Nat × Nat)
  isSealed : Bool
  right : Nat

/-- The rows of R124. -/
def opRow (op : Nat) : Option OpRow :=
  let vol := (2, 2)
  let range := [(8, 8), (16, 4)]
  let data := [(20, 4), (24, 8)]
  match op with
  | 0x01 => some ⟨6, vol :: range ++ data, false, 1⟩
  | 0x02 => some ⟨7, vol :: range, true, 2⟩
  | 0x03 => some ⟨2, [vol], false, 2⟩
  | 0x04 => some ⟨3, vol :: range, true, 2⟩
  | 0x05 => some ⟨2, vol :: range, true, 2⟩
  | 0x06 => some ⟨3, vol :: range, true, 3⟩
  | 0x08 => some ⟨0, [(32, 4)], false, 0⟩
  | 0x10 => some ⟨2, [(32, 10)], true, 0⟩
  | 0x11 => some ⟨2, [(32, 4)], false, 0⟩
  | 0x18 => some ⟨2, [vol, (32, 1), (34, 10), (48, 8)], true, 0⟩
  | 0x19 => some ⟨2, [(32, 4)], true, 0⟩
  | 0x20 => some ⟨2, data ++ [(32, 1)], false, 0⟩
  | 0x21 => some ⟨2, data ++ [(16, 4), (32, 1), (36, 4)], false, 0⟩
  | 0x22 => some ⟨2, [], false, 0⟩
  | _ => none

/-- The command has a block range. -/
def Cmd.hasRange (c : Cmd) : Bool := c.opcode ≤ opCOMPARE_WRITE && c.opcode != opFLUSH

/-- The opcode is a user opcode (R124). -/
def isUserOp (op : Nat) : Bool := decide (0x80 ≤ op) && decide (op ≤ 0xBF)

/-- Byte `i` is used by a row, given the RSV flag and IDENTIFY's CNS. -/
def OpRow.uses (r : OpRow) (c : Cmd) (i : Nat) : Bool :=
  decide (i < 2) || (r.used.any fun u => decide (u.1 ≤ i) && decide (i < u.1 + u.2)) ||
    (c.rsv && bitOf r.flags 2 && decide (4 ≤ i) && decide (i < 8)) ||
    (c.opcode == opIDENTIFY && c.arg 0 1 == 1 && decide (2 ≤ i) && decide (i < 4))

/-- A value outside `lo` to `hi`, or no multiple of `m`. -/
def outOf (v lo hi m : Nat) : Bool := decide (v < lo) || decide (hi < v) || v % m != 0

/-- Fields out of range, each by its first byte (R124, R148; COMPARE_WRITE's NBLK and the rest by their rows). -/
def fieldsOut (c : Cmd) : List Nat :=
  let nblk (hi : Nat) : List Nat := if outOf c.nblk 1 hi 1 then [16] else []
  let doff : List Nat := if c.doff % 4096 ≠ 0 then [24] else []
  match c.opcode with
  | 0x01 => nblk 4096 ++ doff
  | 0x02 => nblk 4096
  | 0x04 | 0x05 => nblk 262144
  | 0x06 => nblk 64
  | 0x10 => (if outOf (c.arg 0 8) 4096 (2 ^ 40) 4096 then [32] else []) ++ (if 1 < c.arg 8 1 then [40] else []) ++
      (if 1 < c.arg 9 1 then [41] else [])
  | 0x18 => (if 1 < c.arg 0 1 then [32] else []) ++ (if c.arg 2 2 = 0 then [34] else []) ++
      (if outOf (c.arg 16 8) 4096 (2 ^ 40) 1 then [48] else [])
  | 0x20 => doff ++ (if 3 < c.arg 0 1 then [32] else [])
  | 0x21 => nblk 4096 ++ doff ++ (if outOf (c.arg 0 1) 1 2 1 then [32] else [])
  | _ => []

/-- The first offending capsule byte (R123, R130). -/
def badByte (r : OpRow) (c : Cmd) : Option Nat :=
  let byte (i : Nat) : Nat := (c.capsule.getD i 0).toNat
  let flagBad := if c.flagBits &&& (255 - r.flags) ≠ 0 then [1] else []
  let high := (if r.uses c 2 ∧ 64 ≤ byte 2 then [2] else []) ++
    (if r.uses c 8 then ([8, 9].filter fun i => byte i != 0) else [])
  let unused := (List.range 64).filter fun i => !r.uses c i && byte i != 0
  (flagBad ++ high ++ unused ++ fieldsOut c).min?

/-! ### Bindings (R452) -/

/-- The rights of a subscriber on a volume (bit 0 read, bit 1 write); none where it is not bound. -/
def State.rights (s : State) (sub vol : Nat) : Option Nat :=
  s.regs.cur.findSome? fun e =>
    match instanceOfKey CMD_VOLBIND_VALID 32768 e.1 with
    | some i =>
      if e.2 = 1 ∧ s.reg CMD_VOLBIND_SUB i = sub ∧ s.reg CMD_VOLBIND_VOLUME i = vol then
        some (s.reg CMD_VOLBIND_READ i + 2 * s.reg CMD_VOLBIND_WRITE i)
      else none
    | none => none

/-- Rights `need` are held. -/
def State.hasRight (s : State) (sub vol need : Nat) : Bool :=
  match s.rights sub vol with
  | some r => r &&& need == need
  | none => false

/-! ### The overlap tracker (R137, R138) -/

/-- Two ranges overlap. -/
def TrackEntry.meets (a b : TrackEntry) : Bool :=
  a.vol == b.vol && decide (a.slba < b.slba + b.nblk) && decide (b.slba < a.slba + a.nblk)

/-- A later entry waits for an earlier one that has not reached its clear point (R138). -/
def TrackEntry.waitsFor (later earlier : TrackEntry) : Bool :=
  decide (earlier.order < later.order) && !earlier.clear && later.meets earlier && (later.isWrite || earlier.isWrite)

/-- The entries of the tracker. -/
def State.entries (s : State) : List TrackEntry := s.cmd.frames.filterMap fun e => e.2.track

/-- An entry may begin its drive phase (R138). -/
def State.entryFree (s : State) (e : TrackEntry) : Bool := s.entries.all fun d => !e.waitsFor d

/-- A command may begin its drive phase: it holds no entry, or its entry waits for none. -/
def State.trackFree (s : State) (f : Nat) : Bool :=
  match (s.frame f).bind (·.track) with
  | some e => s.entryFree e
  | none => true

/-- Take a tracker entry for frame `f` in the order of arrival (R137); an entry that waits is counted
(DEDUCED, log entry 30). -/
def State.takeEntry (s : State) (f vol slba nblk : Nat) (isWrite : Bool) : State :=
  let e : TrackEntry := { vol := vol, slba := slba, nblk := nblk, isWrite := isWrite, order := s.cmd.order }
  let s := { s with cmd := { s.cmd with order := s.cmd.order + 1 } }
  let w := !s.entryFree e
  let s := s.updFrame f fun c => { c with track := some e }
  if w then s.bump CMD_WAITS 0 (s.cmdAttr (some f)) else s

/-- A DRIVE request of the command has not ended, submitted or not. -/
def Cmd.drivePending (c : Cmd) : Bool := c.tickets.any fun e => e.2.done.isNone && e.2.ready.isNone && (match e.2.req with
  | .drive .. => true
  | _ => false)

/-- Clear points that have been reached are kept (R138, R187): CLEAR asked or the completion requested, and no drive
operation left, nor a DRIVE request that still waits to submit one. -/
def State.reachClear (s : State) : State :=
  let g (c : Cmd) : Cmd :=
    match c.track with
    | some e => if (e.clearAsked ∨ c.comp.isSome) ∧ c.work.driveOps = 0 ∧ !c.drivePending then
        { c with track := some { e with clear := true } } else c
    | none => c
  { s with cmd := { s.cmd with frames := s.cmd.frames.mapVal fun _ c => g c } }

/-! ### Reservations (R148 to R153) -/

/-- Capacity of a set for a direction (R149). -/
def State.rsvCap (s : State) (k : Nat) (isRead : Bool) : Nat :=
  s.perEpoch (if isRead then s.reg CMD_RSV_RD_BW k else s.reg CMD_RSV_WR_BW k) 1000

/-- A reservation's life takes in cycle `c`. -/
def Reservation.covers (r : Reservation) (c : Nat) : Bool :=
  !r.ended && decide (r.start ≤ c) && (r.cycles == 0 || decide (c < r.start + r.cycles))

/-- Shares admitted for a set and direction in cycle `c`. -/
def State.admittedIn (s : State) (k : Nat) (isRead : Bool) (c : Nat) : Nat :=
  ((s.cmd.rsv.filter fun e => e.2.isRead == isRead && s.volSet e.2.vol == k && e.2.covers c).map
    fun e => s.share e.2).sum

/-- The most shares admitted in any cycle of a life (R149): sums change only where a reservation starts. -/
def State.tightest (s : State) (k : Nat) (isRead : Bool) (r : Reservation) : Nat :=
  ((r.start :: s.cmd.rsv.map (·.2.start)).filter r.covers).foldl (fun a c => max a (s.admittedIn k isRead c)) 0

/-- CMD_RSV_ACTIVE counts the reservations that have not ended. -/
def State.countRsv (s : State) : State :=
  s.setReg CMD_RSV_ACTIVE_COUNT 0 (s.cmd.rsv.filter fun e => !e.2.ended).length

/-- A reservation is active: it has started and has not ended. -/
def State.rsvActive (s : State) (r : Reservation) : Bool := r.covers s.rtu.cycle

/-- A reservation put back. -/
def State.setRsv (s : State) (i : Nat) (r : Reservation) : State :=
  { s with cmd := { s.cmd with rsv := SMap.put i r s.cmd.rsv } }

/-- Lines since cycle 0 (R151, R152). -/
def State.linePos (s : State) : Nat := s.rtu.cycle * 4096 + s.rtu.line

/-- The position in lines of a reference time (R5). -/
def lineOf (time : Nat) : Nat := time / 2 ^ 12

/-- The miss count of the reservation that a miss names rises (R125). -/
def State.countMiss (s : State) (id : Nat) : State :=
  match s.rsvOf id with
  | some (i, r) => s.setRsv i { r with misses := r.misses + 1 }
  | none => s

/-- A miss is kept in the log and counted (R126, R152). -/
def State.logMiss (s : State) (a : Attr) (m : Miss) : State :=
  let s := ((s.bump CMD_RSV_MISSED 0 a).raise CMD_EVENT_RSV_MISSED).countMiss m.rsvid
  let all := s.cmd.misses ++ [m]
  if (all.filter (·.sub == m.sub)).length ≤ 1024 then { s with cmd := { s.cmd with misses := all } }
  else
    match all.findIdx? (·.sub == m.sub) with
    | some i => { s with cmd := { s.cmd with
        misses := all.eraseIdx i, missLost := SMap.put m.sub (SMap.get 0 s.cmd.missLost m.sub + 1) s.cmd.missLost } }
    | none => s

/-- R151 for `n` user bytes: the status and DETAIL where the draw fails; the volume and direction are those of the
command where it has them. -/
def State.drawCheck (s : State) (c : Cmd) (id n : Nat) (vol : Option Nat) (isRead : Option Bool) : Option (Nat × Nat) :=
  match s.rsvOf id with
  | none => some (0x0004, 3)
  | some (_, r) =>
    if r.sub ≠ c.sub ∨ r.vol ≠ vol.getD r.vol ∨ r.isRead ≠ isRead.getD r.isRead then some (0x0004, 3)
    else if !s.rsvActive r then some (0x0004, 3)
    else if r.balance < n then some (0x0008, 1)
    else none

/-- A draw acts: the balance is reduced, the command takes its deadline from its dispatch position (R151). -/
def State.drawBytes (s : State) (f id n : Nat) : State :=
  match s.rsvOf id with
  | none => s
  | some (i, r) =>
    let s := s.setRsv i { r with balance := r.balance - n }
    s.updFrame f fun c => { c with work := { c.work with
      rsv := some id, drawn := c.work.drawn + n, deadline := lineOf c.dispatched + r.deadline } }

/-! ### Completions (R122, R141 to R143) -/

/-- The 32 bytes of a completion (R122). -/
def completionBytes (status detail opcode csn r0 r1 time : Nat) (resumed : Bool) : List Byte :=
  beBytes 2 status ++ beBytes 2 detail ++ [b8 opcode, b8 (Bool.nat resumed), 0, 0] ++ beBytes 4 csn ++
    beBytes 4 r0 ++ beBytes 8 r1 ++ beBytes 8 time

/-- A command taken up on the connection whose MSGID satisfies `p`, or an ABORT taken up that names such an MSGID, whose
completion has not been sent (R147) (DEDUCED, log entry 93). -/
def State.tagHeld (s : State) (conn : Nat) (p : Nat → Bool) : Bool :=
  (s.cmd.frames.any fun e => e.2.conn == conn && !((e.2.comp.map (·.sent)).getD false) &&
    (p e.2.msgid || e.2.opcode == opABORT && p e.2.target)) ||
  s.nlt.txq.any fun o => o.typ == .cmpl && o.pkt.conn == conn && o.owner.isNone &&
    (p o.pkt.msgid || (o.names.map p).getD false)

/-- The tag of a CMD is in use with the same incarnation (R130, R147). -/
def State.tagInUse (s : State) (d : Delivered) : Bool := s.tagHeld d.conn (· == d.msgid)

/-- The attributes of what a capsule causes before it has a frame (R413). -/
def Delivered.attr (s : State) (d : Delivered) : Attr :=
  Cmd.attr s { conn := d.conn, capsule := d.capsule, sub := ((s.connById d.conn).map (·.sub)).getD 0 }

/-- A CMD whose tag is in use is discarded with its cell and gets no completion (R130). -/
def State.discardCmd (s : State) (d : Delivered) : State :=
  ((s.dropCell d.acc).bump CMD_TAG_CONFLICT 0 (d.attr s)).raise CMD_EVENT_TAG_CONFLICT

/-- A completion with BUSY_RETRY is counted (R154). -/
def State.countBusy (s : State) (a : Attr) (status : Nat) : State :=
  if status = 0x0012 then (s.bump CMD_BUSY 0 a).raise CMD_EVENT_BUSY else s

/-- A completion that needs no frame: rows of R130 before one is taken. -/
def State.rejectCmd (s : State) (d : Delivered) (ci status detail : Nat) : State :=
  let c := s.conn ci
  (s.countBusy (d.attr s) status).sendPkt {
              typ := .cmpl, ci := some ci, port := c.lport, colour := d.colour, cell := d.acc,
              names := if capField d.capsule 0 1 = opABORT then some (abortTarget d.capsule) else none,
              pkt := { conn := c.id, flags := flagAckReq, msgid := d.msgid, plen := 32,
                       payload := completionBytes status detail (capField d.capsule 0 1) d.csn 0 0 s.refTime false } }

/-- A request for a drive write or for intent records has not completed. -/
def Cmd.writesPending (c : Cmd) : Bool := c.tickets.any fun e => e.2.done.isNone && e.2.ready.isNone && (match e.2.req with
  | .ledger .. => true
  | .drive op .. => op == 1 || op == 3
  | _ => false)

/-- A command that has submitted a drive write or written an intent record, or has a request under way that will, is
released in the sealed class, whatever class its completion request asked for (R168). -/
def Cmd.mustSeal (c : Cmd) : Bool := c.work.wroteDrive || c.work.records != [] || c.writesPending

/-- The command asks for its completion; the first request stands (R168). -/
def State.complete (s : State) (f status detail r0 r1 : Nat) (isSealed : Bool) : State :=
  let first := ((s.frame f).map fun c => c.comp.isNone).getD false
  (if first then s.countBusy (s.cmdAttr (some f)) status else s).updFrame f fun c =>
    match c.comp with
    | some _ => c
    | none => { c with comp := some { status := status, detail := detail, result0 := r0, result1 := r1,
                                      isSealed := isSealed || c.mustSeal } }

/-- A completion that has not been released takes the sealed class where R168 asks for it. -/
def Cmd.sealClass (c : Cmd) : Cmd :=
  { c with comp := c.comp.map fun k => if k.released then k else { k with isSealed := k.isSealed || c.mustSeal } }

/-- Every completion request follows that rule. -/
def State.sealClasses (s : State) : State :=
  { s with cmd := { s.cmd with frames := s.cmd.frames.mapVal fun _ c => c.sealClass } }

/-- Every record of the command is sealed and confirmed; a retired one was (R142, R259). -/
def State.recordsConfirmed (s : State) (c : Cmd) : Bool :=
  c.work.records.all fun r => s.ldg.recs.all fun e => e.2.rseq != r || (e.2.confirmed && e.2.sealed.isSome)

/-- The change a command made to copied state in epoch `e` has been confirmed (R142). -/
def State.stateConfirmed (s : State) (c : Cmd) : Bool :=
  match c.work.stateEpoch with
  | none => true
  | some e => !s.hng.paired || (decide (e + 2 ≤ s.epoch) && s.hng.copies.all fun k => decide (e + 1 < k.epoch))

/-- The range a command orders its completion by: its tracker entry's, or while a FENCE holds it its capsule's (R139). -/
def Cmd.span (c : Cmd) : Option TrackEntry :=
  match c.track with
  | some e => some e
  | none =>
    if c.phase = .fenced ∧ c.hasRange ∧ !isUserOp c.opcode then
      some { vol := c.volume, slba := c.slba, nblk := c.nblk, isWrite := c.opcode != opREAD }
    else none

/-- An earlier overlapping command of the connection is not yet released (R139). -/
def State.heldBehind (s : State) (f : Nat) (c : Cmd) : Bool :=
  match c.track with
  | none => false
  | some e => s.cmd.frames.any fun g => g.1 != f && g.2.conn == c.conn && serialBefore g.2.csn c.csn &&
      (match g.2.span with
        | some d => d.meets e
        | none => false) &&
      (match g.2.comp with
        | some k => !k.released
        | none => true)

/-- DATA of the command waits to leave (R141). -/
def Cmd.sendingData (c : Cmd) : Bool :=
  c.tickets.any fun e => e.2.done.isNone && e.2.ready.isNone && (match e.2.req with
    | .data .. => true
    | _ => false)

/-- An immediate completion may be released (R141). -/
def State.mayReleaseNow (s : State) (f : Nat) (c : Cmd) (k : Completion) : Bool :=
  !k.released && !k.isSealed && c.waitRevoke.isNone && !c.sendingData && !s.heldBehind f c

/-- The status released: a read whose DATA was NAKed ends with the NAK's status (R84), and a drawn command past its
deadline ends RESERVATION_MISSED instead of SUCCESS (R152). -/
def State.releasedStatus (s : State) (c : Cmd) (k : Completion) : Nat × Nat :=
  let refused := if k.status = 0 ∧ c.work.dataBytes ≠ 0 then c.work.nak else none
  let late := c.work.rsv.isSome && k.status == 0 &&
    (if k.isSealed then decide (c.work.deadline < s.linePos) else c.work.lateDrawn)
  match refused with
  | some st => (st, c.work.nakDetail)
  | none => if late then (0x0008, 2) else (k.status, k.detail)

/-- A write's range is clear of damage once it is released with SUCCESS (R280). -/
def State.clearWritten (s : State) (c : Cmd) (status : Nat) : State :=
  match c.track with
  | some e => if e.isWrite ∧ status = 0 ∧ c.work.wroteDrive then s.clearRange e.vol e.slba e.nblk else s
  | none => s

/-- Release a completion: its RELTIME and final status (R141, R142, R152). -/
def State.releaseCmd (s : State) (f : Nat) (c : Cmd) (k : Completion) : State :=
  let (st, dt) := s.releasedStatus c k
  let s := if st = 0x0008 ∧ dt = 2 then
      s.logMiss (c.attr s) { rsvid := c.work.rsv.getD 0, msgid := c.msgid, detail := 2, dispatched := c.dispatched,
                              reltime := s.refTime, sub := c.sub }
    else s
  let s := s.clearWritten c st
  s.updFrame f fun c => { c with comp := some { k with
    status := st, detail := dt, released := true,
    result1 := if st = 0x0005 ∧ k.status = 0 then (s.region (c.dkey % 2 ^ 18)).len else k.result1, releasedEpoch := s.epoch, reltime := s.refTime } }

/-- A released completion goes to the transmit queue; FINAL where it is SUCCESS after DATA (R89, R168). -/
def State.queueCompletion (s : State) (f : Nat) (c : Cmd) (k : Completion) : State :=
  match s.findConn c.conn with
  | none => s
  | some (ci, cn) =>
    let final := k.status == 0 && c.work.dataBytes != 0
    let s := s.sendPkt {
      typ := .cmpl, ci := some ci, port := cn.lport, colour := c.colour, owner := some f,
      pkt := { conn := cn.id, flags := flagAckReq + (if final then flagFinal else 0), msgid := c.msgid,
               offset := (if final then c.work.dataBytes else 0), plen := 32,
               payload := completionBytes k.status k.detail c.opcode c.csn k.result0 k.result1 k.reltime false } }
    s.updFrame f fun c => { c with comp := some { k with queued := true } }

/-! ### The end of a frame -/

/-- Engines forget a command whose frame goes: what it has issued runs to its end and its results are discarded (R157, R167,
R185). -/
def State.orphan (s : State) (f : Nat) : State :=
  let loose (o : MemberOp) : MemberOp := if o.owner = some f then { o with owner := none, job := none } else o
  let ctx (c : NvmeCtx) : NvmeCtx := { c with op := loose c.op }
  let dr (w : Drawer) : Drawer := { w with
    ctxs := w.ctxs.mapVal fun _ c => ctx c, pend := w.pend.map loose,
    again := w.again.map loose, nnr := w.nnr.map loose }
  let mine := s.drv.jobs.filter fun e => e.2.owner == f
  let stag := mine.filterMap (·.2.staging)
  let s := { s with drv := { s.drv with
    drawers := s.drv.drawers.mapVal fun _ w => dr w, jobs := s.drv.jobs.filter (fun e => e.2.owner != f),
    reqs := s.drv.reqs.filter fun e => e.1 / 64 != f } }
  let item (i : CphItem) : CphItem := match i with
    | .xts o t e sl u c g off z => if o = f then .xts (2 ^ 40) t e sl u c g off z else i
    | i => i
  let ask (k : Nat) (g : Group) : Group := if stag.contains k then { g with releaseAsked := true } else g
  let wait (w : CabWait) : CabWait := if w.owner = f then { w with owner := 2 ^ 40 } else w
  { s with cph := s.cph.mapItems item,
           cab := { s.cab with groups := s.cab.groups.mapVal ask, waits := s.cab.waits.map wait } }

/-- Groups a command still holds are released (R187). -/
def State.releaseGroups (s : State) (f : Nat) : State :=
  let ask (g : Group) : Group := if g.owner = some f then { g with releaseAsked := true, owner := none } else g
  { s with cab := { s.cab with groups := s.cab.groups.mapVal fun _ g => ask g } }

/-- A thread is free again. -/
def State.freeThread (s : State) (t : Nat) : State := { s with bnc := { s.bnc with threads := SMap.del t s.bnc.threads } }

/-- The completion has been sent, or never will be (R106): what the command holds is given back, and its frame with it
unless a thread still runs its handler (R157) (DEDUCED, log entry 39). -/
def State.endCommand (s : State) (f : Nat) : State :=
  match s.frame f with
  | none => s
  | some c =>
    let s := match s.findConn c.conn with
      | some (ci, _) => s.updConn ci fun k => { k with inflight := k.inflight - 1 }
      | none => match SMap.find s.ctx.conns (c.conn % 2 ^ 18) with
        | some k => if k.id = c.conn then s.updConn (c.conn % 2 ^ 18) fun k => { k with inflight := k.inflight - 1 } else s
        | none => s
    let s := (((s.frameWritesDone f).releaseGroups f).closeGrants fun g => g.owner == f).dropHolders (·.frame == some f)
    let s := ((s.orphan f).abandonOwner (.bench f)).dropCell c.acc
    match c.phase with
    | .running _ => s.updFrame f fun c => { c with
        track := none, acc := none, comp := c.comp.map fun k => { k with sent := true, released := true } }
    | _ => { s with cmd := { s.cmd with frames := SMap.del f s.cmd.frames } }

/-- A handler has ended: its thread is free; a frame whose completion is sent goes too (R183)
(DEDUCED, log entry 39). -/
def State.endHandler (s : State) (t f : Nat) : State :=
  let s := s.freeThread t
  match s.frame f with
  | none => s
  | some c =>
    if (c.comp.map (·.sent)).getD false then { s with cmd := { s.cmd with frames := SMap.del f s.cmd.frames } }
    else s.updFrame f fun c => { c with phase := .ended }

/-! ### Release point and withdrawal (R145, R146, R169) -/

/-- The command marks its release point itself: a user entry with MARKS (R169). -/
def State.marks (s : State) (c : Cmd) : Bool :=
  match SMap.find s.bnc.images c.slot with
  | some im => ((im.entries.getD c.entry (0, false)).2)
  | none => false

/-- The command is past its release point (R145, R169). -/
def State.pastRelease (s : State) (c : Cmd) : Bool :=
  if c.opcode = opREAD ∨ c.opcode = opIDENTIFY ∨ c.opcode = opLOG_READ then c.work.dataBytes != 0
  else if c.opcode = opWRITE ∨ c.opcode = opWRITE_ZEROES ∨ c.opcode = opDEALLOCATE ∨ c.opcode = opCOMPARE_WRITE then
    c.work.records != []
  else if c.opcode = opFLUSH then c.work.driveSubmitted
  else if isUserOp c.opcode then
    (!s.marks c && c.phase != .fenced) || c.marked ||
      c.work.wroteDrive || c.work.records != [] || c.work.dataBytes != 0
  else c.phase != .fenced

/-- The command's draw returns to its reservation (R146). -/
def State.refundDraw (s : State) (c : Cmd) : State :=
  match c.work.rsv.bind s.rsvOf with
  | some (i, r) => s.setRsv i { r with balance := r.balance + c.work.drawn }
  | none => s

/-- A command stops before its end: its thread is freed, it never resumes, packets it has not sent are dropped. -/
def State.stopCommand (s : State) (f : Nat) : State :=
  match s.frame f with
  | none => s
  | some c =>
    let s := match c.phase with
      | .running t => s.freeThread t
      | _ => s
    let s := { s with nlt := { s.nlt with txq := s.nlt.txq.filter fun o => o.retx || o.owner != some f || o.typ == PktType.cmpl } }
    let s := s.closeGrants fun g => g.owner == f
    { s with cab := { s.cab with waits := s.cab.waits.filter fun w => w.owner != f } }

/-- An engine works on the cells of a request by itself. -/
def Req.byEngine : Req → Bool
  | .cipher .. | .parity .. | .drive .. => true
  | _ => false

/-- A command that is withdrawn keeps of its requests those that an engine has begun; its groups are released (R146). -/
def State.dropWaiting (s : State) (f : Nat) : State :=
  (s.updFrame f fun c => { c with
    tickets := c.tickets.filter fun e => e.2.done.isSome || (e.2.started && e.2.req.byEngine) }).releaseGroups f

/-- ABORT withdraws a command before its release point (R146). -/
def State.withdraw (s : State) (f : Nat) : State :=
  match s.frame f with
  | none => s
  | some c =>
    let s := ((s.stopCommand f).refundDraw c).dropWaiting f
    let s := s.updFrame f fun c => { c with phase := .withdrawn, track := none, waitRevoke := none, comp := none,
                                            work := { c.work with rsv := none } }
    (s.complete f 0x0001 0 0 0 false).bump CMD_ABORTED 0 (c.attr s)

/-! ### Faults (R165 to R167) -/

/-- The event record of a fault of a command (R123, R167, R405): its code, PC and exception code. -/
def State.faultRecord (s : State) (c : Cmd) (user : Bool) (code pc exc : Nat) : State :=
  s.record 0x20 (if user then 2 else 3) bBNC
    (leBytes 2 code ++ [b8 c.opcode, b8 c.slot] ++ leBytes 4 pc ++ leBytes 4 c.msgid ++ leBytes 4 c.conn ++ [b8 exc])

/-- A command's handler faults: the thread is freed, what it has issued runs to its end, the command ends with INTERNAL_FAULT
(R167). -/
def State.faultCommand (s : State) (f code pc exc : Nat) : State :=
  match s.frame f with
  | none => s
  | some c =>
    let user := decide (32 ≤ c.slot) && decide (c.slot < 64)
    let s := (s.setReg BNC_FAULT_SLOT 0 c.slot).setReg BNC_FAULT_OPCODE 0 c.opcode
    let s := ((s.setReg BNC_FAULT_CODE 0 code).setReg BNC_FAULT_PC 0 pc).setReg BNC_FAULT_CONN 0 c.conn
    let s := s.setReg BNC_FAULT_MSGID 0 c.msgid
    let s := if user then (s.bump BNC_USER_FAULTS 0 (c.attr s)).raise BNC_EVENT_USER_FAULT
      else (s.bump BNC_SYS_FAULTS 0 (c.attr s)).raise BNC_EVENT_SYS_FAULT
    let s := s.faultRecord c user code pc exc
    let s := match c.phase with
      | .running t => s.freeThread t
      | _ => s
    if (c.comp.map (·.sent)).getD false then { s with cmd := { s.cmd with frames := SMap.del f s.cmd.frames } }
    else (s.updFrame f fun c => { c with phase := .ended }).complete f 0x0020 code 0 0 false

/-- A command ends with the status of a NAK or of a closed grant before or after its release point (R136)
(DEDUCED, log entry 50). -/
def State.failData (s : State) (f status detail r1 : Nat) : State :=
  match s.frame f with
  | none => s
  | some c =>
    if c.comp.isSome then s
    else
      let s := if status = 0x0020 then s.faultRecord c false detail 0 0 else s
      if s.pastRelease c ∨ isUserOp c.opcode then
      s.updFrame f fun c => { c with work := { c.work with nak := some status, nakDetail := detail, nakResult := r1 } }
    else
      let s := (s.stopCommand f).dropWaiting f
      (s.updFrame f fun c => { c with phase := .ended }).complete f status detail 0 r1 false

/-- The write that a NAKed DATA packet of `conn` and `msgid` belongs to ends with the status of the NAK; its grants close
(R84, R136). -/
def State.failWrite (s : State) (conn msgid status detail : Nat) : State :=
  match s.cmd.frames.find? fun e => e.2.conn == conn && e.2.msgid == msgid &&
      (e.2.opcode == opWRITE || e.2.opcode == opCOMPARE_WRITE || isUserOp e.2.opcode) with
  | some (f, c) =>
    let whole := if c.opcode = opWRITE then c.nblk * 4096 else c.nblk * 8192
    (s.closeGrants fun g => g.owner == f).failData f status detail (if status = 0x0005 then whole else 0)
  | none => s

/-! ### Counts -/

/-- CMD and BNC status registers follow the frames and threads (R154, R173). -/
def State.countCmds (s : State) : State :=
  let fs := s.cmd.frames
  let s := (s.setReg CMD_INFLIGHT_COUNT 0 fs.length).setReg CMD_TRACKED_COUNT 0 s.entries.length
  let s := s.setReg CMD_WAITING_COUNT 0 (s.entries.filter fun e => !s.entryFree e).length
  let s := s.setReg BNC_THREADS_COUNT 0 (s.bnc.threads.filter fun e => e.2.frame.isSome).length
  let s := s.setReg BNC_PARKED_COUNT 0 (fs.filter fun e => match e.2.phase with
    | .parked _ => true
    | _ => false).length
  let s := s.setReg BNC_DISPATCH_Q_COUNT 0 (fs.filter fun e => e.2.phase == .queued).length
  (List.range 64).foldl (fun s k => s.setReg BNC_SLOT_REFS_COUNT k (fs.filter fun e => e.2.slot == k && e.2.phase != .fenced).length) s

end Sys2Proof.Machine
end

