-- ==== Sys2Proof/Machine/Requests.lean ====
section
/-! DEFINITION. Accelerator requests: tickets taken, engines started, results, the cells they pin and the waits they are
served from (R158, R184 to R189, R195, R203, R204, R207, R210). -/

namespace Sys2Proof.Machine

open Sys2Proof.Reg

/-! ### Tickets (R184, R186) -/

/-- The ticket number a request takes: the lowest not in use, else the lowest that holds an unread result; none while all
64 are outstanding (R158, R184). -/
def State.ticketNumber (s : State) (o : Nat) : Option Nat :=
  let m := s.tickets o
  match (List.range 64).find? fun t => (SMap.find m t).isNone with
  | some t => some t
  | none => (List.range 64).find? fun t => match SMap.find m t with
    | some k => k.done.isSome
    | none => false

/-- A ticket is done: its result is kept, or discarded where it is detached; a thread that waits for it goes on with the
result in its register (R183, R184). -/
def State.finishTicket (s : State) (o t : Nat) (w : DWord) : State :=
  match s.ticket o t with
  | none => s
  | some k =>
    let bad := w.toNat / 2 ^ 48 != 0
    let isMover : Bool := match k.req with
      | .cipher .. | .parity .. => true
      | _ => false
    let s := if bad ∧ isMover then s.updFrame o fun c => { c with work := { c.work with cipherFail := true } } else s
    let holder := s.bnc.threads.find? fun e => (match e.2.waiting with
      | some (n, _) => n == t && (if o < 65536 then e.2.frame == some o else 65536 + e.1 - 512 == o && decide (512 ≤ e.1))
      | none => false)
    match holder with
    | some (th, x) =>
      let rd := (x.waiting.getD (0, 0)).2
      let s := s.updThread th fun x => { x with waiting := none, g := if rd = 0 then x.g else SMap.put rd w x.g }
      s.setTickets o (SMap.del t (s.tickets o))
    | none =>
      if k.detached then s.setTickets o (SMap.del t (s.tickets o))
      else s.updTicket o t fun k => { k with done := some w, ready := none }

/-! ### Pins (R207) -/

/-- The rows a request's range touches. -/
def State.rangeRows (s : State) (v a n : Nat) : List (RowAt × List Span) := spanRows (s.spans v a n)

/-- Bytes of the P and Q of a write (R188). -/
def State.parityBytes (s : State) (v a n : Nat) : Nat :=
  ((s.rangeRows v a n).map fun rx => 2 * (coverRun rx.2).2 * 4096).sum

/-- The cells a request names: group, first byte, bytes (R188, R207, R210). -/
def State.reqRanges (s : State) : Req → List (Nat × Nat × Nat)
  | .xrdy g off _ len _ => [(g, off, len)]
  | .data g off _ len _ _ => [(g, off, len)]
  | .cipher _ _ g off n _ _ _ => [(g, off, n * 4096)]
  | .parity mode n _ _ sg so dg d len cnt =>
    (match mode with
      | 0 => [(sg, so, cnt * n * len), (dg, d, cnt * 2 * len)]
      | 1 => [(sg, so, 4 * len), (dg, d, 2 * len)]
      | 2 => [(sg, so, (n + 2) * len), (dg, d, 2 * len)]
      | _ => [(sg, so, len), (dg, d, len)])
  | .drive op _ raw v g off a n pg po =>
    if op = 0 ∨ (op = 1 ∧ raw = 1) then [(g, off, n * 4096)]
    else if op = 1 then [(g, off, n * 4096), (pg, po, s.parityBytes v a n)] else []
  | .filled g off len => [(g, off, len)]
  | _ => []

/-- The cells a member operation names. -/
def MemberOp.range (o : MemberOp) : List (Nat × Nat × Nat) :=
  if o.kind = .read ∨ o.kind = .write then [(o.group, o.goff, o.units * 4096)] else []

/-- Tickets of every owner with their owners. -/
def State.allTickets (s : State) : List (Nat × Nat × Ticket) :=
  (s.cmd.frames.flatMap fun e => e.2.tickets.map fun k => (e.1, k.1, k.2)) ++
    (s.bnc.threads.filter fun e => decide (512 ≤ e.1)).flatMap fun e => e.2.tickets.map fun k => (bureauOwner e.1, k.1, k.2)

/-- The cells a packet's payload is taken from. -/
def OutPkt.cells (o : OutPkt) : List (Nat × Nat × Nat) :=
  match o.group with
  | some g => [(g, o.goff, o.pkt.plen)]
  | none => []

/-- Cells that movers use: requests not yet done, drive operations, open grants, packets that await acknowledgement, and
cipher items (R207). -/
def State.moverPins (s : State) : List (Nat × Nat × Nat) :=
  (s.allTickets.flatMap fun k => if k.2.2.done.isSome then [] else match k.2.2.req with
    | .data g off _ len _ _ => if k.2.2.started then [] else [(g, off, len)]
    | r => s.reqRanges r) ++
    (s.drv.drawers.flatMap fun e =>
      (e.2.ctxs.flatMap fun c => c.2.op.range) ++ (e.2.pend ++ e.2.again ++ e.2.nnr).flatMap MemberOp.range) ++
    (s.drv.jobs.flatMap fun e => (e.2.group, e.2.goff, e.2.count * 4096) ::
      (match e.2.staging with
        | some g => [(g, 0, 2 ^ 24)]
        | none => [])) ++
    (s.ctx.grants.flatMap fun e => if e.2.isOpen then [(e.2.group, e.2.goff, e.2.len)] else []) ++
    (s.par.holders.flatMap Holder.outRanges) ++
    (s.ctx.conns.flatMap fun e => e.2.tx.retained.flatMap fun r => r.out.cells) ++
    s.cph.items.flatMap fun i => match i with
      | .xts _ _ _ _ _ _ g off _ => [(g, off, 256)]
      | .gcmTx f _ _ => f.out.cells
      | _ => []

/-- Everything that keeps cells from being freed (R207): what movers use, and queued DATA. -/
def State.pins (s : State) : List (Nat × Nat × Nat) :=
  s.moverPins ++ (s.nlt.txq.flatMap OutPkt.cells) ++
    s.allTickets.flatMap fun k => if k.2.2.done.isSome ∨ k.2.2.ready.isSome then [] else match k.2.2.req with
      | .data g off _ len _ _ => [(g, off, len)]
      | _ => []

/-- Some pin covers cell `c` of group `k`. -/
def pinned (ps : List (Nat × Nat × Nat)) (k c : Nat) : Bool :=
  ps.any fun p => p.1 == k && decide (p.2.1 < 256 * (c + 1)) && decide (256 * c < p.2.1 + p.2.2)

/-- Cells of a group whose release was asked for are freed once nothing pins them (R187, R207). -/
def State.sweepGroup (s : State) (k : Nat) (g : Group) : State :=
  let ps := s.pins.filter fun p => p.1 == k
  if ps = [] then s.freeGroup k
  else
    let free := (List.range g.cells).filter fun c => !inRuns g.freed c && !pinned ps k c
    free.foldl (fun s c => s.freeRun k c 1) s

/-- Every such group. -/
def State.sweepGroups (s : State) : State :=
  (s.cab.groups.filter fun e => e.2.releaseAsked).foldl (fun s e => s.sweepGroup e.1 e.2) s

/-- All cells of some ranges are on die (R210). -/
def State.onDie (s : State) (rs : List (Nat × Nat × Nat)) : Bool :=
  rs.all fun r => match SMap.find s.cab.groups r.1 with
    | none => true
    | some g => g.spilled.all fun e =>
        decide (256 * (e.run.first + e.run.count) ≤ r.2.1) || decide (r.2.1 + r.2.2 ≤ 256 * e.run.first)

/-- A mover names cells: they count as used now (R208). -/
def State.touchRanges (s : State) (rs : List (Nat × Nat × Nat)) : State :=
  rs.foldl (fun s r => match SMap.find s.cab.groups r.1 with
    | some g =>
      let (c0, n) := cellSpan r.2.1 r.2.2
      s.setGroup r.1 (g.touch c0 n s.ns)
    | none => s) s

/-! ### CELLS and XRDY (R195, R203, R204) -/

/-- The account of an owner's cells (R199): its connection's home port and class, the system account for the Bureau. -/
def State.ownerAccount (s : State) (o : Nat) : Option Nat :=
  match s.frame o with
  | some c => match s.findConn c.conn with
    | some (_, k) => some (accountOf k.lport k.pcp)
    | none => none
  | none => none

/-- Bytes that an XRDY of `len` may grant now: its whole length below the credit threshold, else what the connection's
window leaves, in blocks of 4 KiB (R203). -/
def State.grantable (s : State) (conn len : Nat) : Nat :=
  if s.fill < s.creditThreshold then len
  else min len ((s.windowCells * 256 - s.openBytes conn) / 4096 * 4096)

/-- The whole data of a command, which bounds its grants (R127, R133): unknown for a user opcode. -/
def Cmd.dataLength (c : Cmd) : Nat :=
  if isUserOp c.opcode then 2 ^ 63 else if c.opcode = opCOMPARE_WRITE then 2 * c.nblk * 4096 else c.nblk * 4096

/-- Blocks of a group that a new grant covers count as not received. -/
def State.emptyBlocks (s : State) (k off len : Nat) : State :=
  match SMap.find s.cab.groups k with
  | some g =>
    let bs := blocksOf off len
    s.setGroup k { g with filled := bs.foldl (fun m b => SMap.del b m) g.filled, got := g.got.filter fun b => !bs.contains b }
  | none => s

/-- A grant opens and its XRDY is queued (R133, R203). -/
def State.openGrant (s : State) (o t ci gi group goff coff len want : Nat) : State :=
  let c := s.conn ci
  let reuse := match SMap.find s.ctx.grants gi with
    | some g => (g.reuse + 1) % 2 ^ 14
    | none => 0
  let cmd := (s.frame o).getD {}
  let g : Grant := {
    reuse := reuse, isOpen := true, owner := o, conn := c.id, msgid := cmd.msgid, coff := coff, len := len,
    total := cmd.dataLength, group := group, goff := goff, lastCycle := s.rtu.cycle, order := s.cmd.order }
  let s := (s.setGrant gi g).emptyBlocks group goff len
  let s := if len < want then s.bump CAB_WINDOW_CAPS 0 (cmd.attr s) else s
  let s := s.sendPkt {
    typ := .xrdy, ci := some ci, port := c.lport, colour := cmd.colour, owner := some o, ticket := some t,
    pkt := { conn := c.id, flags := flagAckReq, msgid := cmd.msgid, key := grantKeyOf gi g, offset := coff, plen := 8,
             payload := beBytes 8 len } }
  s.updTicket o t fun k => { k with started := true, req := .xrdy group goff coff len (some gi) }

/-- What a waiting request comes to: served, blocked on its own limit, or blocked with all behind it. -/
inductive Served
  | done (s : State)
  | own
  | all

/-- Try to serve a waiting request (R187, R201, R203, R204); one whose command is gone takes its cells and gives them back
at once (R185, R187). -/
def State.tryServe (s : State) (w : CabWait) : Served :=
  match s.ticket w.owner w.ticket with
  | none =>
    if w.xrdy then .done s
    else if s.spillThreshold ≤ s.fill then .all
    else if !s.withinLimits w.acc w.cells then .own
    else
      match s.freeGroupIndex with
      | none => .all
      | some g => .done ((s.takeGroup g w.acc none w.cells).1.freeGroup g)
  | some k =>
    if s.spillThreshold ≤ s.fill then .all
    else
      match k.req with
      | .cells n =>
        if !s.withinLimits w.acc n then .own
        else
          match s.freeGroupIndex with
          | none => .all
          | some g =>
            let (s, h) := s.takeGroup g w.acc (if w.owner < 65536 then some w.owner else none) n
            .done ((s.started w.owner w.ticket).answer w.owner w.ticket 0 0 h)
      | .xrdy group goff coff len _ =>
        match (s.findConn w.conn).filter fun x => x.2.known with
        | none => .done (s.answer w.owner w.ticket 0 0 0)
        | some (ci, _) =>
          let n := s.grantable w.conn len
          if n = 0 ∨ s.top.pfw then .own
          else
            match s.freeGrant with
            | none => .all
            | some gi => .done (s.openGrant w.owner w.ticket ci gi group goff coff n len)
      | _ => .done s

/-- A later request waits behind one that waits on its own limit: a request of the same account, or behind an XRDY that
waits on its connection's window an XRDY of the same connection (R204). -/
def behindOwn (blocked : List CabWait) (w : CabWait) : Bool :=
  blocked.any fun b => if b.xrdy then w.xrdy && w.conn == b.conn else w.acc == b.acc

/-- Serve the waiting requests in the order they were made (R204): those left. -/
def serveList (s : State) (blocked : List CabWait) : List CabWait → State × List CabWait
  | [] => (s, [])
  | w :: ws =>
    if behindOwn blocked w then
      let (s, l) := serveList s blocked ws
      (s, w :: l)
    else
      match s.tryServe w with
      | .done s => serveList s blocked ws
      | .own =>
        let (s, l) := serveList s (w :: blocked) ws
        (s, w :: l)
      | .all => (s, w :: ws)

/-- Requests that wait while F is at or above the spill threshold are counted in CAB_STALLS, each once (R202). -/
def State.countStalls (s : State) : State :=
  if s.fill < s.spillThreshold then s
  else
    let fresh : List CabWait := s.cab.waits.filter fun w => !w.stalled
    let s := fresh.foldl (fun s w => s.bump CAB_STALLS 0 (accountAttr w.acc)) s
    { s with cab := { s.cab with waits := s.cab.waits.map fun w => { w with stalled := true } } }

/-- Serve what can be served. -/
def State.serveWaits (s : State) : State :=
  if s.cab.waits = [] then s
  else
    let (s, l) := serveList s [] s.cab.waits
    { s with cab := { s.cab with waits := l } }.countStalls

/-- The thread that an owner's requests come from, numbered through the Benches in order. -/
def State.threadOf (s : State) (o : Nat) : Nat :=
  match s.frame o with
  | some c => (match c.phase with
    | .running t => t
    | _ => 0)
  | none => if o < 65536 then 0 else o - 65536 + 512

/-- A request joins the wait list behind those made before it, requests made in one ns being ordered by Bench and then by
thread (R204). -/
def insertWait (w : CabWait) : List CabWait → List CabWait
  | [] => [w]
  | x :: xs => if x.madeAt = w.madeAt ∧ w.thread < x.thread then w :: x :: xs else x :: insertWait w xs

/-- A CELLS or XRDY request joins the wait list. -/
def State.waitCab (s : State) (o t conn cells : Nat) (xrdy : Bool) : State :=
  let w : CabWait := { owner := o, ticket := t, xrdy := xrdy, conn := conn, acc := s.ownerAccount o, cells := cells,
                       madeAt := s.ns, thread := s.threadOf o }
  { s with cab := { s.cab with waits := insertWait w s.cab.waits } }.serveWaits

/-! ### EMIT DATA (R74, R75, R115, R189) -/

/-- Some 4 KiB block of a range was last written by a drive read (R189). -/
def State.undecrypted (s : State) (k off len : Nat) : Bool :=
  match SMap.find s.cab.groups k with
  | some g => (blocksOf off len).any fun b => SMap.get .none g.filled b == .driveRead
  | none => false

/-- The DATA packets of a range, each of the connection's DATA size but for a last one of what is left. The last one of each
EMIT counts as the last of its message (R82) (DESIGN CHOICE, log entry 100). -/
def dataPackets (base : OutPkt) (size off goff : Nat) : Nat → Nat → List OutPkt
  | 0, _ => []
  | _ + 1, 0 => []
  | n + 1, len =>
    let p := min size len
    let k : Packet := { base.pkt with offset := off, plen := p }
    { base with pkt := k, goff := goff, last := p == len } :: dataPackets base size (off + p) (goff + p) n (len - p)

/-- An EMIT of kind DATA starts. -/
def State.startData (s : State) (o t group goff coff len : Nat) : State :=
  if s.undecrypted group goff len then s.answer o t 0x0020 0x0C01 0
  else if len = 0 then s.answer o t 0 0 0
  else
    match (s.frame o).bind fun c => ((s.findConn c.conn).filter fun x => x.2.known).map fun x => (c, x.1, x.2) with
    | none => s.answer o t 0 0 0
    | some (c, ci, k) =>
      let base : OutPkt := {
        typ := .data, ci := some ci, port := k.lport, colour := c.colour, owner := some o, ticket := some t,
        group := some group, region := some (c.dkey % 2 ^ 18),
        pkt := { conn := k.id, msgid := c.msgid, key := c.dkey } }
      let ps := dataPackets base k.dataSize (c.doff + coff) goff (len / 4096 + 1) len
      { s with nlt := { s.nlt with txq := s.nlt.txq ++ ps } }.started o t

/-- DATA of a command that failed at the egress check or by a NAK: what is not sent is dropped, its EMITs wait for what
was sent (R84, R115). -/
def State.stopData (s : State) (f status : Nat) : State :=
  let s := { s with nlt := { s.nlt with txq := s.nlt.txq.filter fun o => o.retx || o.typ != PktType.data || o.owner != some f } }
  let mark (k : Ticket) : Ticket := match k.req with
    | .data g go co len sent fail => if k.done.isNone ∧ k.ready.isNone then
        { k with req := .data g go co len sent (some (fail.getD status)) } else k
    | _ => k
  s.updFrame f fun c => { c with tickets := c.tickets.mapVal fun _ k => mark k }

/-- DATA packets of a command that await acknowledgement. -/
def State.unackedData (s : State) (f : Nat) : Bool :=
  match s.frame f with
  | some c => s.ctx.conns.any fun e => e.2.id == c.conn && e.2.tx.retained.any fun r =>
      r.out.typ == PktType.data && r.out.owner == some f && r.out.pkt.msgid == c.msgid
  | none => false

/-- VALUE of a failed EMIT DATA: on RANGE the bytes inside the region (R187). -/
def State.dataValue (s : State) (f status : Nat) (coff sent : Nat) : Nat :=
  if status = 0x0005 then
    match s.frame f with
    | some c => (s.region (c.dkey % 2 ^ 18)).len - (c.doff + coff)
    | none => sent
  else sent

/-- EMIT DATA requests that failed are done once nothing sent is left to acknowledge. -/
def State.endFailedData (s : State) : State :=
  s.cmd.frames.foldl (fun s e => e.2.tickets.foldl (fun s k => match k.2.req with
    | .data _ _ co _ sent (some st) =>
      if k.2.ready.isNone ∧ k.2.done.isNone ∧ !s.unackedData e.1 then s.answer e.1 k.1 st (if st = 0x0006 then 2 else if st = 0x0020 then 0x0C01 else 0) (s.dataValue e.1 st co sent) else s
    | _ => s) s) s

/-! ### CIPHER (R237 to R239, R454) -/

/-- A 4 KiB block of zeros (R454). -/
def State.zeroBlock (s : State) (k off : Nat) : Bool := (s.groupRead k off 4096).all (· == 0)

/-- Queue the items of one block; false where no pair is in service. -/
def State.cipherBlock (s : State) (o t : Nat) (enc : Bool) (slot group goff unit : Nat) : State × Bool :=
  let zero := !enc && s.zeroBlock group goff
  (List.range 16).foldl (fun sb i =>
    if !sb.2 then sb
    else sb.1.queueItem (.xts o t enc slot unit i group (goff + 256 * i) zero)) (s, true)

/-- A CIPHER request starts: its items wait for the pairs (R238). -/
def State.startCipher (s : State) (o t : Nat) (enc : Bool) (slot group goff n lba : Nat) : State :=
  let s := s.updTicket o t fun k => { k with started := true, req := .cipher enc slot group goff n lba [n * 16] false }
  if s.pairsInService = [] then (s.answer o t 0x0020 0x0C03 0).noPair (.xts o t enc slot lba 0 group goff false)
  else ((List.range n).foldl (fun sb i =>
    if !sb.2 then sb else sb.1.cipherBlock o t enc slot group (goff + 4096 * i) (lba + i)) (s, true)).1

/-- One item of a CIPHER request is done: the last one gives the result. -/
def State.cipherItemEnded (s : State) (o t : Nat) : State :=
  match (s.ticket o t).map (·.req) with
  | some (Req.cipher enc slot g off n lba [left] fail) =>
    let s := s.updTicket o t fun k => { k with req := .cipher enc slot g off n lba [left - 1] fail }
    if left ≤ 1 then s.answer o t 0 0 0 else s
  | _ => s

/-! ### PARITY (R188, R253) -/

/-- Strips of `len` bytes of a group from byte `off`. -/
def State.strips (s : State) (k off len n : Nat) : List (List Byte) :=
  (List.range n).map fun i => s.groupRead k (off + i * len) len

/-- Index of the first differing 4 KiB block, or 0xFFFF_FFFF. -/
def firstDiff (a b : List Byte) : Nat :=
  ((List.range (a.length / 4096)).find? fun i => (a.drop (4096 * i)).take 4096 != (b.drop (4096 * i)).take 4096).getD
    0xFFFFFFFF

/-- The outputs of a PARITY request are written; its VALUE. -/
def State.runParity (s : State) (mode n j missB sg so dg d len cnt : Nat) : State × Nat :=
  match mode with
  | 0 => ((List.range cnt).foldl (fun s i =>
      let (p, q) := genStrips len (s.strips sg (so + i * n * len) len n)
      s.groupWrite dg (d + i * 2 * len) (p ++ q) .parity) s, 0)
  | 1 =>
    match s.strips sg so len 4 with
    | [od, nd, op, oq] =>
      let (p, q) := updateStrips j od nd op oq
      (s.groupWrite dg d (p ++ q) .parity, 0)
    | _ => (s, 0)
  | 2 =>
    let miss := if missB = 0xFF then [j] else [j, missB]
    (s.groupWrite dg d (reconStrips n len (s.strips sg so len (n + 2)) miss).flatten .parity, 0)
  | _ => (s, firstDiff (s.groupRead sg so len) (s.groupRead dg d len))

/-! ### LEDGER (R189, R258) -/

/-- A CIPHER or PARITY request that an owner issued before ticket `t` has not completed (R189). -/
def State.moversLeft (s : State) (o t : Nat) : Bool :=
  let at_ := ((s.ticket o t).map (·.order)).getD s.cmd.order
  (s.tickets o).any fun k => k.2.done.isNone && decide (k.2.order < at_) && (match k.2.req with
    | .cipher .. | .parity .. => true
    | _ => false)

/-- Columns of open records still await resync in a row's run (R264). -/
def State.openResync (s : State) (r : RowAt) (xs : List Span) : Bool :=
  let (lo, n) := coverRun xs
  s.par.resync.any fun y => y.ofOpen && y.set == r.set && y.row == r.row && decide (y.boff < lo + n) &&
    decide (lo < y.boff + y.count)

/-- KIND of a write's record in a row (R258) (DEDUCED, log entry 49). -/
def State.recordKind (s : State) (o opcode : Nat) (r : RowAt) (xs : List Span) : Nat :=
  if opcode = opWRITE_ZEROES then 4
  else if opcode = opDEALLOCATE then 5
  else
    let (lo, n) := coverRun xs
    (List.range n).foldl (fun a i => max a (s.columnFormAt o r xs (lo + i))) 1

/-- DMASK of the spans of a row. -/
def spanMask (xs : List Span) : Nat := (xs.map (·.strip)).eraseDups.foldl (fun m j => m + 2 ^ j) 0

/-- Free record slots. -/
def State.freeSlots (s : State) : Nat := slotCount - s.ldg.recs.length

/-- A LEDGER request may act (R138, R189, R259, R264). -/
def State.ledgerReady (s : State) (o t v a n : Nat) : Bool :=
  let rows := s.rangeRows v a n
  !s.moversLeft o t && s.trackFree o && decide (rows.length ≤ s.freeSlots) && rows.all fun rx => !s.openResync rx.1 rx.2

/-- A LEDGER request acts: one intent record for each row (R258). -/
def State.runLedger (s : State) (o v a n : Nat) : State × Nat :=
  let c := (s.frame o).getD {}
  let slba := (c.track.map (·.slba)).getD a
  let rows := s.rangeRows v a n
  let s := rows.foldl (fun s rx =>
    match s.freeRecSlot with
    | none => s
    | some k =>
      let (lo, cnt) := coverRun rx.2
      let s := s.putRecord k {
        kind := s.recordKind o c.opcode rx.1 rx.2, set := rx.1.set, row := rx.1.row, dmask := spanMask rx.2,
        lost := s.recordLost rx.1, boff := lo, bcnt := cnt, vol := v, slba := slba, conn := c.conn, msgid := c.msgid,
        csn := c.csn, frame := (if o < 65536 then some o else none) }
      s.updFrame o fun c => { c with work := { c.work with records := s.ldg.rseq :: c.work.records } }) s
  (if o < 65536 then s.updFrame o fun c => { c with work := { c.work with ledgered := (v, a, n) :: c.work.ledgered } }
    else s.updThread (o - 65536 + 512) fun t => { t with ledgered := (v, a, n) :: t.ledgered }, rows.length)

/-- Ranges of LEDGER requests of an owner that have completed. -/
def State.ledgerDone (s : State) (o : Nat) : List (Nat × Nat × Nat) :=
  if o < 65536 then ((s.frame o).map (·.work.ledgered)).getD [] else (s.thread (o - 65536 + 512)).ledgered

/-- Ranges of LEDGER requests an owner has issued. -/
def State.ledgerIssued (s : State) (o : Nat) : List (Nat × Nat × Nat) :=
  s.ledgerDone o ++ (s.tickets o).filterMap fun k => match k.2.req with
    | .ledger v a n => some (v, a, n)
    | _ => none

/-- A range lies inside one of a list. -/
def inRange (l : List (Nat × Nat × Nat)) (v a n : Nat) : Bool :=
  l.any fun r => r.1 == v && decide (r.2.1 ≤ a) && decide (a + n ≤ r.2.1 + r.2.2)

/-! ### DRIVE (R189, R210) -/

/-- The intent records of a range are still owed: no LEDGER request of the owner that covers it has completed (R16, R189). -/
def State.ledgerOwed (s : State) (o v a n : Nat) : Bool := !inRange (s.ledgerDone o) v a n

/-! ### Starting what waits -/

/-- The command drew a reservation (R150). -/
def State.isDrawn (s : State) (o : Nat) : Bool := ((s.frame o).map fun c => c.work.rsv.isSome).getD false

/-- Some of the cells lie in an open grant: PSNs that carry data into it are still missing (R76). -/
def State.inOpenGrant (s : State) (rs : List (Nat × Nat × Nat)) : Bool :=
  s.ctx.grants.any fun e => e.2.isOpen && rs.any fun r => overlaps e.2.group e.2.goff e.2.len r.1 r.2.1 r.2.2

/-- The cells a mover is to read or write: on die, and in no open grant (R76, R210). -/
def State.cellsReady (s : State) (rs : List (Nat × Nat × Nat)) : Bool := s.onDie rs && !s.inOpenGrant rs

/-- A DRIVE request may start: its cells ready, its entry free, its records written, and cells there for the zeros of a
deallocation (R16, R138, R189, R200, R210). -/
def State.driveReady (s : State) (o : Nat) (r : Req) : Bool :=
  match r with
  | .drive op _ raw v _ _ a n _ _ =>
    s.cellsReady (s.reqRanges r) && (raw == 1 || s.trackFree o) &&
      (raw == 1 || op == 0 || op == 2 || !s.ledgerOwed o v a n) &&
      (raw == 1 || op != 3 || s.zerosFit v a n)
  | _ => true

/-- Start a request whose conditions hold. -/
def State.tryStart (s : State) (o t : Nat) (k : Ticket) : State :=
  let rs := s.reqRanges k.req
  if k.started ∨ k.ready.isSome ∨ k.done.isSome then s
  else
    match k.req with
    | .cipher enc slot g off n lba _ _ =>
      if s.cellsReady rs then (s.touchRanges rs).startCipher o t enc slot g off n lba else s
    | .parity .. => if s.cellsReady rs then (s.touchRanges rs).started o t else s
    | .data g off co len _ _ => if s.cellsReady rs then (s.touchRanges rs).startData o t g off co len else s
    | .drive .. => if s.driveReady o k.req then (s.touchRanges rs).startDrive o t (s.isDrawn o) k.req else s
    | _ => s

/-- Every request that waits for its conditions. -/
def State.startWaiting (s : State) : State :=
  s.allTickets.foldl (fun s k => match s.ticket k.1 k.2.1 with
    | some x => s.tryStart k.1 k.2.1 x
    | none => s) s

/-! ### Issue -/

/-- A range of a group has been received through grants (R187) (DEDUCED, log entry 50). -/
def State.isFilled (s : State) (k off len : Nat) : Bool :=
  match SMap.find s.cab.groups k with
  | some g => (blocksOf off len).all g.got.contains
  | none => true

/-- A grant of an owner that covers some of a range closed before all its bytes came (R134, R187). -/
def State.grantLost (s : State) (o k off len : Nat) : Bool :=
  s.ctx.grants.any fun e => e.2.owner == o && !e.2.isOpen && !e.2.full && overlaps e.2.group e.2.goff e.2.len k off len

/-- RELEASE: the group's cells are freed as their movers finish (R187). -/
def State.askRelease (s : State) (h : Nat) : State :=
  match s.groupOf h with
  | some (k, g) => s.setGroup k { g with releaseAsked := true }
  | none => s

/-- A TRACK request: the dispatcher's entry is adopted, else one is taken (R137, R187, DEDUCED, log entry 30). -/
def State.doTrack (s : State) (o v slba n : Nat) (isWrite : Bool) : State :=
  match (s.frame o).bind (·.track) with
  | some e => s.updFrame o fun c => { c with track := some { e with asked := true } }
  | none => (s.takeEntry o v slba n isWrite).updFrame o fun c => { c with
      track := c.track.map fun e => { e with asked := true } }

/-- CLEAR is asked. -/
def State.askClear (s : State) (o : Nat) : State :=
  (s.updFrame o fun c => { c with track := c.track.map fun e => { e with clearAsked := true } }).reachClear

/-- MARK: 1 where this request marked the release point. -/
def State.doMark (s : State) (o : Nat) : State × Nat :=
  match s.frame o with
  | some c => if s.pastRelease c then (s, 0) else (s.updFrame o fun c => { c with marked := true }, 1)
  | none => (s, 0)

/-- The engines take a request up as it is issued; the ticket exists. -/
def State.begin (s : State) (o t : Nat) (r : Req) : State :=
  match r with
  | .cells n => s.waitCab o t 0 n false
  | .xrdy .. => s.waitCab o t (((s.frame o).map (·.conn)).getD 0) 0 true
  | .release h => (s.askRelease h).finishTicket o t 0
  | .mark =>
    let (s, v) := s.doMark o
    s.finishTicket o t (resultWord 0 0 v)
  | .clear => s.askClear o
  | .cmpl => s.started o t
  | _ => match s.ticket o t with
    | some k => s.tryStart o t k
    | none => s

/-- Issue a request under ticket `t` (R184, R185). -/
def State.issue (s : State) (o t : Nat) (r : Req) (detached : Bool) : State :=
  let k : Ticket := { req := r, detached := detached, order := s.cmd.order }
  let s := { s with cmd := { s.cmd with order := s.cmd.order + 1 } }
  (s.setTickets o (SMap.put t k (s.tickets o))).begin o t r

/-- REQUEST_COMPLETE: what the engine has ready becomes the ticket's result; requests that only wait for a condition are
looked at (R187). -/
def State.completeRequest (s : State) (o t : Nat) : State :=
  match s.ticket o t with
  | none => s
  | some k =>
    if k.done.isSome then s
    else
      match k.ready with
      | some w => s.finishTicket o t w
      | none =>
        match k.req with
        | .parity mode n j mb sg so dg d len cnt =>
          if k.started then
            let (s, v) := s.runParity mode n j mb sg so dg d len cnt
            s.finishTicket o t (resultWord 0 0 v)
          else s
        | .ledger v a n =>
          if ((s.frame o).map (·.work.cipherFail)).getD false ∧ !s.moversLeft o t then
            s.finishTicket o t (resultWord 0x0020 0x0C02 0)
          else if s.ledgerReady o t v a n then
            let (s, c) := s.runLedger o v a n
            s.finishTicket o t (resultWord 0 0 c)
          else if s.freeSlots < (s.rangeRows v a n).length ∧ !k.started then (s.started o t).bump LDG_SLOT_WAITS 0 (s.cmdAttr (some o))
          else s
        | .track => if s.trackFree o then s.finishTicket o t 0 else s
        | .clear => if (((s.frame o).bind (·.track)).map (·.clear)).getD true then s.finishTicket o t 0 else s
        | .filled g off len =>
          if s.isFilled g off len then s.finishTicket o t 0
          else
            match (s.frame o).bind fun c => c.work.nak.map fun st => (st, c.work.nakDetail) with
            | some (st, dt) => if s.grantLost o g off len then s.finishTicket o t (resultWord st dt 0) else s
            | none => s
        | _ => s

end Sys2Proof.Machine
end

