-- ==== Sys2Proof/Machine/HostOps.lean ====
section
/-! DEFINITION. The dispatcher: the checks of R130, the commands it decides itself, fences, releases, and the pages of
IDENTIFY and LOG_READ (R114, R116, R124 to R132, R139 to R153). -/

namespace Sys2Proof.Machine

open Sys2Proof.Reg

/-! ### The checks of R130 -/

/-- An opcode is bound: its BNC_HANDLER entry is VALID (R163). -/
def State.bound (s : State) (op : Nat) : Bool := s.flag BNC_HANDLER_VALID op

/-- The right of R452 that a command needs. -/
def Cmd.needs (c : Cmd) (r : OpRow) : Nat :=
  if c.opcode = opCYCLE_RESERVE then (if c.arg 0 1 = 0 then 2 else 1) else r.right

/-- The command names a volume (R452). -/
def Cmd.namesVolume (c : Cmd) : Bool :=
  c.opcode ≤ opCOMPARE_WRITE || c.opcode == opCYCLE_RESERVE || (c.opcode == opIDENTIFY && c.arg 0 1 == 1)

/-- Bytes of DATA a command returns. -/
def Cmd.returnsBytes (c : Cmd) : Nat :=
  if c.opcode = opREAD ∨ c.opcode = opLOG_READ then c.nblk * 4096 else if c.opcode = opIDENTIFY then 4096 else 0

/-- A COMPARE_WRITE range crosses a stripe boundary (R127) (DEDUCED, log entry 46). -/
def State.crossesStripe (s : State) (c : Cmd) : Bool :=
  c.opcode == opCOMPARE_WRITE && decide (1 < (spanRows (s.spans c.volume c.slba c.nblk)).length)

/-- The rows of R130 from the field checks on: status, DETAIL and RESULT1 of the first that holds
(DEDUCED, log entry 46). -/
def State.dispatchChecks (s : State) (c : Cmd) (r : OpRow) : Option (Nat × Nat × Nat) :=
  match badByte r c with
  | some i => some (0x0004, 0x0100 + i, 0)
  | none =>
    if c.namesVolume ∧ !s.hasRight c.sub c.volume (c.needs r) then some (0x0006, 1, 0)
    else if c.hasRange ∧ s.volSize c.volume < c.slba + c.nblk then some (0x0005, 0, max c.slba (s.volSize c.volume))
    else if s.crossesStripe c then some (0x0004, 0x0110, 0)
    else if c.namesVolume ∧ c.opcode ≠ opIDENTIFY ∧ s.setOffline (s.volSet c.volume) then some (0x0011, 0, 0)
    else
      let region := if c.returnsBytes = 0 then none else s.checkRegion c.dkey c.doff c.returnsBytes c.conn c.sub
      match region with
      | some (st, inside) => some (st, (if st = 0x0006 then 2 else 0), if st = 0x0005 then c.doff + inside else 0)
      | none =>
        if !c.rsv then none
        else (s.drawCheck c c.rsvid (c.nblk * 4096) (some c.volume) (some (c.opcode == opREAD))).map fun e => (e.1, e.2, 0)

/-- The slot that stands for a handler without an image of its own (DESIGN CHOICE, log entry 17). -/
def builtinSlot := 64

/-! ### Commands the dispatcher decides (R114, R116, R146, R149, R153) -/

/-- REGION_REGISTER (R114). -/
def State.registerRegion (s : State) (f : Nat) (c : Cmd) : State :=
  let held := (s.ctx.regions.filter fun e => e.2.state != 0 && e.2.sub == c.sub).length
  let k := lowestFree 0 ((s.ctx.regions.filter fun e => e.2.state != 0).map (·.1))
  if s.reg CTX_REG_LIMIT_LIMIT ≤ held ∨ 262144 ≤ k then
    (s.raise CTX_EVENT_REGION_FULL).complete f 0x0012 3 0 0 true
  else
    let r : Region := { gen := (s.region k).gen, state := 1, sub := c.sub, conn := c.conn, connScope := c.arg 8 1 == 1,
                        len := c.arg 0 8, place := c.arg 9 1 % 2 == 1 }
    let s := (s.setRegion k r).countRegions
    let s := s.updFrame f fun c => { c with work := { c.work with stateEpoch := some s.epoch } }
    s.complete f 0 0 (regionKeyOf k r) 0 true

/-- REGION_REVOKE (R116). -/
def State.revokeCommand (s : State) (f : Nat) (c : Cmd) : State :=
  let key := c.arg 0 4
  match s.regionOf key with
  | none => s.complete f 0x0006 2 0 0 false
  | some (i, r) =>
    if r.sub ≠ c.sub ∨ (r.connScope ∧ r.conn ≠ c.conn) then s.complete f 0x0006 2 0 0 false
    else ((s.updFrame f fun c => { c with waitRevoke := some key }).revokeRegion i).complete f 0 0 0 0 false

/-- The revoke of a key is over: its entry is FREE or has a later generation (R116). -/
def State.revoked (s : State) (key : Nat) : Bool := (s.regionOf key).isNone

/-- The first cycle of a reservation (R148): 0 is the next one; otherwise the cycle with those low bits, not yet past
(DEDUCED, log entry 47). -/
def State.firstCycle (s : State) (start : Nat) : Nat :=
  if start = 0 then s.rtu.cycle + 1
  else
    let a := 2 ^ 32 * (s.rtu.cycle / 2 ^ 32) + start
    if a < s.rtu.cycle then 2 ^ 32 + a else a

/-- CYCLE_RESERVE (R148, R149): an index is free again once its released share has left the plan (R153)
(DEDUCED, log entry 47). -/
def State.reserveCommand (s : State) (f : Nat) (c : Cmd) : State :=
  let i := lowestFree 1 ((s.cmd.rsv.filter fun e => !e.2.ended || e.2.inPlan).map (·.1))
  let refuse (s : State) (detail r1 : Nat) : State :=
    (s.raise CMD_EVENT_RSV_REFUSED).complete f 0x0012 detail 0 r1 true
  let r : Reservation := {
    id := i + 4096 * SMap.get 0 s.cmd.rsvReuse i, sub := c.sub, vol := c.volume, isRead := c.arg 0 1 == 1,
    deadline := c.arg 2 2, start := s.firstCycle (c.arg 4 4), cycles := c.arg 8 4, bytes := c.arg 16 8,
    inPlan := false }
  let k := s.volSet c.volume
  let used := s.tightest k r.isRead r
  let cap := s.rsvCap k r.isRead
  if cap < used + s.share r then refuse s 4 (cap - used)
  else if 4096 ≤ i then refuse s 5 0
  else
    let s := s.setRsv i r
    let s := { s with cmd := { s.cmd with rsvReuse := SMap.put i ((SMap.get 0 s.cmd.rsvReuse i + 1) % 2 ^ 20) s.cmd.rsvReuse } }
    let s := s.countRsv.updFrame f fun c => { c with work := { c.work with stateEpoch := some s.epoch } }
    s.complete f 0 0 r.id 0 true

/-- CYCLE_RELEASE (R153). -/
def State.releaseRsv (s : State) (f : Nat) (c : Cmd) : State :=
  match s.rsvOf (c.arg 0 4) with
  | none => s.complete f 0x0004 3 0 0 true
  | some (i, r) =>
    if r.sub ≠ c.sub ∨ r.ended then s.complete f 0x0004 3 0 0 true
    else
      let s := (s.setRsv i { r with ended := true }).countRsv
      (s.updFrame f fun c => { c with work := { c.work with stateEpoch := some s.epoch } }).complete f 0 0 0 0 true

/-- ABORT (R146) (DEDUCED, log entry 40). -/
def State.abortCommand (s : State) (f : Nat) (c : Cmd) : State :=
  let miss (s : State) (d : Nat) : State := (s.bump CMD_ABORT_MISS 0 (c.attr s)).complete f 0x0002 d 0 0 false
  match s.cmd.frames.find? fun e => e.2.conn == c.conn && e.2.msgid == c.target with
  | none =>
    if s.nlt.txq.any fun o => o.typ == .cmpl && o.pkt.conn == c.conn && o.pkt.msgid == c.target then miss s 3
    else miss s 1
  | some (g, t) =>
    if (t.comp.map (·.sent)).getD false then miss s 2
    else if t.opcode = opABORT ∨ t.phase = .withdrawn then miss s 4
    else if (t.comp.map (·.released)).getD false ∨ s.pastRelease t then miss s 3
    else (s.withdraw g).complete f 0 0 0 0 false

/-- The opcode is decided by the dispatcher itself, not by a handler. -/
def isDirect (op : Nat) : Bool :=
  op == opABORT || op == opREGION_REGISTER || op == opREGION_REVOKE || op == opCYCLE_RESERVE || op == opCYCLE_RELEASE

/-- The effect of a command that the dispatcher decides. -/
def State.runDirect (s : State) (f : Nat) (c : Cmd) : State :=
  let s := s.updFrame f fun c => { c with phase := .ended }
  if c.opcode = opABORT then s.abortCommand f c
  else if c.opcode = opREGION_REGISTER then s.registerRegion f c
  else if c.opcode = opREGION_REVOKE then s.revokeCommand f c
  else if c.opcode = opCYCLE_RESERVE then s.reserveCommand f c
  else s.releaseRsv f c

/-! ### Dispatch (R130, R132, R137, R157, R163) -/

/-- What the handler table of the current generation binds an opcode to (R163) (DESIGN CHOICE, log entry 17). -/
def State.handlerOf (s : State) (op : Nat) : Nat × Nat :=
  let k := s.reg BNC_HANDLER_SLOT op
  if s.bound op ∧ (SMap.find s.bnc.images k).isSome then (k, s.reg BNC_HANDLER_ENTRY op) else (builtinSlot, 0)

/-- Bench threads that are free. -/
def State.freeThreads (s : State) : Nat := 512 - (s.bnc.threads.filter fun e => decide (e.1 < 512) && e.2.frame.isSome).length

/-- Every ticket of a mask is done. -/
def State.allDone (s : State) (o m : Nat) : Bool :=
  ((List.range 64).filter (bitOf m)).all fun t => match s.ticket o t with
    | some k => k.done.isSome
    | none => true

/-- Parked commands whose named tickets are all done. -/
def State.resumable (s : State) : List Nat :=
  (s.cmd.frames.filter fun e => match e.2.phase with
    | .parked m => s.allDone e.1 m
    | _ => false).map (·.1)

/-- No thread is free for a dispatch: those there are go to the resumes that wait (R160). -/
def State.noThread (s : State) : Bool := decide (s.freeThreads ≤ s.resumable.length)

/-- A queued command that finds no free thread is counted, once (R160). -/
def State.noteWait (s : State) (f : Nat) : State :=
  match s.frame f with
  | some c => if c.issued = 0 ∧ s.noThread then (s.updFrame f fun c => { c with issued := 1 }).bump BNC_DISPATCH_WAITS 0 (c.attr s) else s
  | none => s

/-- The command passes the checks: it is dispatched (R130, R151, R163). -/
def State.dispatchNow (s : State) (f : Nat) : State :=
  let s := s.updFrame f fun c =>
    let h := s.handlerOf c.opcode
    { c with phase := .queued, dispatched := s.refTime, dispatchCycle := s.rtu.cycle, slot := h.1, entry := h.2,
             gen := s.reg CFG_GEN_CURRENT_GEN }
  let s := s.bump CMD_DISPATCHED 0 (s.cmdAttr (some f))
  match s.frame f with
  | none => s
  | some c =>
    let s := if c.hasRange ∧ !isUserOp c.opcode then s.takeEntry f c.volume c.slba c.nblk (c.opcode != opREAD) else s
    let s := if c.rsv ∧ !isUserOp c.opcode then s.drawBytes f c.rsvid (c.nblk * 4096) else s
    if c.slot = builtinSlot ∧ isDirect c.opcode then s.runDirect f c else s.noteWait f

/-- The checks of a command that holds a frame: it completes at once, or is dispatched (R130)
(DEDUCED, log entry 36). -/
def State.checkAndRun (s : State) (f : Nat) : State :=
  match s.frame f with
  | none => s
  | some c =>
    if isUserOp c.opcode then
      if s.bound c.opcode then s.dispatchNow f
      else (s.updFrame f fun c => { c with phase := .ended }).complete f 0x0003 0 0 0 false
    else
      match opRow c.opcode with
      | none => s
      | some r =>
        match s.dispatchChecks c r with
        | none => s.dispatchNow f
        | some (st, d, r1) =>
          let s := if st = 0x0008 then
              s.logMiss (c.attr s) { rsvid := c.rsvid, msgid := c.msgid, detail := d, dispatched := s.refTime,
                                     reltime := s.refTime, sub := c.sub }
            else s
          (s.updFrame f fun c => { c with phase := .ended }).complete f st d 0 r1 false

/-- A command delivered before frame `f`'s on its connection has not had its completion sent (R132)
(DEDUCED, log entry 36). -/
def State.fenceHolds (s : State) (f : Nat) (c : Cmd) : Bool :=
  (s.cmd.frames.any fun e => e.1 != f && e.2.conn == c.conn && decide (e.2.order < c.order) &&
    !((e.2.comp.map (·.sent)).getD false)) ||
  s.nlt.txq.any fun o => o.typ == .cmpl && o.pkt.conn == c.conn && o.owner.isNone

/-- The lowest free frame (R157). -/
def State.freeFrame (s : State) : Option Nat :=
  let k := lowestFree 0 (s.cmd.frames.map (·.1))
  if k < 65536 then some k else none

/-- The dispatcher takes a delivered capsule up: the first rows of R130, then a frame. -/
def State.acceptCmd (s : State) (d : Delivered) : State :=
  match s.findConn d.conn with
  | none => s
  | some (ci, cn) =>
    let op := capField d.capsule 0 1
    let busy (s : State) (x : Nat) : State := s.rejectCmd d ci 0x0012 x
    if s.tagInUse d then s.discardCmd d
    else if (match cn.closeCsn with
        | some x => serialBefore x d.csn
        | none => false) then s.rejectCmd d ci 0x0004 1
    else
      match s.freeFrame with
      | none => busy s 1
      | some f =>
        if min 65536 (max 1 (s.reg CMD_LIMITS_CONN_MAX)) ≤ cn.inflight then busy s 2
        else if (opRow op).isNone ∧ !(isUserOp op ∧ s.bound op) then s.rejectCmd d ci 0x0003 0
        else
          let c : Cmd := {
            conn := d.conn, msgid := d.msgid, csn := d.csn, sub := cn.sub, opcode := op, capsule := d.capsule,
            colour := d.colour, order := s.cmd.order, phase := .fenced, slot := builtinSlot,
            acc := d.acc }
          let s := { s with cmd := { s.cmd with frames := SMap.put f c s.cmd.frames, order := s.cmd.order + 1 } }
          let s := s.updConn ci fun k => { k with inflight := k.inflight + 1 }
          let mayFence := match opRow op with
            | some r => bitOf r.flags 1
            | none => true
          if c.fence ∧ mayFence ∧ s.fenceHolds f c then s else s.checkAndRun f

/-- The capsule at the front of a connection's inbox (R71). -/
def State.inboxHead (s : State) (conn : Nat) : Option Delivered := s.cmd.inbox.find? fun d => d.conn == conn

/-- The part dispatches new commands: it serves as the active, PFW_N is not asserted, and no planned swap drains it (R349,
R351, R354, R355). -/
def State.dispatches (s : State) : Bool := s.isActive && !s.top.pfw && decide (s.hng.swapping < 2)

/-- Take the front capsule of a connection up where its opcode is of the row. -/
def State.takeCapsule (s : State) (conn : Nat) (isRow : Nat → Bool) : State :=
  match s.inboxHead conn with
  | none => s
  | some d =>
    if isRow (capField d.capsule 0 1) ∧ s.dispatches then
      { s with cmd := { s.cmd with inbox := s.cmd.inbox.erase d } }.acceptCmd d
    else s

/-- A capsule at the front of its connection's inbox with an opcode that no row of R124 gives and no user command has:
R130's table acts on it (R123, R124). -/
def State.reservedHead (s : State) (d : Delivered) : Bool :=
  let op := capField d.capsule 0 1
  (opRow op).isNone && !isUserOp op && s.inboxHead d.conn == some d

/-- Such capsules are taken up, oldest first, and those which come to the front behind them: `n` rounds. -/
def State.takeReserved (s : State) : Nat → State
  | 0 => s
  | n + 1 =>
    match s.cmd.inbox.find? s.reservedHead with
    | some d => if s.dispatches then ({ s with cmd := { s.cmd with inbox := s.cmd.inbox.erase d } }.acceptCmd d).takeReserved n else s
    | none => s

/-! ### Releases (R141, R342) -/

/-- A released completion may leave: an immediate one at once, a sealed one of a pair once the copy of its boundary is
confirmed (R342). -/
def State.mayLeave (s : State) (k : Completion) : Bool :=
  !k.isSealed || !s.hng.paired || s.top.pfw || s.hng.copies.all fun c => decide (k.releasedEpoch < c.epoch)

/-- The completion of a command at or beyond its connection's c0 is void once a planned swap drains the part (R354). -/
def State.completionVoid (s : State) (c : Cmd) : Bool :=
  decide (2 ≤ s.hng.swapping) && match SMap.find s.hng.c0 c.conn with
    | some n => !serialBefore c.csn n
    | none => false

/-- Release and queue what one command may have now; a part that is not active releases nothing (R349, R351). -/
def State.settleCommand (s : State) (f : Nat) : State :=
  match (s.frame f).bind fun c => c.comp.map fun k => (c, k) with
  | none => s
  | some (c, k) =>
    if !s.isActive then s
    else if (s.findConn c.conn).isNone ∨ s.completionVoid c ∨ !(((s.findConn c.conn).map (·.2.known)).getD false) then
      if k.sent ∨ c.work.driveOps ≠ 0 ∨ c.writesPending then s else s.endCommand f
    else
      let s := if s.mayReleaseNow f c k ∧ !(c.work.nak.isSome ∧ s.unackedData f) then s.releaseCmd f c k else s
      match (s.frame f).bind fun c => c.comp.map fun k => (c, k) with
      | some (c, k) => if k.released ∧ !k.queued ∧ !k.sent ∧ s.mayLeave k then s.queueCompletion f c k else s
      | none => s

/-- Frames in order of arrival (R71, R137). -/
def State.framesInOrder (s : State) : List Nat :=
  (s.cmd.frames.mergeSort fun a b => decide (a.2.order ≤ b.2.order)).map (·.1)

/-- REGION_REVOKEs whose key is free go on (R116). -/
def State.endRevokes (s : State) : State :=
  let g (c : Cmd) : Cmd := match c.waitRevoke with
    | some key => if s.revoked key then { c with waitRevoke := none } else c
    | none => c
  { s with cmd := { s.cmd with frames := s.cmd.frames.mapVal fun _ c => g c } }

/-- Fenced commands that nothing holds any more are checked and run (R132) (DEDUCED, log entry 36). -/
def State.endFences (s : State) : State :=
  s.framesInOrder.foldl (fun s f => match s.frame f with
    | some c => if c.phase = .fenced ∧ s.dispatches ∧ !s.fenceHolds f c then s.checkAndRun f else s
    | none => s) s

/-- One round of what follows from a change: capsules that no command takes, clear points, requests that may start, waits, releases, fences, cells, cipher items. -/
def State.settleOnce (s : State) : State :=
  let s := ((((((s.takeReserved s.cmd.inbox.length).reachClear.startWaiting).serveWaits).retryJobs).endFailedData).endRevokes).sealClasses
  let s := s.framesInOrder.foldl (fun s f => s.settleCommand f) s
  s.endFences.sweepGroups.serveCipher

/-- What follows from a change, until nothing more follows. -/
def State.settle (s : State) : State := ((s.settleOnce).settleOnce).settleOnce.countCmds.syncPorts

/-- A completion of a pair is held because the standby has not confirmed a record or a state change of it (R143). -/
def State.unconfirmed (s : State) (c : Cmd) : Bool :=
  s.hng.paired && (match c.comp with
    | some k => k.isSealed && !k.released && !s.completionVoid c && !(s.recordsConfirmed c && s.stateConfirmed c)
    | none => false)

/-- A sealed completion may be released at this boundary (R142, R193). -/
def State.mayReleaseSealed (s : State) (f : Nat) (c : Cmd) (k : Completion) : Bool :=
  k.isSealed && !k.released && !s.completionVoid c && c.work.driveOps == 0 && !c.writesPending && !c.sendingData &&
    s.recordsConfirmed c && s.stateConfirmed c && !s.heldBehind f c

/-- Action 4 of a boundary (R36, R142, R143): sealed completions are released in order of arrival, and a boundary at which
one is held for the standby is counted; an active whose contest is undecided holds them (R348). -/
def State.releaseSealed (s : State) : State :=
  if !s.isActive ∨ s.hng.undecided then s
  else
    let s := if s.cmd.frames.any fun e => s.unconfirmed e.2 then s.bump CMD_HELD else s
    s.framesInOrder.foldl (fun s f =>
      match (s.frame f).bind fun c => c.comp.map fun k => (c, k) with
      | none => s
      | some (c, k) => if s.mayReleaseSealed f c k then s.releaseCmd f c k else s) s

/-! ### Pages (R125, R126, R282) -/

/-- ASCII text padded with spaces. -/
def asciiField (cs : List Nat) (n : Nat) : List Byte :=
  ((cs.map b8) ++ List.replicate n (b8 0x20)).take n

/-- A damaged run of one data index of a record, as set data blocks. -/
def State.damageRun (s : State) (d : Record) (j : Nat) : Nat × Nat :=
  let n := (s.layoutRow d.set d.row).n
  ((d.row * n + j) * s.setSb d.set + d.boff, d.bcnt)

/-- The part of a damage record's run that lies in a volume: its first volume block and its blocks. -/
def State.damageInVolume (s : State) (d : Record) (v : Nat) : List (Nat × Nat) :=
  if s.volSet v ≠ d.set then []
  else ((List.range 22).filter (bitOf d.dmask)).filterMap fun j =>
    let (a, n) := s.damageRun d j
    let lo := max a (s.volBase v)
    let hi := min (a + n) (s.volBase v + s.volSize v)
    if lo < hi then some (lo - s.volBase v, hi - lo) else none

/-- Volumes bound to a subscriber, in order. -/
def State.boundVolumes (s : State) (sub : Nat) : List Nat :=
  (s.regs.cur.filterMap fun e => match instanceOfKey CMD_VOLBIND_VALID 32768 e.1 with
    | some i => if e.2 = 1 ∧ s.reg CMD_VOLBIND_SUB i = sub then some (s.reg CMD_VOLBIND_VOLUME i) else none
    | none => none).mergeSort (fun a b => decide (a ≤ b))

/-- The damaged-stripe list of a subscriber: records in order of creation (R282). -/
def State.damageLog (s : State) (sub : Nat) : List (List Byte) :=
  let ds := (s.damageRecs.map (·.2)).mergeSort fun a b => decide (a.rseq ≤ b.rseq)
  ds.flatMap fun d => (s.boundVolumes sub).flatMap fun v => (s.damageInVolume d v).map fun r =>
    beBytes 2 v ++ [b8 d.set, d.extra.getD 0 0] ++ beBytes 4 r.2 ++ beBytes 8 r.1 ++ beBytes 8 d.row ++ beBytes 8 d.written

/-- The reservation misses of a subscriber (R126). -/
def State.missLog (s : State) (sub : Nat) : List (List Byte) :=
  (s.cmd.misses.filter (·.sub == sub)).map fun m =>
    beBytes 4 m.rsvid ++ beBytes 4 m.msgid ++ beBytes 2 m.detail ++ List.replicate 6 0 ++ beBytes 8 m.dispatched ++
      beBytes 8 m.reltime

/-- The bytes LOG_READ returns: `n` pages from page `p` on (R126). -/
def State.logPages (s : State) (c : Cmd) : List Byte :=
  let es := if c.arg 0 1 = 1 then s.damageLog c.sub else s.missLog c.sub
  let lost := if c.arg 0 1 = 1 then 0 else SMap.get 0 s.cmd.missLost c.sub
  let all := beBytes 4 es.length ++ beBytes 4 lost ++ List.replicate 24 0 ++ es.flatten
  padTo (c.nblk * 4096) (all.drop (c.arg 4 4 * 4096))

/-- Active reservations of a subscriber. -/
def State.subRsv (s : State) (sub : Nat) : List Reservation :=
  (s.cmd.rsv.filter fun e => e.2.sub == sub && !e.2.ended).map (·.2)

/-- The page IDENTIFY returns (R125); the security version number is the fused count (R392). -/
def State.identifyPage (s : State) (c : Cmd) : List Byte :=
  let v := c.volume
  let k := s.volSet v
  let page := match c.arg 0 1 with
    | 0 =>
      asciiField [0x53, 0x4B, 0x45, 0x4E, 0x47, 0x4F] 8 ++ asciiField [0x52, 0x56, 0x34, 0x38, 0x39, 0x36] 8 ++
        [b8 (s.reg TOP_ID_STEPPING), b8 (s.reg TOP_ID_ORDER), 0, 0] ++ beBytes 4 (s.reg FWU_VER_RUNNING) ++
        beBytes 4 (s.reg FWU_SVN_FUSED) ++ beBytes 4 4096 ++ beBytes 4 (s.reg CMD_LIMITS_CONN_MAX) ++
        beBytes 4 s.epochNs ++ beBytes 4 s.cycleNs ++ beBytes 4 (s.reg CFG_GEN_CURRENT_GEN)
    | 1 =>
      beBytes 8 (s.volSize v) ++ [b8 k, b8 (s.setN k)] ++ beBytes 2 (s.setSb k * 4) ++
        [b8 ((s.rights c.sub v).getD 0), b8 (s.reg PAR_SET_STATE_STATE k), 0, 0] ++
        beBytes 4 ((s.damageRecs.filter fun d => s.damageInVolume d.2 v != []).length)
    | 2 =>
      beBytes 2 c.sub ++ [0, 0] ++
        beBytes 4 ((s.ctx.regions.filter fun e => e.2.state != 0 && e.2.sub == c.sub).length) ++
        beBytes 4 (s.reg CTX_REG_LIMIT_LIMIT) ++ beBytes 4 (s.subRsv c.sub).length
    | _ =>
      let rs := (s.subRsv c.sub).take 127
      beBytes 4 (min 127 (s.subRsv c.sub).length) ++ List.replicate 28 0 ++ rs.flatMap fun r =>
        beBytes 4 r.id ++ beBytes 2 r.vol ++ [b8 (Bool.nat r.isRead), 0] ++ beBytes 2 r.deadline ++ [0, 0] ++
          beBytes 8 r.bytes ++ beBytes 8 r.balance ++ beBytes 4 r.misses
  padTo 4096 page

/-! ### The rows (R124) -/

end Sys2Proof.Machine
end

