-- ==== Sys2Proof/Machine/Flags.lean ====
section
/-! DEFINITION. What Beykor computes: the ALU and compare results of R177 and R178. Beykor has no flags register (R174):
a compare writes 1 or 0 into a general register. -/

namespace Sys2Proof.Machine

/-- 1 or 0 as a compare writes it (R174). -/
def flagWord (b : Bool) : DWord := if b then 1 else 0

/-- ra is lower than rb as signed values. -/
def signedLess (a b : DWord) : Bool := decide (a.toInt < b.toInt)

/-- ra is lower than rb as unsigned values. -/
def unsignedLess (a b : DWord) : Bool := decide (a.toNat < b.toNat)

/-- A shift uses bits 5:0 of its shift operand only (R177). -/
def shiftCount (b : DWord) : Nat := b.toNat % 64

def shlWord (a b : DWord) : DWord := a <<< shiftCount b
def shrWord (a b : DWord) : DWord := a >>> shiftCount b
def sarWord (a b : DWord) : DWord := a.sshiftRight (shiftCount b)

/-- The high 64 bits of the unsigned 128-bit product (R177). -/
def mulHigh (a b : DWord) : DWord := BitVec.ofNat 64 (a.toNat * b.toNat / 2 ^ 64)

/-- Leading zero bits among the low `n` bits of `v` (R177). -/
def leadingZeros : Nat → Nat → Nat
  | 0, _ => 0
  | n + 1, v => if v.testBit n then 0 else 1 + leadingZeros n v

/-- 1 bits among the low `n` bits of `v` (R177). -/
def oneBits : Nat → Nat → Nat
  | 0, _ => 0
  | n + 1, v => (if v.testBit n then 1 else 0) + oneBits n v

/-- `ra` with bits 16p + 15 to 16p replaced by the immediate (R178). -/
def setHalf (p : Nat) (a : DWord) (imm : BitVec 16) : DWord :=
  let m : DWord := 0xFFFF#64 <<< (16 * p)
  (a &&& ~~~ m) ||| ((imm.zeroExtend 64) <<< (16 * p))

end Sys2Proof.Machine
end

