-- ==== Sys2Proof/Machine/Operands.lean ====
section
/-! DEFINITION. Beykor instruction words: the formats of R175, the opcodes of R176 to R183, R187 and R192, the words they
are encoded in, and the profile that may hold each (R191). -/

namespace Sys2Proof.Machine

/-- The ALU operations of major opcode 0x00 (R177). -/
inductive AluOp
  | add | sub | and | or | xor | andn | shl | shr | sar | mul | mulhu | seq | sne | slt | sltu | sel | clz | popc
  deriving DecidableEq, Repr

/-- The I-format operations (R178). -/
inductive ImmOp
  | addi | andi | ori | xori | shli | shri | sari | seth0 | seth1 | seth2 | seth3 | seqi | slti | sltiu
  deriving DecidableEq, Repr

/-- The memory instructions (R180 to R182). -/
inductive MemOp
  | load | loads | store | aadd
  deriving DecidableEq, Repr

/-- The branches with a direct target (R179). -/
inductive BranchOp
  | bz | bnz | jal
  deriving DecidableEq, Repr

/-- An instruction word's meaning (R175, R176), register numbers and fields as they stand in the word. -/
inductive BkWord
  | alu (op : AluOp) (rd ra rb : Nat)
  | imm (op : ImmOp) (rd ra v : Nat)
  | mem (op : MemOp) (rt ra sp w off : Nat)
  | branch (op : BranchOp) (ra disp : Nat)
  | jalr (rd ra : Nat)
  | wait (rd ra : Nat)
  | park (ra : Nat)
  | drop (ra : Nat)
  | endThread
  | rdtime (rd : Nat)
  | rdc (rd n : Nat)
  | mfence
  | eret
  | wfi
  | csrr (rd n : Nat)
  | csrw (ra n : Nat)
  | xreq (rd ra rb req : Nat)
  deriving DecidableEq, Repr

/-- FN of an ALU operation (R177). -/
def AluOp.fn : AluOp → Nat
  | .add => 0x000
  | .sub => 0x001
  | .and => 0x002
  | .or => 0x003
  | .xor => 0x004
  | .andn => 0x005
  | .shl => 0x008
  | .shr => 0x009
  | .sar => 0x00A
  | .mul => 0x010
  | .mulhu => 0x011
  | .seq => 0x018
  | .sne => 0x019
  | .slt => 0x01A
  | .sltu => 0x01B
  | .sel => 0x01C
  | .clz => 0x020
  | .popc => 0x021

/-- The ALU operation of an FN, none where R177 defines none. -/
def aluOfFn (fn : Nat) : Option AluOp :=
  [AluOp.add, .sub, .and, .or, .xor, .andn, .shl, .shr, .sar, .mul, .mulhu, .seq, .sne, .slt, .sltu, .sel, .clz,
    .popc].find? fun o => o.fn == fn

/-- RB must be 0 (R177). -/
def AluOp.oneSource : AluOp → Bool
  | .clz | .popc => true
  | _ => false

/-- Major opcode of an I-format operation (R176). -/
def ImmOp.major : ImmOp → Nat
  | .addi => 0x01
  | .andi => 0x02
  | .ori => 0x03
  | .xori => 0x04
  | .shli => 0x05
  | .shri => 0x06
  | .sari => 0x07
  | .seth0 => 0x08
  | .seth1 => 0x09
  | .seth2 => 0x0A
  | .seth3 => 0x0B
  | .seqi => 0x0C
  | .slti => 0x0D
  | .sltiu => 0x0E

/-- The I-format operation of a major opcode. -/
def immOfMajor (m : Nat) : Option ImmOp :=
  [ImmOp.addi, .andi, .ori, .xori, .shli, .shri, .sari, .seth0, .seth1, .seth2, .seth3, .seqi, .slti, .sltiu].find?
    fun o => o.major == m

/-- IMM bits 15:6 must be 0 (R178). -/
def ImmOp.isShift : ImmOp → Bool
  | .shli | .shri | .sari => true
  | _ => false

/-- Major opcode of a memory instruction (R176). -/
def MemOp.major : MemOp → Nat
  | .load => 0x10
  | .loads => 0x11
  | .store => 0x12
  | .aadd => 0x13

/-- The SP and W combinations that decode (R180, R181, R182). -/
def MemOp.legal (o : MemOp) (sp w : Nat) : Bool :=
  match o with
  | .aadd => sp == 1 && w == 3
  | .loads => decide (sp < 2) && decide (w < 3) || (sp == 3 && w == 2)
  | _ => decide (sp < 2) && decide (w < 4) || (sp == 3 && w == 2)

/-- Major opcode of a branch (R176). -/
def BranchOp.major : BranchOp → Nat
  | .bz => 0x18
  | .bnz => 0x19
  | .jal => 0x1A

/-- The A-format word (R175). -/
def formatA (major rd ra rb fn : Nat) : Nat := 2 ^ 26 * major + 2 ^ 21 * rd + 2 ^ 16 * ra + rb * 2 ^ 11 + fn

/-- The I-format word (R175). -/
def formatI (major rd ra imm : Nat) : Nat := 2 ^ 26 * major + 2 ^ 21 * rd + 2 ^ 16 * ra + imm

/-- The word that stands for an instruction (R175, R176). -/
def BkWord.encode : BkWord → Nat
  | .alu op rd ra rb => formatA 0x00 rd ra rb op.fn
  | .imm op rd ra v => formatI op.major rd ra v
  | .mem op rt ra sp w off => formatI op.major rt ra (sp * 2 ^ 14 + w * 2 ^ 12 + off)
  | .branch op ra disp => 2 ^ 26 * op.major + 2 ^ 21 * ra + disp
  | .jalr rd ra => formatA 0x1B rd ra 0 0
  | .wait rd ra => formatA 0x1C rd ra 0 0x000
  | .park ra => formatA 0x1C 0 ra 0 0x001
  | .drop ra => formatA 0x1C 0 ra 0 0x002
  | .endThread => formatA 0x1C 0 0 0 0x003
  | .rdtime rd => formatA 0x1C rd 0 0 0x004
  | .rdc rd n => formatA 0x1C rd 0 n 0x005
  | .mfence => formatA 0x1C 0 0 0 0x006
  | .eret => formatA 0x20 0 0 0 0x000
  | .wfi => formatA 0x20 0 0 0 0x001
  | .csrr rd n => formatI 0x21 rd 0 n
  | .csrw ra n => formatI 0x22 0 ra n
  | .xreq rd ra rb req => formatA 0x30 rd ra rb (req * 32)

/-- Fields of a word. -/
def fMajor (w : Nat) : Nat := w / 2 ^ 26 % 64
def fRd (w : Nat) : Nat := w / 2 ^ 21 % 32
def fRa (w : Nat) : Nat := w / 2 ^ 16 % 32
def fRb (w : Nat) : Nat := w / 2 ^ 11 % 32
def fFn (w : Nat) : Nat := w % 2 ^ 11
def fImm (w : Nat) : Nat := w % 2 ^ 16

/-- Decode a memory word. -/
def decodeMem (op : MemOp) (w : Nat) : Option BkWord :=
  let sp := w / 2 ^ 14 % 4
  let wd := w / 2 ^ 12 % 4
  if op.legal sp wd then some (.mem op (fRd w) (fRa w) sp wd (w % 2 ^ 12)) else none

/-- Decode a branch word: bit 20 must be 0. -/
def decodeBranch (op : BranchOp) (w : Nat) : Option BkWord :=
  if w / 2 ^ 20 % 2 = 0 then some (.branch op (fRd w) (w % 2 ^ 20)) else none

/-- Decode a thread-control word (R183): the fields not named are 0. -/
def decodeThread (w : Nat) : Option BkWord :=
  let rd := fRd w
  let ra := fRa w
  let rb := fRb w
  match fFn w with
  | 0 => if rb = 0 then some (.wait rd ra) else none
  | 1 => if rd = 0 ∧ rb = 0 then some (.park ra) else none
  | 2 => if rd = 0 ∧ rb = 0 then some (.drop ra) else none
  | 3 => if rd = 0 ∧ ra = 0 ∧ rb = 0 then some .endThread else none
  | 4 => if ra = 0 ∧ rb = 0 then some (.rdtime rd) else none
  | 5 => if ra = 0 ∧ rb < 16 then some (.rdc rd rb) else none
  | 6 => if rd = 0 ∧ ra = 0 ∧ rb = 0 then some .mfence else none
  | _ => none

/-- A request code of R187, with 0 in the register fields that it does not use: RB but for DRAW, RA for CLEAR and MARK. -/
def xreqFields (req ra rb : Nat) : Bool :=
  decide (1 ≤ req) && decide (req ≤ 13) && (req == 0x0A || rb == 0) && ((req != 0x09 && req != 0x0B) || ra == 0)

/-- The instruction a word stands for, none where it does not decode in any profile (R176). -/
def decodeBk (w : Nat) : Option BkWord :=
  let m := fMajor w
  if m = 0 then
    match aluOfFn (fFn w) with
    | some op => if op.oneSource ∧ fRb w ≠ 0 then none else some (.alu op (fRd w) (fRa w) (fRb w))
    | none => none
  else if m < 0x0F then
    match immOfMajor m with
    | some op => if op.isShift ∧ 64 ≤ fImm w then none else some (.imm op (fRd w) (fRa w) (fImm w))
    | none => none
  else if m = 0x10 then decodeMem .load w
  else if m = 0x11 then decodeMem .loads w
  else if m = 0x12 then decodeMem .store w
  else if m = 0x13 then decodeMem .aadd w
  else if m = 0x18 then decodeBranch .bz w
  else if m = 0x19 then decodeBranch .bnz w
  else if m = 0x1A then decodeBranch .jal w
  else if m = 0x1B then if fRb w = 0 ∧ fFn w = 0 then some (.jalr (fRd w) (fRa w)) else none
  else if m = 0x1C then decodeThread w
  else if m = 0x20 then
    if fRd w ≠ 0 ∨ fRa w ≠ 0 ∨ fRb w ≠ 0 then none
    else if fFn w = 0 then some .eret else if fFn w = 1 then some .wfi else none
  else if m = 0x21 then if fRa w = 0 ∧ fImm w ≤ 8 then some (.csrr (fRd w) (fImm w)) else none
  else if m = 0x22 then if fRd w = 0 ∧ fImm w ≤ 8 then some (.csrw (fRa w) (fImm w)) else none
  else if m = 0x30 then
    if fFn w % 32 = 0 ∧ xreqFields (fFn w / 32) (fRa w) (fRb w) then
      some (.xreq (fRd w) (fRa w) (fRb w) (fFn w / 32)) else none
  else none

/-- The fields of an instruction fit their places in the word, and are 0 where they must be. -/
def BkWord.wf : BkWord → Bool
  | .alu op rd ra rb => decide (rd < 32) && decide (ra < 32) && decide (rb < 32) && (!op.oneSource || rb == 0)
  | .imm op rd ra v => decide (rd < 32) && decide (ra < 32) && decide (v < 65536) && (!op.isShift || decide (v < 64))
  | .mem op rt ra sp w off => decide (rt < 32) && decide (ra < 32) && decide (sp < 4) && decide (w < 4) &&
      decide (off < 4096) && op.legal sp w
  | .branch _ ra disp => decide (ra < 32) && decide (disp < 2 ^ 20)
  | .jalr rd ra => decide (rd < 32) && decide (ra < 32)
  | .wait rd ra => decide (rd < 32) && decide (ra < 32)
  | .park ra => decide (ra < 32)
  | .drop ra => decide (ra < 32)
  | .endThread => true
  | .rdtime rd => decide (rd < 32)
  | .rdc rd n => decide (rd < 32) && decide (n < 16)
  | .mfence => true
  | .eret => true
  | .wfi => true
  | .csrr rd n => decide (rd < 32) && decide (n ≤ 8)
  | .csrw ra n => decide (ra < 32) && decide (n ≤ 8)
  | .xreq rd ra rb req => decide (rd < 32) && decide (ra < 32) && decide (rb < 32) && xreqFields req ra rb

/-- The profiles (R191). -/
inductive Profile
  | user | system | bureau
  deriving DecidableEq, Repr

/-- An instruction belongs to a profile (R191). -/
def BkWord.inProfile (p : Profile) : BkWord → Bool
  | .mem _ _ _ sp _ _ => sp != 3 || p == .bureau
  | .csrr .. | .csrw .. | .eret | .wfi => p == .bureau
  | .rdc .. | .park _ | .endThread => p != .bureau
  | _ => true

/-- A word decodes for a profile (R176). -/
def decodesFor (p : Profile) (w : Nat) : Bool :=
  match decodeBk w with
  | some b => b.inProfile p
  | none => false

/-- A signed field of `n` bits as an integer. -/
def signedField (n v : Nat) : Int := if v < 2 ^ (n - 1) then v else (v : Int) - 2 ^ n

/-- The direct branch target of the word at byte offset `pc`, where it has one (R179). -/
def BkWord.target (pc : Nat) : BkWord → Option Int
  | .branch _ _ d => some ((pc : Int) + 4 * signedField 20 d)
  | _ => none

end Sys2Proof.Machine
end

