-- ==== Sys2Proof/Machine/Images.lean ====
section
/-! DEFINITION. Handler images: layout, checks, load and unload (R163, R164, R171, R172, R391). -/

namespace Sys2Proof.Machine

open Sys2Proof.Reg

/-- A little-endian field of an image's bytes. -/
def leField (b : List Byte) (o n : Nat) : Nat := leNat ((b.drop o).take n)

/-- The code words of a byte list. -/
def codeWords : Nat → List Byte → List (BitVec 32)
  | 0, _ => []
  | n + 1, b => BitVec.ofNat 32 (leNat (b.take 4)) :: codeWords n (b.drop 4)

/-- An image's header as R171 lays it out, read from the Sideboard. -/
structure ImageHead where
  magic : Nat
  format : Nat
  kind : Nat
  entries : Nat
  code : Nat
  data : Nat
  loc : Nat
  version : Nat
  crc : Nat
  pad : Nat

/-- The header of an image's bytes. -/
def imageHead (b : List Byte) : ImageHead :=
  { magic := leField b 0 4, format := leField b 4 1, kind := leField b 5 1, entries := leField b 6 2,
    code := leField b 8 4, data := leField b 12 4, loc := leField b 16 4, version := leField b 20 4,
    crc := leField b 56 4, pad := leField b 60 4 }

/-- MAGIC, FORMAT and the field ranges of R171. -/
def ImageHead.ok (h : ImageHead) : Bool :=
  h.magic == 0x4E4C4849 && h.format == 1 && decide (h.kind ≤ 1) && decide (1 ≤ h.entries) && decide (h.entries ≤ 256) &&
    h.code % 4 == 0 && decide (h.code ≤ 262144) && h.data % 4096 == 0 && decide (h.data ≤ 268435456) &&
    decide (h.loc ≤ 8128) && h.pad == 0

/-- KiB of code, rounded up (R173). -/
def codeKib (n : Nat) : Nat := (n + 1023) / 1024

/-- Code store in use, in bytes of whole KiB (R156, R173). -/
def State.codeUsed (s : State) : Nat := (s.bnc.images.map fun e => codeKib (4 * e.2.code.length)).sum

/-- Bytes of the Sideboard handler pool: 4 GiB (R314). -/
def handlerPoolSize := 0x100000000

/-- The first place of the handler pool where `n` bytes are free (the spec leaves the choice of place open)
(DESIGN CHOICE, log entry 55). -/
def placeIn (n : Nat) : Nat → List (Nat × Nat) → Option Nat
  | a, [] => if a + n ≤ handlerPool + handlerPoolSize then some a else none
  | a, (b, m) :: rest => if a + n ≤ b then some a else placeIn n (b + m) rest

/-- Where a data area of `n` bytes goes (DESIGN CHOICE, log entry 55). -/
def State.dataPlace (s : State) (n : Nat) : Option Nat :=
  let used := (s.bnc.images.filter fun e => e.2.dataLen != 0).map fun e => (e.2.dataBase, e.2.dataLen)
  placeIn n handlerPool (used.mergeSort fun a b => decide (a.1 ≤ b.1))

/-- Entry offsets and direct branch targets are 4-aligned and inside the code (R172). -/
def targetsOk (codeLen : Nat) (offs : List Nat) (ws : List (BitVec 32)) : Bool :=
  let inside (t : Int) : Bool := decide (0 ≤ t) && decide (t < codeLen) && t % 4 == 0
  (offs.all fun o => inside o) && (ws.zipIdx.all fun x =>
    match (decodeBk x.1.toNat).bind fun b => b.target (4 * x.2) with
    | some t => inside t
    | none => true)

/-- The checks of R172 after the slot's, in order: the result, and the image where all pass. -/
def State.checkImage (s : State) (slot addr : Nat) : Nat × Option Image :=
  let h := imageHead (s.sbRead addr 64)
  if !h.ok then (1, none)
  else if h.kind ≠ (if slot < 32 then 0 else 1) then (5, none)
  else
    let body := s.sbRead (addr + 64) (8 * h.entries + h.code)
    let ws := codeWords (h.code / 4) (body.drop (8 * h.entries))
    let entry (i : Nat) : Nat × Bool := (leField body (8 * i) 4, bitOf (leField body (8 * i + 4) 1) 0)
    let es := (List.range h.entries).map entry
    let sigBlock := s.sbRead (addr + 64 + 8 * h.entries + h.code) 256
    let key := sigBlock.take 97
    let signed := decide (Config.sha384 key = Config.rootKeyHash) &&
      Config.ecdsaOk key (Config.sha384 (s.sbRead addr 64 ++ body)) ((sigBlock.drop 97).take 96)
    let prof := if h.kind = 1 then Profile.user else .system
    if (crc32c body).toNat ≠ h.crc then (2, none)
    else if h.kind = 0 ∧ !signed then (8, none)
    else if !(ws.all fun w => decodesFor prof w.toNat) then (3, none)
    else if !targetsOk h.code (es.map (·.1)) ws then (4, none)
    else if 1024 < s.codeUsed + codeKib h.code then (6, none)
    else
      match s.dataPlace h.data with
      | none => (7, none)
      | some a => (0, some { user := h.kind == 1, entries := es, code := ws, dataBase := a, dataLen := h.data,
                             version := h.version })

/-- BNC_LOAD_STATUS and its event as an operation ends (R173). -/
def State.loadEnds (s : State) (slot result : Nat) : State :=
  let s := ((s.setReg BNC_LOAD_STATUS_RESULT 0 result).setReg BNC_LOAD_STATUS_SLOT 0 slot)
  s.raise (if result = 0 then BNC_EVENT_LOAD_DONE else BNC_EVENT_LOAD_FAILED)

/-- A write of BNC_LOAD_CMD for a slot by path `p`: system slots belong to the Bureau (R165); one operation runs at a
time (R173). -/
def State.loadCmd (s : State) (p : Path) (slot : Nat) (f : State → State) : State :=
  if slot < 32 ∧ p ≠ .bureau then s.logErr 0x05 p BNC_LOAD_CMD_OP.addr
  else if s.flag BNC_LOAD_STATUS_BUSY then (s.setReg BNC_LOAD_STATUS_RESULT 0 11).raise BNC_EVENT_LOAD_FAILED
  else f s

/-- Slot states (R173). -/
def slotEmpty := 0
def slotLoading := 1
def slotLoaded := 2

/-- OP 1: the load starts, or ends at once where the slot is not EMPTY (R172). -/
def State.loadStart (s : State) (slot : Nat) : State :=
  if s.reg BNC_SLOT_STATE_STATE slot ≠ slotEmpty then s.loadEnds slot 9
  else
    let s := { s with bnc := { s.bnc with loading := some (slot, s.reg BNC_LOAD_ADDR_ADDR) } }
    ((s.setReg BNC_SLOT_STATE_STATE slot slotLoading).setFlag BNC_LOAD_STATUS_BUSY 0 true).setReg BNC_LOAD_STATUS_SLOT 0 slot

/-- An image in its slot: its code counted, its data area zeroed (R172). -/
def State.putImage (s : State) (slot : Nat) (im : Image) : State :=
  let zeroed := s.sbd.mem.filter fun e => decide (e.1 < im.dataBase) || decide (im.dataBase + im.dataLen ≤ e.1)
  let s := { s with bnc := { s.bnc with images := SMap.put slot im s.bnc.images }, sbd := { s.sbd with mem := zeroed } }
  let s := (s.setReg BNC_SLOT_STATE_STATE slot slotLoaded).setReg BNC_SLOT_STATE_KIND slot (Bool.nat im.user)
  (s.setReg BNC_SLOT_STATE_CODE_KIB slot (codeKib (4 * im.code.length))).setReg BNC_CODE_USED_COUNT 0 s.codeUsed

/-- The verification ends (R172). -/
def State.loadDone (s : State) : State :=
  match s.bnc.loading with
  | none => s
  | some (slot, addr) =>
    let (r, im) := s.checkImage slot addr
    let s := { s with bnc := { s.bnc with loading := none } }.setFlag BNC_LOAD_STATUS_BUSY 0 false
    let s := match im with
      | some im => s.putImage slot im
      | none => s.setReg BNC_SLOT_STATE_STATE slot slotEmpty
    s.loadEnds slot r

/-- A slot is bound by the pending, current or previous handler table, or a command in flight runs it (R164). -/
def State.slotInUse (s : State) (slot : Nat) : Bool :=
  (boundSlots s.regs.pend).contains slot || (boundSlots s.regs.cur).contains slot ||
    (s.flag CFG_STATUS_PREV_VALID && (boundSlots s.regs.prev).contains slot) ||
    s.cmd.frames.any fun e => e.2.slot == slot && e.2.phase != .fenced

/-- OP 2: the slot becomes EMPTY, its code store and data area free, or the unload is refused (R164, R172)
(DEDUCED, log entry 54). -/
def State.unload (s : State) (slot : Nat) : State :=
  if s.slotInUse slot then s.loadEnds slot 10
  else
    let s := { s with bnc := { s.bnc with images := SMap.del slot s.bnc.images } }
    let s := (s.setReg BNC_SLOT_STATE_STATE slot slotEmpty).setReg BNC_SLOT_STATE_KIND slot 0
    ((s.setReg BNC_SLOT_STATE_CODE_KIB slot 0).setReg BNC_CODE_USED_COUNT 0 s.codeUsed).loadEnds slot 0

end Sys2Proof.Machine
end

