-- ==== Sys2Proof/Machine/Rebuild.lean ====
section
/-! DEFINITION. Budgeted work on sets: resync, copy-back, reshape and rebuild, their checkpoints, what an offline set and a
takeover resume from, and the commands of PAR_RB_CMD (R264, R271 to R278, R284 to R291, R294). -/

namespace Sys2Proof.Machine

open Sys2Proof.Reg

/-! ### Records of long-running work (R277, R288, R292) -/

/-- A record of no command's write: its drive writes are complete. -/
def State.putTaskRecord (s : State) (r : Record) : State :=
  match s.freeRecSlot with
  | some k => s.putRecord k { r with writesDone := true }
  | none => s

/-- Up to two positions in work, with their start rows and targets, as bytes 80 to 99 of a rebuild checkpoint. -/
def State.ckptExtra (s : State) (k : Nat) : List Byte :=
  let xs := ((s.positions k).filter fun x => (s.target k x).1 != 0).take 2
  let start (i : Nat) : Nat := match xs[i]? with
    | some x => SMap.get 0 (s.setSt k).startRow x
    | none => 0
  let code (i : Nat) : Nat := match xs[i]? with
    | some x => (s.target k x).2 + if (s.target k x).1 = 2 then 0x80 else 0
    | none => 0
  leBytes 8 (start 0) ++ leBytes 8 (start 1) ++ [b8 (xs.getD 0 0xFF), b8 (xs.getD 1 0xFF), b8 (code 0), b8 (code 1)]

/-- The rebuild checkpoint at the cursor (R277). -/
def State.rebuildCkpt (s : State) (k : Nat) : State :=
  s.putTaskRecord { kind := 0x10, set := k, row := s.cursor k, lost := s.lostMask k, extra := s.ckptExtra k }

/-- The reshape checkpoint at the cursor (R288, R292). -/
def State.reshapeCkpt (s : State) (k : Nat) : State :=
  let mask := ((s.setSt k).added.map (2 ^ ·)).sum
  s.putTaskRecord { kind := 0x12, set := k, row := s.cursor k, lost := s.lostMask k,
                    extra := leBytes 8 mask ++ [b8 (s.newN k), b8 (s.setN k), b8 (Bool.nat (s.setSt k).staged)] }

/-- The records of a task that has ended are retired. -/
def State.retireTask (s : State) (k : Nat) (kinds : List Nat) : State :=
  (s.ldg.recs.filter fun e => e.2.set == k && kinds.contains e.2.kind).foldl (fun s e => s.retireRecord e.1) s

/-! ### The pass (R272, R275, R278) -/

/-- PHASE written. -/
def State.setPhaseOf (s : State) (k v : Nat) : State := s.setReg PAR_RB_STATE_PHASE k v

/-- A position is being worked on: it has a target and its circle is not complete. -/
def State.inWork (s : State) (k x : Nat) : Bool :=
  (s.target k x).1 != 0 && (s.isLost k x || s.flag PAR_POSMAP_REBUILT (32 * k + x)) &&
    SMap.find (s.setSt k).startRow x != some allRows

/-- The strip that position `x` holds in a row of the old layout. -/
def RowAt.stripAt (r : RowAt) (x : Nat) : Nat :=
  ((List.range r.w).find? fun i => r.pos i == x).getD 0

/-- Row `row` holds something of position `x` that its target lacks: a data, P or Q strip, or a spare strip in use. -/
def State.holdsWork (s : State) (k row x : Nat) : Bool :=
  let r := s.oldRow k row
  let i := r.stripAt x
  if i < r.n + 2 then true
  else
    let y := s.spareServes k (i - r.n - 2)
    y != 0xFF && (!s.isLost k y || s.behind k y row)

/-- Where a target's strip of a row lies: none on a lost position. -/
def State.targetHome (s : State) (k row x : Nat) : Option Nat :=
  match s.target k x with
  | (1, h) => s.spareHome (s.oldRow k row) h
  | (2, d) => some d
  | _ => none

/-- The positions that a piece of row `row` restores. -/
def State.rowWork (s : State) (k row : Nat) : List Nat :=
  (s.positions k).filter fun x => s.inWork k x && !s.behind k x row && s.holdsWork k row x && (s.targetHome k row x).isSome

/-- The set's pass may run: not offline, not paused, not reshaping, a rate, and its state allows it (R271, R276). -/
def State.passRuns (s : State) (k : Nat) : Bool :=
  s.setExists k && !s.setOffline k && !s.reshaping k && !(s.setSt k).paused && s.reg PAR_RB_RATE_RATE k != 0 &&
    (s.positions k).any (s.inWork k) && (s.reg PAR_SET_STATE_STATE k == 2 || s.lostMask k == 0)

/-- Position `x` is restored: a spare takes its place, or a replacement becomes its Drawer and the spare that served it is
free (R271, R272). -/
def State.restorePos (s : State) (k x : Nat) : State :=
  let (tk, tv) := s.target k x
  let s := (s.setReg PAR_SET_STATE_LOST k (s.lostMask k - if s.isLost k x then 2 ^ x else 0)).setFlag PAR_POSMAP_LOST
    (32 * k + x) false
  let s := (s.setReg PAR_POSMAP_TKIND (32 * k + x) 0).setReg PAR_POSMAP_TARGET (32 * k + x) 0
  let s := s.updSet k fun t => { t with startRow := SMap.del x t.startRow, uncovered := SMap.del x t.uncovered }
  let s :=
    if tk = 2 then
      let s := (s.updSet k fun t => { t with moved := SMap.put x tv t.moved }).setFlag PAR_POSMAP_REBUILT (32 * k + x) false
      match (List.range 2).find? fun h => s.spareServes k h == x with
      | some h => s.setSpare k h 0xFF
      | none => s
    else s.setFlag PAR_POSMAP_REBUILT (32 * k + x) true
  -- rows of other positions whose target strip lay on x are covered (R272)
  let s := s.updSet k fun t => { t with uncovered := t.uncovered.mapVal fun _ l => l.filter fun e => e.1 != x }
  s.countUncovered k

/-- Every position whose circle is complete and has no uncovered row leaves L; an empty L ends the rebuild (R271, R272). -/
def State.settlePositions (s : State) (k : Nat) : State :=
  let before := s.lostMask k
  let ready (s : State) (x : Nat) : Bool :=
    (s.target k x).1 != 0 && SMap.find (s.setSt k).startRow x == some allRows && SMap.get [] (s.setSt k).uncovered x == []
  let once (s : State) : State := (s.positions k).foldl (fun s x => if ready s x then s.restorePos k x else s) s
  let s := once (once s)
  let s := if before ≠ 0 ∧ s.lostMask k = 0 then
      let s := (if s.setOffline k ∨ s.reshaping k then s else s.setSetState k 0).raise PAR_RB_EVENT_REBUILT
      s.setRecord k 3 0xFF 0
    else s.settleState k
  if (s.positions k).any (s.inWork k) then s
  else if s.reshaping k then s
  else (s.setPhaseOf k 0).retireTask k [0x10]

/-- The row at the cursor is complete: the cursor moves on, the positions whose start row comes round have their circle, a
position whose target strip is lost leaves the row uncovered, and every 256th row takes a checkpoint (R272, R275, R277). -/
def State.rowComplete (s : State) (k : Nat) : State :=
  let row := s.cursor k
  let done := (s.rowWork k row).length
  let open_ := (s.positions k).filter fun x =>
    s.inWork k x && !s.behind k x row && s.holdsWork k row x && (s.targetHome k row x).isNone
  let s := open_.foldl (fun s x =>
    s.addUncovered k x ((s.oldRow k row).pos (s.setN k + 2 + (s.target k x).2)) 1) s
  let s := s.bumpBy PAR_RB_ROWS 0 done {}
  let next := if row + 1 < s.setRows k then row + 1 else 0
  let s := (s.setCursor k next).updSet k fun t => { t with
    startRow := t.startRow.mapVal fun _ a => if a = next then allRows else a, nextBoff := 0 }
  let s := if next % 256 = 0 then s.rebuildCkpt k else s
  s.settlePositions k

/-- Rows in which nothing remains to be done are passed over at no cost (R275) (DEDUCED, log entry 67). -/
def State.skipRows (s : State) (k : Nat) : Nat → State
  | 0 => s
  | n + 1 => if s.passRuns k ∧ s.rowWork k (s.cursor k) = [] then (s.rowComplete k).skipRows k n else s

/-! ### The budget (R276) -/

/-- Bytes of a strip's blocks. -/
def blockBytes (n : Nat) : Nat := 4096 * n

/-- Columns of a rebuild piece. -/
def State.pieceColumns (s : State) (k : Nat) : Nat := min 16 (s.setSb k)

/-- The set's largest possible piece: a double-loss rebuild piece, or a reshape row. -/
def State.largestPiece (s : State) (k : Nat) : Nat :=
  max ((s.setN k + 2) * blockBytes (s.pieceColumns k))
    (if s.reshaping k then (2 * s.newN k + 2) * blockBytes (s.setSb k) else 0)

/-- One epoch's gain. -/
def State.rbGain (s : State) (k : Nat) : Nat := s.perEpoch (s.reg PAR_RB_RATE_RATE k) 1000

/-- Action 7: the budget gains, up to its cap. -/
def State.gainBudget (s : State) (k : Nat) : State :=
  let g := s.rbGain k
  let cap := max (2 * g) (s.largestPiece k)
  s.updSet k fun t => { t with budget := min cap (t.budget + g) }

/-- The old rows staged before any new row, and Z (R287): the least r with (r + 1) × N ≤ (r − 512) × N'. -/
def State.openingZone (s : State) (k : Nat) : Nat :=
  let n := s.setN k
  let n' := s.newN k
  if n' ≤ n then 0 else (n + 512 * n' + (n' - n) - 1) / (n' - n)

/-- Old rows to stage: ceil(Z × N' / N). -/
def State.stagedRows (s : State) (k : Nat) : Nat :=
  if s.setN k = 0 then 0 else (s.openingZone k * s.newN k + s.setN k - 1) / s.setN k

/-- New rows a reshape writes: ceil(ROWS × N / N'). -/
def State.newRows (s : State) (k : Nat) : Nat :=
  if s.newN k = 0 then 0 else (s.setRows k * s.setN k + s.newN k - 1) / s.newN k

/-- The row of the newest confirmed checkpoint. -/
def State.ckptRow (s : State) (k : Nat) : Nat :=
  s.reg PAR_RB_STATE_CKPT_LO k + 2 ^ 32 * s.reg PAR_RB_STATE_CKPT_HI k

/-- New row `r` may be written over the old row (R287). -/
def State.rowAllowed (s : State) (k r : Nat) : Bool :=
  decide (r < s.openingZone k) || decide ((r + 1) * s.setN k ≤ s.ckptRow k * s.newN k)

/-- The next piece of a set in the order that its budget pays (R276), with its cost and its columns' count
(DEDUCED, log entry 67). -/
def State.nextRbPiece (s : State) (k : Nat) : Option (Piece × Nat × Nat) :=
  let rated := s.reg PAR_RB_RATE_RATE k != 0
  let t := s.setSt k
  if !s.setExists k ∨ s.setOffline k ∨ !rated then none
  else
    match s.par.resync.find? fun y => y.set == k && !y.ofOpen with
    | some y =>
      let c := min (s.pieceColumns k) y.count
      some ({ kind := 1, row := y.row, boff := y.boff }, (s.setN k + 2) * blockBytes c, c)
    | none =>
      if t.paused then none
      else if s.reshaping k then
        if !t.staged then none
        else if s.cursor k < s.newRows k ∧ s.rowAllowed k (s.cursor k) then
          some ({ kind := 4, row := s.cursor k }, (2 * s.newN k + 2) * blockBytes (s.setSb k), s.setSb k)
        else none
      else if s.passRuns k then
        let w := s.rowWork k (s.cursor k)
        let c := min (s.pieceColumns k) (s.setSb k - t.nextBoff)
        let lost := w.filter (s.isLost k)
        let kind := if lost = [] then 2 else 5
        let strips := (if lost = [] then w.length else s.setN k) + w.length
        if w = [] then none
        else some ({ kind := kind, row := s.cursor k, boff := t.nextBoff }, strips * blockBytes c, c)
      else none

/-- Some holder has the columns of a piece, or a drive write to them is under way (R257, R275). -/
def State.columnsHeld (s : State) (k row boff n : Nat) : Bool :=
  s.columnsWritten k row boff n || s.par.holders.any fun h => h.set == k && h.row == row && decide (h.boff < boff + n) && decide (boff < h.boff + h.count)

/-- The KIND 6 record of a resync is written before its P and Q are (R16, R264). -/
def State.putResync (s : State) (k row boff n : Nat) : State :=
  match s.freeRecSlot with
  | some i => s.putRecord i { kind := 6, set := k, row := row, boff := boff, bcnt := n, lost := s.recordLost (s.layoutRow k row) }
  | none => s

/-- The rows whose columns a piece holds: its own; a new row of a reshape holds the old rows of its data blocks too, so
that host writes to them wait until it is complete (R286). -/
def State.pieceRows (s : State) (k : Nat) (p : Piece) : List Nat :=
  if p.kind ≠ 4 ∨ s.setN k = 0 then [p.row]
  else
    let lo := p.row * s.newN k / s.setN k
    let hi := ((p.row + 1) * s.newN k - 1) / s.setN k
    (p.row :: (List.range (hi + 1 - lo)).map (· + lo)).eraseDups

/-- Issue the set's next piece where its budget covers it: one at a time, its columns held (R275, R276)
(DEDUCED, log entry 67). -/
def State.issuePiece (s : State) (k : Nat) : State :=
  if (s.setSt k).piece.isSome then s
  else
    let s := s.skipRows k 64
    match s.nextRbPiece k with
    | none => s
    | some (p, cost, n) =>
      if (s.setSt k).budget < cost ∨ (s.pieceRows k p).any (s.columnsHeld k · p.boff n) then s
      else
        let hs := (s.pieceRows k p).map fun row =>
          ({ set := k, row := row, boff := p.boff, count := n, reads := 1, submitted := true } : Holder)
        let s := s.updSet k fun t => { t with piece := some p, budget := t.budget - cost }
        let s := if p.kind = 1 then s.putResync k p.row p.boff n else s
        { s with par := { s.par with holders := s.par.holders ++ hs } }

/-- A piece's columns are free again, and what waited for them goes on. -/
def State.pieceOver (s : State) (k : Nat) : State := (s.dropPieceHolders k).updSet k fun t => { t with piece := none }

/-- Staging of a set advances while its budget pays for whole old rows, every strip read and written, and no dirty region
awaits its resync (R276, R287)
(DEDUCED, log entry 67). -/
def State.stageRows (s : State) (k : Nat) : State :=
  let t := s.setSt k
  let cost := 2 * s.setW k * blockBytes (s.setSb k)
  let resyncs : Bool := s.par.resync.any fun y => y.set == k && !y.ofOpen
  if s.reshaping k ∧ !t.staged ∧ !t.paused ∧ !s.setOffline k ∧ !resyncs ∧ cost ≠ 0 then
    let n := min (t.budget / cost) (s.stagedRows k - t.stagingRow)
    s.updSet k fun t => { t with stagingRow := t.stagingRow + n, budget := t.budget - n * cost }
  else s

/-- The transitions of R271 at a boundary. -/
def State.setTransitions (s : State) (k : Nat) : State :=
  let st := s.reg PAR_SET_STATE_STATE k
  let ready : Bool := s.hasTarget k && s.reg PAR_RB_RATE_RATE k != 0 && !(s.setSt k).paused
  if st = 1 ∧ ready then ((s.setSetState k 2).setPhaseOf k 1).setRecord k 2 0xFF (s.cursor k)
  else if st = 2 ∧ !ready then s.setSetState k 1
  else s

/-- The reshape ends at the boundary after its last new row: the wider layout becomes the set's in every copy (R289). -/
def State.endReshape (s : State) (k : Nat) : State :=
  let n' := s.newN k
  let w := s.setW k
  let vals := (PAR_SET_N.key k, n') :: (s.setSt k).added.zipIdx.map fun e => (PAR_SETMEM_DRAWER.key (32 * k + w + e.2), e.1)
  let resets := PAR_SET_N.reset k :: (s.setSt k).added.zipIdx.map fun e => PAR_SETMEM_DRAWER.reset (32 * k + w + e.2)
  let put (m : SMap Nat) : SMap Nat := (vals.zip resets).foldl (fun m e => storeField e.2 e.1.1 e.1.2 m) m
  let s := { s with regs := { s.regs with cur := put s.regs.cur, pend := put s.regs.pend, prev := put s.regs.prev } }
  let s := ((s.setReg PAR_RB_STATE_NEWN k 0).setPhaseOf k 0).setCursor k 0
  let s := s.updSet k fun t => { t with added := [], staged := false, stagingRow := 0, nextBoff := 0 }
  let s := (s.setSetState k (if s.lostMask k = 0 then 0 else 1)).retireTask k [0x11, 0x12]
  let s := (s.raise PAR_RB_EVENT_RESHAPED).setRecord k 6 0xFF 0
  -- rebuild waited for the end of the reshape (R290)
  (s.lostPositions k).foldl (fun s x => if (s.target k x).1 = 0 then s.giveTarget k x else s) s

/-- Action 7 of a boundary for one set (R36, R271, R276, R289). -/
def State.setBoundary (s : State) (k : Nat) : State :=
  if !s.setExists k then s
  else
    let s := if s.reshaping k ∧ !s.setOffline k ∧ (s.setSt k).staged ∧ s.newRows k ≤ s.cursor k then s.endReshape k else s
    let s := (s.setTransitions k).gainBudget k
    (s.issuePiece k).stageRows k

/-- Action 7 for every set, while PAR runs on the active. -/
def State.rebuildBoundary (s : State) : State :=
  if s.runs bPAR ∧ s.isActive then (List.range 8).foldl State.setBoundary s else s

/-- REBUILD_PIECE_DONE (R275): the piece's columns hold their targets. -/
def State.pieceDone (s : State) (k : Nat) : State :=
  match (s.setSt k).piece with
  | none => s
  | some p =>
    if p.kind ≠ 2 ∧ p.kind ≠ 5 then s
    else
      let s := s.pieceOver k
      let next := p.boff + s.pieceColumns k
      let s :=
        if p.row ≠ s.cursor k then s
        else if (s.setSt k).nextBoff ≠ p.boff then s
        else if next < s.setSb k then s.updSet k fun t => { t with nextBoff := next }
        else s.rowComplete k
      (s.issuePiece k).pumpAll

/-- RESHAPE_ROW_DONE (R271, R288): the new row takes its record; every 256 rows take a checkpoint; with the last the set is
normal or degraded. -/
def State.reshapeRowDone (s : State) (k : Nat) : State :=
  match (s.setSt k).piece with
  | none => s
  | some p =>
    if p.kind ≠ 4 then s
    else
      let s := s.pieceOver k
      let s := s.putTaskRecord { kind := 0x11, set := k, row := p.row, lost := s.lostMask k }
      let s := (s.setCursor k (p.row + 1)).bump PAR_RS_ROWS
      let s := if (p.row + 1) % 256 = 0 then s.reshapeCkpt k else s
      let s := if s.newRows k ≤ p.row + 1 then s.setSetState k (if s.lostMask k = 0 then 0 else 1) else s
      (s.issuePiece k).pumpAll

/-- RESHAPE_STAGING_DONE (R287): new rows may be written. -/
def State.stagingDone (s : State) (k : Nat) : State :=
  if s.reshaping k ∧ !(s.setSt k).staged ∧ !s.setOffline k then
    let n := s.stagedRows k
    let s := s.updSet k fun t => { t with staged := true, stagingRow := n }
    ((s.setFlag PAR_RB_STATE_STAGING k false).reshapeCkpt k).issuePiece k
  else s

/-! ### Resync (R264) -/

/-- An open or dirty entry without its columns `boff` to `boff + n - 1`. -/
def Resync.cut (y : Resync) (boff n : Nat) : List Resync :=
  let e := y.boff + y.count
  (if y.boff < boff then [{ y with count := min e boff - y.boff }] else []) ++
    (if boff + n < e then [{ y with boff := max (boff + n) y.boff, count := e - max (boff + n) y.boff }] else [])

/-- Columns of a row touch an entry of an open record, or any entry where they are those of the piece in progress. -/
def Resync.touches (y : Resync) (k row boff n : Nat) (isPiece : Bool) : Bool :=
  y.set == k && y.row == row && (y.ofOpen || isPiece) && decide (y.boff < boff + n) && decide (boff < y.boff + y.count)

/-- RESYNC_PIECE_DONE: the columns of an open record, or of the dirty piece in progress, are consistent again; where one
lost data block differs between P and Q the column is damaged, and one with two unknown strips is left as it stands (R264,
R279). -/
def State.resyncDone (s : State) (k row boff n : Nat) (disagree : Bool) : State :=
  let isPiece : Bool := (s.setSt k).piece == some { kind := 1, row := row, boff := boff }
  let hits (y : Resync) : Bool := y.touches k row boff n isPiece
  if !s.par.resync.any hits then s
  else
    let r := s.layoutRow k row
    let unknown := s.rowUnknown r
    let s := if unknown.length < 2 then s.bumpBy PAR_RESYNC 0 n {} else s
    let s := match unknown with
      | [j] =>
        if disagree ∧ j < r.n then
          let s := ((s.damageStrips r [j] boff n 2).bumpBy PAR_DISAGREE 0 n {}).raise PAR_EVENT_DISAGREE
          s.setRecord k 7 (r.pos j) row
        else s
      | _ => s
    let left := s.par.resync.flatMap fun y => if hits y then y.cut boff n else [y]
    let s := { s with par := { s.par with resync := left } }
    let s := if left.any fun y => y.ofOpen && y.set == k && y.row == row then s
      else (s.mapRecords (fun q => q.frame.isNone && q.set == k && q.row == row && decide (q.kind ≤ 6))
        fun q => { q with writesDone := true }).retireReady
    let s := if isPiece then s.pieceOver k else s
    (s.issuePiece k).pumpAll

/-- Columns of an open record join the resync, which takes a record of its own (R264). -/
def State.addOpen (s : State) (r : Record) : State :=
  let y : Resync := { set := r.set, row := r.row, boff := r.boff, count := r.bcnt, ofOpen := true }
  let s := s.putResync r.set r.row r.boff r.bcnt
  { s with par := { s.par with resync := s.par.resync ++ [y] } }

/-- The rows of a dirty region of an existing set join the resync. -/
def State.addDirtyRows (s : State) (key : Nat) : State :=
  let k := key / 2 ^ 32
  let x := key % 2 ^ 32
  if !s.setExists k then s
  else
    let rows := (List.range 256).filterMap fun i => if 256 * x + i < s.setRows k then some (256 * x + i) else none
    let ys := rows.map fun row => ({ set := k, row := row, boff := 0, count := s.setSb k } : Resync)
    { s with par := { s.par with resync := s.par.resync ++ ys } }

/-- Every open intent record of a set is resynced before new writes enter (R264, R284). -/
def State.resyncOpen (s : State) (k : Nat) : State :=
  let open_ := (s.ldg.recs.filter fun e => e.2.set == k && decide (e.2.kind ≤ 6) && e.2.sealed.isSome).map (·.2)
  let s := s.mapRecords (fun q => q.set == k && decide (q.kind ≤ 6)) fun q => { q with frame := none, writesDone := false }
  open_.foldl (fun s r => s.addOpen r) s

/-! ### Resumption (R283, R284, R291) -/

/-- The newest sealed record of a kind. -/
def State.newestRecord (s : State) (kd k : Nat) : Option Record :=
  ((s.ldg.recs.filter fun e => e.2.kind == kd && e.2.set == k && e.2.sealed.isSome).map (·.2)).foldl
    (fun b r => match b with
      | none => some r
      | some c => if c.rseq < r.rseq then some r else some c) none

/-- One row beyond the highest contiguous row record from `r` on (R291). -/
def State.contiguousRows (s : State) (k : Nat) (r : Nat) : Nat → Nat
  | 0 => r
  | n + 1 =>
    if s.ldg.recs.any fun e => e.2.kind == 0x11 && e.2.set == k && e.2.row == r && e.2.sealed.isSome then
      s.contiguousRows k (r + 1) n
    else r

/-- A position's work as a checkpoint records it. -/
def State.resumePos (s : State) (k x start code lost : Nat) : State :=
  if x = 0xFF then s
  else
    let i := 32 * k + x
    let s := if bitOf lost x then s else s.setFlag PAR_POSMAP_REBUILT i true
    let s := s.updSet k fun t => { t with startRow := SMap.put x start t.startRow }
    if 0x80 ≤ code then (s.setReg PAR_POSMAP_TKIND i 2).setReg PAR_POSMAP_TARGET i (code - 0x80)
    else ((s.setReg PAR_POSMAP_TKIND i 1).setReg PAR_POSMAP_TARGET i code).setSpare k code x

/-- L as a checkpoint records it (R292). -/
def State.restoreLost (s : State) (k lost : Nat) : State :=
  ((List.range 26).filter (bitOf lost)).foldl (fun s x => s.setFlag PAR_POSMAP_LOST (32 * k + x) true)
    (s.setReg PAR_SET_STATE_LOST k (s.lostMask k ||| lost % 2 ^ 26))

/-- A set resumes its rebuild from its newest checkpoint (R291). -/
def State.resumeRebuild (s : State) (k : Nat) (r : Record) : State :=
  let f (o n : Nat) : Nat := leNat ((r.extra.drop o).take n)
  let s := s.restoreLost k r.lost
  let s := (s.setCursor k r.row).updSet k fun t => { t with nextBoff := 0, piece := none }
  let s := s.resumePos k (f 16 1) (f 0 8) (f 18 1) r.lost
  let s := s.resumePos k (f 17 1) (f 8 8) (f 19 1) r.lost
  let s := if s.lostMask k ≠ 0 ∧ s.reg PAR_SET_STATE_STATE k = 0 then s.setSetState k 1 else s
  s.setPhaseOf k 1

/-- A set resumes its reshape from its newest checkpoint and the row records above it (R291)
(DEDUCED, log entry 67). -/
def State.resumeReshape (s : State) (k : Nat) (r : Record) : State :=
  let f (o n : Nat) : Nat := leNat ((r.extra.drop o).take n)
  let ds := (List.range 48).filter fun d => bitOf (f 0 8) d
  let staged := f 10 1 % 2 == 1
  let s := ((s.restoreLost k r.lost).setReg PAR_RB_STATE_NEWN k (f 8 1)).setPhaseOf k 2
  let s := s.setFlag PAR_RB_STATE_STAGING k (!staged)
  let s := s.updSet k fun t => { t with added := ds, staged := staged, stagingRow := 0, piece := none, nextBoff := 0 }
  let s := if s.setOffline k then s else s.setSetState k 3
  s.setCursor k (s.contiguousRows k r.row 512)

/-- A set resumes whatever ran on it. -/
def State.resumeSet (s : State) (k : Nat) : State :=
  if !s.setExists k then s
  else
    match s.newestRecord 0x12 k with
    | some r => s.resumeReshape k r
    | none =>
      match s.newestRecord 0x10 k with
      | some r => s.resumeRebuild k r
      | none => s

/-- Without a checkpoint, every position in work begins its circle again at the cursor (DEDUCED, log entry 67). -/
def State.restartCircles (s : State) (k : Nat) : State :=
  let c := s.cursor k
  s.updSet k fun t => { t with startRow := t.startRow.mapVal fun _ a => if a = allRows then a else c,
                               nextBoff := 0, piece := none }

/-! ### PAR_RB_CMD (R284, R285, R294) -/

/-- The result of a PAR_RB_CMD; a non-zero one sets CMD_REFUSED. -/
def State.rbResult (s : State) (op result : Nat) : State :=
  let s := (s.setReg PAR_RB_RESULT_RESULT 0 result).setReg PAR_RB_RESULT_OP 0 op
  if result = 0 then s else s.raise PAR_RB_EVENT_CMD_REFUSED

/-- A Drawer that may join a set: READY, in no set, no set's target, and large enough (R272, R285). -/
def State.joinable (s : State) (k d : Nat) : Bool :=
  s.isReady d && (s.memberOf d).isNone &&
    ((List.range 8).all fun j => !s.setExists j || (s.positions j).all fun x => s.target j x != (2, d)) &&
    decide (s.setBase k + s.setRows k * s.setSb k ≤ s.dUnits d)

/-- OP 1 (R272). -/
def State.rbTarget (s : State) (k x d : Nat) : State :=
  if !s.setExists k ∨ s.setOffline k ∨ s.reshaping k then s.rbResult 1 1
  else
    let tk := (s.target k x).1
    let open_ := SMap.get [] (s.setSt k).uncovered x != []
    let stuck : Bool := s.isLost k x && tk == 1 && SMap.find (s.setSt k).startRow x == some allRows && open_
    let fresh : Bool := tk == 0 && (s.isLost k x || s.flag PAR_POSMAP_REBUILT (32 * k + x))
    if s.setW k ≤ x ∨ !(fresh ∨ stuck) then s.rbResult 1 2
    else if !s.joinable k d then s.rbResult 1 3
    else
      let i := 32 * k + x
      let s := (s.setReg PAR_POSMAP_TKIND i 2).setReg PAR_POSMAP_TARGET i d
      let c := s.cursor k
      let s := s.updSet k fun t => { t with startRow := SMap.put x c t.startRow, uncovered := SMap.del x t.uncovered,
                                            nextBoff := 0 }
      let s := if s.reg PAR_RB_STATE_PHASE k = 0 then s.setPhaseOf k 1 else s
      (s.countUncovered k).rbResult 1 0

/-- OP 2 (R285): checks 1, 4, 5 and 6 in order. -/
def State.rbReshape (s : State) (k newn : Nat) : State :=
  let mask := s.reg PAR_RS_ADD_MASK
  let ds := (List.range 48).filter fun d => bitOf mask d
  let n := s.setN k
  if !s.setExists k ∨ s.reg PAR_SET_STATE_STATE k ≠ 0 ∨ s.reshaping k then s.rbResult 2 1
  else if newn ≤ n ∨ 22 < newn then s.rbResult 2 4
  else if ds.length ≠ newn - n ∨ !ds.all (s.joinable k) then s.rbResult 2 5
  else
    let t := s.setReg PAR_RB_STATE_NEWN k newn
    let strips := (t.stagedRows k * s.setW k + (newn - n) - 1) / (newn - n)
    if s.setRows k - t.newRows k < strips then s.rbResult 2 6
    else
      let s := (((t.setSetState k 3).setPhaseOf k 2).setFlag PAR_RB_STATE_STAGING k true).setCursor k 0
      let s := s.updSet k fun t => { t with added := ds, staged := false, stagingRow := 0, nextBoff := 0 }
      (s.reshapeCkpt k).rbResult 2 0

/-- OP 3 (R284). -/
def State.rbRevive (s : State) (k d : Nat) : State :=
  let t := s.setSt k
  if !s.setExists k ∨ !s.setOffline k then s.rbResult 3 7
  else
    let s? : Option State :=
      match t.offlineDrawer with
      | some d' =>
        match s.memberOf d' with
        | some (_, x) =>
          if d = d' ∧ s.isReady d ∧ s.reg DRV_NGUID_ID d = t.offlineId then
            some ((s.setReg PAR_SET_STATE_LOST k (s.lostMask k - if s.isLost k x then 2 ^ x else 0)).setFlag
              PAR_POSMAP_LOST (32 * k + x) false)
          else none
        | none => none
      | none => if s.damageRecs.length < 4096 then some s else none
    match s? with
    | none => s.rbResult 3 7
    | some s =>
      let s := (s.setSetState k t.offlineFrom).resyncOpen k
      let s := match s.newestRecord 0x12 k, s.newestRecord 0x10 k with
        | some r, _ => s.resumeReshape k r
        | none, some r => s.resumeRebuild k r
        | none, none => s.restartCircles k
      (s.updSet k fun t => { t with offlineDrawer := none, offlineId := 0 }).rbResult 3 0

/-- OP 4 (R271, R294). -/
def State.rbPause (s : State) (k : Nat) : State :=
  let ph := s.reg PAR_RB_STATE_PHASE k
  if !s.setExists k ∨ s.setOffline k ∨ (ph ≠ 1 ∧ ph ≠ 2) then s.rbResult 4 1
  else
    let s := (s.setPhaseOf k 3).updSet k fun t => { t with paused := true }
    let s := if s.reg PAR_SET_STATE_STATE k = 2 then s.setSetState k 1 else s
    s.rbResult 4 0

/-- OP 5 (R294). -/
def State.rbResume (s : State) (k : Nat) : State :=
  if !s.setExists k ∨ s.setOffline k ∨ s.reg PAR_RB_STATE_PHASE k ≠ 3 then s.rbResult 5 1
  else
    let s := (s.setPhaseOf k (if s.reshaping k then 2 else 1)).updSet k fun t => { t with paused := false }
    s.rbResult 5 0

/-- A write of PAR_RB_CMD: an OP other than 1 to 5 is ignored (R294). -/
def State.rbCommand (s : State) (op k x d newn : Nat) : State :=
  match op with
  | 1 => s.rbTarget k x d
  | 2 => s.rbReshape k newn
  | 3 => s.rbRevive k d
  | 4 => s.rbPause k
  | 5 => s.rbResume k
  | _ => s

/-! ### Write-backs and the start of the parity block -/

/-- A recovered block's write-back ended: its columns are free; one that failed loses the member (R270, R273). -/
def State.repairWritten (s : State) (k x block : Nat) (ok : Bool) : State :=
  if !s.par.repairs.contains (k, x, block) then s
  else
    let sb := s.setSb k
    let row := (block - s.setBase k) / sb
    let boff := (block - s.setBase k) % sb
    let s := { s with par := { s.par with repairs := s.par.repairs.erase (k, x, block) } }
    let h? := s.par.holders.find? fun h => h.frame.isNone && h.set == k && h.row == row && h.boff == boff && !h.submitted
    let s := match h? with
      | some h => { s with par := { s.par with holders := s.par.holders.erase h } }
      | none => s
    (if ok then s else s.losePosition (s.posDrawer k x)).pumpAll

/-- PAR_CMD.START (R268, R430). -/
def State.parDoStart (s : State) (p : Path) : State :=
  s.startBlock p PAR_CMD_START.addr bPAR PAR_EVENT_CMD_REFUSED [bDRV] id

/-- PAR_CMD.STOP (R268): refused while the drive ports or LDG run. -/
def State.parDoStop (s : State) : State :=
  s.stopBlock bPAR (s.runs bDRV || s.runs bLDG) PAR_EVENT_CMD_REFUSED id

end Sys2Proof.Machine
end

