-- ==== Sys2Proof/Machine/Slots.lean ====
section
/-! DEFINITION. A slot channel's states and its power-good, as the Drawer logic and the channel's own faults move it
(R361 to R368). The analog quantities are those of the last ADC_SAMPLE. -/

namespace Sys2Proof.Machine

open Sys2Proof.Reg

/-- Channel states (R376). -/
def chOFF := 0
def chSTART := 1
def chRAMP := 2
def chON := 3
def chRETRY_WAIT := 4
def chLATCHED := 5

/-- What a channel's comparators and loops act on (R362 to R366, R376), in mA, W × 2, 0.1 V/ms, µs and mV. -/
structure SlotSettings where
  itrip : Nat
  ilim : Nat
  plim : Nat
  slew : Nat
  tfault : Nat
  pgRise : Nat
  pgFall : Nat
  deriving DecidableEq, Repr

/-- A channel's settings as they act: codes beyond a bound act as the bound, an ILIM at or above ITRIP as ITRIP − 1 A, a
PG_FALL at or above PG_RISE as PG_RISE − 200 mV (R376). -/
def State.slotSettings (s : State) (d : Nat) : SlotSettings :=
  let itrip := 6000 + 250 * min 56 (s.reg SLP_CH_ITRIP d)
  let ilim := 2000 + 250 * min 72 (s.reg SLP_CH_ILIM d)
  let rise := s.reg SLP_CH_PG_RISE d
  let fall := s.reg SLP_CH_PG_FALL d
  { itrip := itrip, ilim := if itrip ≤ ilim then itrip - 1000 else ilim,
    plim := min 80 (max 4 (s.reg SLP_CH_PLIM d)), slew := min 50 (max 1 (s.reg SLP_CH_SLEW d)),
    tfault := 250 * (s.reg SLP_CH_TFAULT d + 1), pgRise := rise, pgFall := if rise ≤ fall then rise - 200 else fall }

/-- The fold-back limit in mA, from the voltages across the FET in mV: min(ILIM, PLIM ÷ max(VIN − VOUT, 0.5 V)) (R362). -/
def SlotSettings.foldback (c : SlotSettings) (vin vout : Nat) : Nat := min c.ilim (c.plim * 500000 / max (vin - vout) 500)

/-- A channel's state. -/
def State.chState (s : State) (d : Nat) : Nat := s.reg SLP_CH_STATE d
def State.setChState (s : State) (d v : Nat) : State := s.setReg SLP_CH_STATE d v

/-- Power-good deasserts; an asserted one that does is reported (R365). -/
def State.dropPg (s : State) (d : Nat) : State :=
  if s.flag SLP_CH_PG d then
    ((s.setFlag SLP_CH_PG d false).setFlag DRV_STATE_PG d false).raise SLP_EVENT_PG_LOST
  else s

/-- The fault timer and limiting end. -/
def State.endLimiting (s : State) (d : Nat) : State := (s.setFlag SLP_CH_LIMITING d false).setFlag SLP_CH_TIMER d false

/-- A channel starts: it joins an output already within 0.5 V of the bus, else it slews (R361, R367). -/
def State.chStart (s : State) (d : Nat) : State :=
  let bus := s.reg SLP_STATUS_BUS_MV
  let out := s.reg SLP_CH_VOUT_MV d
  (s.setChState d chSTART).setFlag SLP_CH_JOINED d (decide (bus - out ≤ 500) && decide (out - bus ≤ 500))

/-- The channels take commands: the block runs, and the control link is not silent (R11, R376). -/
def State.chCommands (s : State) : Bool := s.runs bSLP && !s.slp.linkSilent

/-- SLOT_PG of a channel is pulled low: its path is commanded on and its power-good is false (R365). -/
def State.slotPgLow (s : State) (d : Nat) : Bool := s.chState d != chOFF && !s.flag SLP_CH_PG d

/-- The Drawer logic commands a channel on (R361). -/
def State.slotOn (s : State) (d : Nat) : State := if s.chCommands ∧ s.chState d = chOFF then s.chStart d else s

/-- The Drawer logic commands a channel off, from any state: the retry count and the latch clear (R361, R366). -/
def State.slotOff (s : State) (d : Nat) : State :=
  if s.chCommands then
    (((s.dropPg d).endLimiting d).setReg SLP_CH_RETRIES d 0).setChState d chOFF
  else s

/-- 200 µs after START: ON when joining, else RAMP (R361, R367). -/
def State.startPhaseEnd (s : State) (d : Nat) : State :=
  if s.chState d = chSTART then s.setChState d (if s.flag SLP_CH_JOINED d then chON else chRAMP) else s

/-- SG_OUT reached VIN − 0.3 V (R361) (DEDUCED, log entry 69). -/
def State.rampComplete (s : State) (d : Nat) : State := if s.chState d = chRAMP then s.setChState d chON else s

/-- Limiting begins: the fault timer starts, and power-good deasserts (R364, R365, R374). -/
def State.limitingStart (s : State) (d : Nat) : State :=
  if s.chState d = chRAMP ∨ s.chState d = chON then
    ((s.setFlag SLP_CH_LIMITING d true).setFlag SLP_CH_TIMER d true).dropPg d
  else s

/-- The power-good condition has held for 1 ms (R365): RAMP or ON, the timer not running (DEDUCED, log entry 69). -/
def State.pgAsserts (s : State) (d : Nat) : State :=
  if (s.chState d = chRAMP ∨ s.chState d = chON) ∧ !s.flag SLP_CH_TIMER d then
    (s.setFlag SLP_CH_PG d true).setFlag DRV_STATE_PG d true
  else s

/-- RETRY_MS after a fault the channel starts again (R361, R366) (DEDUCED, log entry 69). -/
def State.retryStart (s : State) (d : Nat) : State :=
  if s.chState d = chRETRY_WAIT then (s.setReg SLP_CH_RETRIES d (min 15 (s.reg SLP_CH_RETRIES d + 1))).chStart d else s

/-- Power-good held for 1 s clears the retry count (R361). -/
def State.retriesClear (s : State) (d : Nat) : State :=
  if s.flag SLP_CH_PG d then s.setReg SLP_CH_RETRIES d 0 else s

/-- The control link to the power die is silent for 64 µs: the channels keep their states and take no command (R11). -/
def State.setLinkSilent (s : State) (b : Bool) : State := { s with slp := { s.slp with linkSilent := b } }

end Sys2Proof.Machine
end

