-- ==== Sys2Proof/Machine/Drawers.lean ====
section
/-! DEFINITION. Drawers: their states and admission, the commands of DRV_CMD, and how the commands at a drive end when it
resets, fails or goes away (R295 to R301, R307 to R313). -/

namespace Sys2Proof.Machine

open Sys2Proof.Reg

/-! ### State changes (R300, R405) -/

/-- An event record of a Drawer. -/
def State.drawerRecord (s : State) (d old new ev : Nat) : State :=
  s.record 0x50 (if new = dREADY ∧ ev = 1 then 1 else 2) bDRV
    [b8 d, b8 old, b8 new, b8 (s.reg DRV_STATE_REASON d), b8 ev, b8 (s.reg DRV_WARN_CW d)]

/-- A Drawer enters a state (R300). -/
def State.enterDrawer (s : State) (d new : Nat) : State :=
  let old := s.dState d
  (s.setReg DRV_STATE_STATE d new).drawerRecord d old new 1

/-- The timer a Drawer runs. -/
def State.setTimer (s : State) (d n : Nat) : State := s.updDrawer d fun w => { w with timer := n }

/-- PERST_N of a Drawer. -/
def State.setPerst (s : State) (d : Nat) (released : Bool) : State := s.updDrawer d fun w => { w with perstReleased := released }

/-! ### The commands of a Drawer that leaves READY (R310) -/

/-- Every command a Drawer holds ends: reads are recovered by reconstruction, everything else is skipped as a write to a
lost member; its queues start afresh (DEDUCED, log entry 68). -/
def State.endHeld (s : State) (d : Nat) : State :=
  let w := s.drawer d
  let ops := ((w.ctxs.map (·.2)).filter NvmeCtx.holdsOp).map (·.op) ++ w.pend ++ w.again ++ w.nnr
  let firsts := distinctOps ops
  let turn (m : SMap Nat) (k : Nat) : SMap Nat := SMap.put k ((SMap.get 0 m k + 1) % 64) m
  let s := s.updDrawer d fun w => { w with
    ctxs := [], pend := [], again := [], nnr := [], rot := (w.ctxs.map (·.1)).foldl turn w.rot, sqTail := [], cqHead := [],
    cqPass := [], cqNew := [], doorbells := [], aborts := [], adminOut := false }
  let s := s.countCtxs d
  firsts.foldl (fun s o => match o.kind with
    | .read => s.jobFailed o true
    | _ => s.endOpOf o) s

/-- A Drawer that left READY or RESET for FAILED or EMPTY is removed or failed: its position and its ledger role are lost,
and its commands end (R265, R270, R310) (DEDUCED, log entry 73). -/
def State.driveGone (s : State) (d : Nat) : State := (((s.loseDrawer d).ledgerDriveLost d).endHeld d).pumpAll

/-- A Drawer fails with a reason (R297, R300) (DEDUCED, log entry 73). -/
def State.failDrawer (s : State) (d reason : Nat) : State :=
  let old := s.dState d
  let s := ((s.setReg DRV_STATE_REASON d reason).setTimer d 0).enterDrawer d dFAILED
  let s := (s.updDrawer d fun w => { w with adminOut := false, aborts := [] }).raise DRV_EVENT_FAILED d
  if old = dREADY ∨ old = dRESET then s.driveGone d else s

/-- A Drawer becomes READY: what its reset ended is submitted again, and the active holds its reservation (R299, R300,
R310). -/
def State.enterReady (s : State) (d : Nat) : State :=
  let s := s.updDrawer d fun w => { w with
    timer := 0, fenced := false, adminOut := false, pend := w.again ++ w.pend, again := [] }
  let s := { s with hng := { s.hng with acquiring := s.hng.acquiring.filter (· != d) } }
  ((s.enterDrawer d dREADY).raise DRV_EVENT_READY d).pumpAll

/-- A Drawer enters RESET: its reads are recovered, or sent again as everything else is (R300, R307, R310)
(DEDUCED, log entry 68). -/
def State.resetDrawer (s : State) (d : Nat) : State :=
  if s.dState d ≠ dREADY then s
  else
    let w := s.drawer d
    let live := (w.ctxs.filter fun e => e.2.quar.isNone)
    let turn (m : SMap Nat) (k : Nat) : SMap Nat := SMap.put k ((SMap.get 0 m k + 1) % 64) m
    let cyc := s.rtu.cycle
    let s := s.updDrawer d fun w => { w with
      ctxs := w.ctxs.filter (fun e => e.2.quar.isSome), rot := (live.map (·.1)).foldl turn w.rot, sqTail := [],
      cqHead := [], cqPass := [], cqNew := [], doorbells := [], aborts := [], adminOut := true, adminSince := cyc }
    let s := ((s.countCtxs d).enterDrawer d dRESET).bump DRV_RESETS d
    (live.map (·.2.op)).foldl (fun s o =>
      if o.kind = .read ∧ s.recoverable o then s.jobFailed o false
      else s.updDrawer d fun w => { w with again := w.again ++ [o] }) s

/-! ### Contexts (R307, R308) -/

/-- A quarantined context's original is accounted for; a write whose reissue is complete ends (R308). -/
def State.accountCtx (s : State) (d key : Nat) : State :=
  match SMap.find (s.drawer d).ctxs key with
  | none => s
  | some c =>
    if c.quar.isNone ∨ c.accounted then s
    else
      let s := s.updDrawer d fun w => { w with ctxs := SMap.put key { c with accounted := true } w.ctxs }
      if c.op.kind ≠ .read ∧ c.op.owner.isSome then s.opDone c.op else s

/-- A reset of the Drawer accounts for every original (R308). -/
def State.accountAll (s : State) (d : Nat) : State :=
  ((s.drawer d).ctxs.map (·.1)).foldl (fun s k => s.accountCtx d k) s

/-- The timeout of an operation's kind, in epochs; 0 acts as 1 (R313). -/
def State.ioTimeout (s : State) (o : MemberOp) : Nat :=
  max 1 (if o.kind = .read then s.reg DRV_TIMEOUT_RD else s.reg DRV_TIMEOUT_WR)

/-- An entry of Abort, admin opcode 0x08 (its layout is NVMe's, PRESUMED, log entry 13). -/
def abortEntry (acid sq cid : Nat) : List Byte :=
  leBytes 4 (0x08 + 2 ^ 16 * acid) ++ List.replicate 36 0 ++ leBytes 4 (sq + 2 ^ 16 * cid) ++ List.replicate 20 0

/-- An Abort naming a queue and CID goes on the admin queue, queue 0 (R197, R307). -/
def State.sendAbort (s : State) (d sq cid : Nat) : State :=
  let cyc := s.rtu.cycle
  let w := s.drawer d
  let acid := lowestFree 0 (w.aborts.map (·.1))
  let tail := SMap.get 0 w.sqTail 0
  let s := { s with cab := { s.cab with
    queueMem := Mem.writeAll (0x140000 * d + tail * 64) (abortEntry acid sq cid) s.cab.queueMem } }
  let s := s.updDrawer d fun w => { w with
    aborts := SMap.put acid (sq, cid) w.aborts, sqTail := SMap.put 0 ((tail + 1) % 1024) w.sqTail,
    adminSince := if w.aborts = [] ∧ !w.adminOut then cyc else w.adminSince }
  s.ring d 0 ((tail + 1) % 1024)

/-- The key of an outstanding or quarantined context that a queue and CID name (R304). -/
def State.ctxAt (s : State) (d sq cid : Nat) : Option (Nat × NvmeCtx) :=
  (SMap.find (s.drawer d).ctxs (ctxKey sq (cid % 1024))).bind fun c =>
    if c.rot = cid / 1024 then some (ctxKey sq (cid % 1024), c) else none

/-- IO_TIMEOUT (R307, R311): an I/O command past its timeout is aborted, quarantined, and recovered or sent again
(DESIGN CHOICE, log entry 15). -/
def State.timeOut (s : State) (d sq cid : Nat) : State :=
  match s.ctxAt d sq cid with
  | none => s
  | some (key, c) =>
    if c.quar.isSome ∨ s.epoch < c.stamp + s.ioTimeout c.op ∨ s.dState d ≠ dREADY then s
    else
      let s := s.bump (if c.op.kind = .read then DRV_TO_READ else DRV_TO_WRITE) d (s.cmdAttr c.op.owner)
      let s := (s.raise DRV_EVENT_TIMEOUT d).drawerRecord d dREADY dREADY 2
      let e := s.epoch
      let s := s.updDrawer d fun w => { w with ctxs := SMap.put key { c with quar := some e } w.ctxs }
      let s := (s.countCtxs d).sendAbort d sq cid
      (s.opFailed c.op false).pumpAll

/-- Two timeout periods after a timeout: the context is free, or the Drawer is reset (R308). -/
def State.quarantineEnd (s : State) (d sq cid : Nat) : State :=
  match s.ctxAt d sq cid with
  | none => s
  | some (key, c) =>
    match c.quar with
    | none => s
    | some e =>
      if s.epoch < e + 2 * s.ioTimeout c.op then s
      else if c.accounted then (s.freeCtx d key).pumpAll
      else s.resetDrawer d

/-- An admin command exceeds its timeout (R307): the Drawer enters RESET, from INIT as from READY. -/
def State.adminTimeout (s : State) (d : Nat) : State :=
  let w := s.drawer d
  let due := decide (w.adminSince + max 1 (s.reg DRV_ADMIN_TO_CYCLES) ≤ s.rtu.cycle)
  if !due then s
  else if s.dState d = dREADY ∧ w.aborts ≠ [] then s.resetDrawer d
  else if s.dState d = dINIT ∧ w.adminOut then
    let cyc := s.rtu.cycle
    let s := s.updDrawer d fun w => { w with adminSince := cyc }
    (s.enterDrawer d dRESET).bump DRV_RESETS d
  else if s.dState d = dRESET ∧ w.adminOut then s.failDrawer d 3
  else s

/-- A non-posted request of the root port timed out (R307). -/
def State.pcieTimeout (s : State) (d : Nat) : State :=
  let n := (s.drawer d).ctoCount
  let s := s.bump DRV_CTO d
  let s := s.updDrawer d fun w => { w with ctoCount := n + 1 }
  let st := s.dState d
  if st = dINIT then s.failDrawer d 12
  else if st = dREADY ∧ n = 0 then s.resetDrawer d
  else if st = dREADY ∨ st = dRESET then s.failDrawer d 12
  else s

/-! ### Presence, power and training (R300) -/

/-- A Drawer starts to power its slot. -/
def State.powerUp (s : State) (d : Nat) : State := ((s.setTimer d 2).enterDrawer d dPOWERING).slotOn d

/-- PRSNT_N of an EMPTY Drawer asserts: the debounce starts. -/
def State.presenceSeen (s : State) (d : Nat) : State :=
  let s := s.updDrawer d fun w => { w with present := true }
  if s.runs bDRV ∧ s.dState d = dEMPTY then s.setTimer d 1 else s

/-- PRSNT_N held for DEBOUNCE ms: POWERING or OFF. -/
def State.debounced (s : State) (d : Nat) : State :=
  if s.runs bDRV ∧ s.dState d = dEMPTY then
    let s := (s.updDrawer d fun w => { w with present := true, timer := 0 }).setFlag DRV_STATE_PRESENT d true
    if s.flag DRV_CFG_HP_AUTO d then s.powerUp d else s.enterDrawer d dOFF
  else s

/-- PRSNT_N deasserts: EMPTY, PERST_N asserted, the path off; the drive and what it held are gone. -/
def State.presenceGone (s : State) (d : Nat) : State :=
  let old := s.dState d
  let s := s.updDrawer d fun w => { w with present := false, timer := 0 }
  let s := { s with ldg := { s.ldg with media := SMap.del d s.ldg.media } }
  if old = dEMPTY then s
  else
    let s := ((s.setFlag DRV_STATE_PRESENT d false).setPerst d false).slotOff d
    let s := (s.enterDrawer d dEMPTY).raise DRV_EVENT_REMOVED d
    if old = dREADY ∨ old = dRESET then s.driveGone d else s.updDrawer d fun w => { w with adminOut := false }

/-- PERST_MS after power-good: PERST_N is released, and the link trains. -/
def State.perstDelayEnd (s : State) (d : Nat) : State :=
  if s.dState d = dPOWERING ∧ s.flag DRV_STATE_PG d then ((s.setPerst d true).setTimer d 3).enterDrawer d dTRAINING else s

/-- The link reaches DL_Active at a width and speed (R295, R300). -/
def State.linkActive (s : State) (d width speed : Nat) (flit : Bool) : State :=
  if s.dState d = dTRAINING then
    let s := ((s.setReg DRV_STATE_WIDTH d width).setReg DRV_STATE_SPEED d speed).setFlag DRV_STATE_FLIT d flit
    let s := if width < 2 then s.raise DRV_EVENT_WIDTH d else s
    s.setTimer d 4
  else s

/-- 100 ms after DL_Active: INIT, with the first configuration request. -/
def State.initStart (s : State) (d : Nat) : State :=
  if s.dState d = dTRAINING ∧ (s.drawer d).timer = 4 then
    let cyc := s.rtu.cycle
    (s.updDrawer d fun w => { w with timer := 5, adminOut := true, adminSince := cyc }).enterDrawer d dINIT
  else s

/-- TRAIN_MS without DL_Active. -/
def State.trainTimeout (s : State) (d : Nat) : State :=
  if s.dState d = dTRAINING ∧ (s.drawer d).timer = 3 then s.failDrawer d 1 else s

/-- The first check of R297 that fails, as its REASON (DEDUCED, log entry 68). -/
def State.admission (s : State) (d : Nat) (v : DriveFacts) : Option Nat :=
  let need := 2097152 + match s.memberOf d with
    | some (k, _) => s.setBase k + s.setRows k * s.setSb k - min 2097152 (s.setBase k)
    | none => 0
  if v.classCode ≠ 0x010802 then some 2
  else if !v.rdy ∨ v.cfs then some 3
  else if v.mqes < 1023 ∨ v.queues < 15 then some 4
  else if !v.cmic0 ∨ !v.nsExists ∨ !v.nmic0 then some 5
  else if (v.lbads ≠ 512 ∧ v.lbads ≠ 4096) ∨ v.metaBytes ≠ 0 then some 6
  else if !v.oncs5 ∨ s.reg DRV_RKEY_KEY / 2 = 0 ∨ !v.resvOk then some 7
  else if v.vwc ∧ !s.flag DRV_CFG_PLP d ∧ !v.wceOk then some 8
  else if v.units < need then some 9
  else none

/-- What admission read of a drive, kept in its registers (R297, R312). -/
def State.keepFacts (s : State) (d : Nat) (v : DriveFacts) : State :=
  let s := (s.setReg DRV_CAP_UNITS d v.units).setReg DRV_NGUID_ID d (if v.nguid = 0 then v.eui64 else v.nguid)
  let s := ((s.setFlag DRV_FMT_SGL d v.sgl).setFlag DRV_FMT_LBA4K d (v.lbads == 4096)).setReg DRV_FMT_MDTS_KIB d v.mdtsKib
  let cache := v.vwc && s.flag DRV_CFG_PLP d
  let ns := s.reg DRV_NSID_NSID d
  s.updDrawer d fun w => { w with vwc := cache, dlfeat := v.dlfeat, nsid := ns }

/-- Admission ends: READY, or FAILED with the reason of the first check that fails (R297). -/
def State.admitDrive (s : State) (d : Nat) (v : DriveFacts) : State :=
  if s.dState d ≠ dINIT then s
  else
    match s.admission d v with
    | some r => s.failDrawer d r
    | none => (s.keepFacts d v).enterReady d

/-- CSTS.RDY did not set in its time (R297, R300). -/
def State.readyTimeout (s : State) (d : Nat) : State :=
  if s.dState d = dINIT ∨ s.dState d = dRESET then s.failDrawer d 3 else s

/-- The link goes down with presence held, or CSTS.CFS sets (R300). -/
def State.linkDown (s : State) (d : Nat) (cfs : Bool) : State :=
  if dTRAINING ≤ s.dState d ∧ s.dState d ≤ dRESET then s.failDrawer d (if cfs then 3 else 11) else s

/-- A reset of the Drawer completed, or a step of it failed (R300, R308, R310). -/
def State.resetDone (s : State) (d : Nat) (ok : Bool) : State :=
  if s.dState d ≠ dRESET then s
  else if !ok then s.failDrawer d 3
  else (s.accountAll d).enterReady d

/-- PERST_N was asserted for 10 ms under OP 4 (R300). -/
def State.perstAsserted (s : State) (d : Nat) : State :=
  if s.dState d = dFAILED ∧ (s.drawer d).timer = 6 then ((s.setPerst d true).setTimer d 3).enterDrawer d dTRAINING else s

/-! ### DRV_CMD (R300, R301, R312) -/

/-- The result of a DRV_CMD; a refusal sets CMD_REFUSED. -/
def State.drvResult (s : State) (d result : Nat) : State :=
  let s := s.setReg DRV_CMD_RESULT_RESULT d result
  if result = 0 then s else s.raise DRV_EVENT_CMD_REFUSED d

/-- OP 1. -/
def State.drvPowerOn (s : State) (d : Nat) : State :=
  if s.dState d = dOFF then (s.powerUp d).drvResult d 0 else s.drvResult d 1

/-- The Drawer holds a set position that is not in L, or is a ledger drive (R301) (DEDUCED, log entry 68). -/
def State.inUse (s : State) (d : Nat) : Bool :=
  s.ledgerDrives.contains d || match s.memberOf d with
    | some (k, x) => !s.isLost k x
    | none => false

/-- OP 2. -/
def State.drvPowerOff (s : State) (d : Nat) : State :=
  let old := s.dState d
  if s.inUse d then s.drvResult d 2
  else if old ≠ dOFF ∧ old ≠ dFAILED ∧ old ≠ dREADY then s.drvResult d 1
  else
    let s := (((s.setPerst d false).setTimer d 0).slotOff d).enterDrawer d dOFF
    let s := if old = dREADY then s.endHeld d else s
    s.drvResult d 0

/-- OP 3. -/
def State.drvReset (s : State) (d : Nat) : State :=
  if s.dState d = dREADY then (s.resetDrawer d).drvResult d 0 else s.drvResult d 1

/-- OP 4. -/
def State.drvReadmit (s : State) (d : Nat) : State :=
  if s.dState d = dFAILED then ((s.setPerst d false).setTimer d 6).drvResult d 0 else s.drvResult d 1

/-- A write of DRV_CMD: an OP other than 1 to 4 is ignored (R312). -/
def State.drvCommand (s : State) (d op : Nat) : State :=
  match op with
  | 1 => s.drvPowerOn d
  | 2 => s.drvPowerOff d
  | 3 => s.drvReset d
  | 4 => s.drvReadmit d
  | _ => s

/-- Where DRV_CMD of a Drawer lies. -/
def drvCmdAddr (d : Nat) : Nat := DRV_CMD_OP.addr + 0x10000 * d

/-! ### The block (R313, R430) -/

/-- DRV_GCMD.START: the debounce of every Drawer already present starts. -/
def State.drvDoStart (s : State) (p : Path) : State :=
  s.startBlock p DRV_GCMD_START.addr bDRV DRV_GEVENT_CMD_REFUSED [bCAB, bSLP] fun s =>
    (List.range 48).foldl (fun s d => if (s.drawer d).present then s.presenceSeen d else s) s

/-- A Drawer runs in states 1 to 5 (R300). -/
def State.drawerRuns (s : State) (d : Nat) : Bool := decide (1 ≤ s.dState d) && decide (s.dState d ≤ 5)

/-- DRV_GCMD.STOP: refused while any Drawer runs. -/
def State.drvDoStop (s : State) : State :=
  s.stopBlock bDRV ((List.range 48).any s.drawerRuns) DRV_GEVENT_CMD_REFUSED id

/-! ### Messages from drives -/

/-- A critical warning (R309): reported, kept, and for bits 2 to 4 the position is lost. -/
def State.driveWarning (s : State) (d warning : Nat) : State :=
  let s := s.setReg DRV_WARN_CW d warning
  if s.reg DRV_WARN_CW d = 0 then s
  else
    let s := (s.raise DRV_EVENT_WARNING d).drawerRecord d (s.dState d) (s.dState d) 3
    if bitsOf warning 2 3 ≠ 0 then (s.losePosition d).pumpAll else s

/-- The body of an AER record (R405): the Drawer (0xFF for the management endpoint), status words and header log. -/
def aerBody (who unc cor : Nat) (hdr : List Byte) : List Byte :=
  [b8 who, 0, 0, 0] ++ leBytes 4 unc ++ leBytes 4 cor ++ List.replicate 4 0 ++ (hdr ++ List.replicate 16 0).take 16

/-- The CQ head doorbell is written (R304): what was taken is acknowledged. -/
def State.cqDoorbell (s : State) (d q : Nat) : State :=
  if SMap.get 0 (s.drawer d).cqNew q = 0 then s
  else
    let s := s.ring d (16 + q) (SMap.get 0 (s.drawer d).cqHead q)
    s.updDrawer d fun w => { w with cqNew := SMap.del q w.cqNew }

/-- A completion entry of queue `q` as a drive writes it, `sqhd` the head it has reached and `phase` the tag (its layout is
NVMe's, PRESUMED, log entry 13). -/
def cqEntry (q cid sqhd phase : Nat) (v : NvmeStatus) : List Byte :=
  leBytes 4 v.dw0 ++ List.replicate 4 0 ++ leBytes 2 sqhd ++ leBytes 2 q ++ leBytes 2 cid ++
    leBytes 2 (phase + 2 * (v.sc % 256) + 2 ^ 9 * (v.sct % 8) + 2 ^ 15 * Bool.nat v.dnr)

/-- A completion entry lands in queue memory and is taken: the head moves on, its phase tag turning as it passes the end, and
every 32 entries write the doorbell (R197, R304); the submission head in it is the drive's own (DESIGN CHOICE, log
entry 21). -/
def State.takeEntryCq (s : State) (d q cid : Nat) (v : NvmeStatus) : State :=
  let at_ := SMap.get 0 (s.drawer d).cqHead q
  let pass := SMap.get 0 (s.drawer d).cqPass q
  let h := (at_ + 1) % 1024
  let n := SMap.get 0 (s.drawer d).cqNew q + 1
  let (head, s) := s.freeBits 16
  let s := { s with cab := { s.cab with
    queueMem := Mem.writeAll (0x140000 * d + 0x100000 + 0x4000 * q + 16 * at_) (cqEntry q cid head (1 - pass) v) s.cab.queueMem } }
  let s := s.updDrawer d fun w => { w with
    cqHead := SMap.put q h w.cqHead, cqPass := if h = 0 then SMap.put q (1 - pass) w.cqPass else w.cqPass,
    cqNew := SMap.put q n w.cqNew }
  if n = 32 then s.cqDoorbell d q else s

end Sys2Proof.Machine
end

