-- ==== Sys2Proof/Machine/HngCodec.lean ====
section
/-! DEFINITION. The state copy: what the active sends of its state and how the standby reads it (R109, R258, R262, R340,
R352). -/

namespace Sys2Proof.Machine

open Sys2Proof.Reg

/-! ### Bytes -/

/-- The little-endian field at byte `o` of an entry. -/
def fieldAt (bs : List Byte) (o n : Nat) : Nat := leNat ((bs.drop o).take n)

/-! ### Contexts (R109) -/

/-- The context a 256-byte entry holds; the standby keeps it at home. -/
def connOfBytes (b : List Byte) : Conn :=
  let w0 := fieldAt b 0 4
  let w1 := fieldAt b 4 4
  let vlan := fieldAt b 10 2
  { id := w0 % 2 ^ 24, state := bitsOf w0 24 4, gcm := bitOf w0 28, data8k := bitOf w0 29, v6 := bitOf w0 30,
    pin := bitOf w0 31, sub := w1 % 2 ^ 12, e := bitsOf w1 12 6 + 1, lport := bitsOf w1 18 5, peerUdp := fieldAt b 8 2,
    vid := vlan % 2 ^ 12, pcp := bitsOf vlan 12 3, tagged := bitOf vlan 15, keyslot := fieldAt b 12 4,
    peerIp := if bitOf w0 30 then fieldAt b 16 16 else fieldAt b 28 4, nexthop := fieldAt b 32 8, hostNonce := (b.drop 160).take 16,
    devNonce := (b.drop 176).take 16, opened := fieldAt b 192 8, inflight := 0,
    tx := { next := fieldAt b 40 4, una := fieldAt b 44 4, ackBase := fieldAt b 44 4, csn := fieldAt b 48 4, wrap := fieldAt b 52 4,
            unseq := fieldAt b 56 8, rate := fieldAt b 64 4, ceSeen := fieldAt b 68 4, ceLatest := fieldAt b 68 4,
            retired := fieldAt b 72 8, rtt := fieldAt b 80 4 },
    rx := { base := fieldAt b 84 4, csn := fieldAt b 88 4, wrap := fieldAt b 92 4, unseq := fieldAt b 96 8,
            ce := fieldAt b 104 4, pkts := fieldAt b 108 4, bitmap := fieldAt b 112 32 },
    lastRxEpoch := fieldAt b 144 8, cache := .home }

/-- The 32 bytes of section 0x05. -/
def Conn.brief (c : Conn) : List Byte :=
  leBytes 4 c.id ++ [b8 c.state, 0, 0, 0] ++ leBytes 4 c.tx.csn ++ leBytes 4 c.rx.csn ++ leBytes 4 c.tx.next ++
    leBytes 4 c.rx.base ++ leBytes 2 c.tx.wrap ++ leBytes 2 c.rx.wrap ++ List.replicate 4 0

/-- What section 0x05 watches: STATE, TX_CSN and RX_CSN, behind the connection's number. -/
def Conn.watched (c : Conn) : List Byte := c.brief.take 16

/-! ### Records, regions, reservations (R114, R148, R258) -/

/-- A 128-byte record is sealed: its SEAL word stands and its CRC matches (R258). -/
def recordSealed (b : List Byte) : Bool := fieldAt b 124 4 == 0x5345414C && fieldAt b 120 4 == (crc32c (b.take 120)).toNat

/-- The slot and record of a 128-byte entry. -/
def recordOfBytes (b : List Byte) : Nat × Record :=
  (fieldAt b 6 2,
   { kind := fieldAt b 4 1, set := fieldAt b 5 1, rseq := fieldAt b 8 8, row := fieldAt b 16 8, dmask := fieldAt b 24 4,
     lost := fieldAt b 28 4, boff := fieldAt b 32 4, bcnt := fieldAt b 36 4, vol := fieldAt b 40 2,
     slba := fieldAt b 48 8, conn := fieldAt b 56 4, msgid := fieldAt b 60 4, csn := fieldAt b 64 4,
     gen := fieldAt b 68 4, written := fieldAt b 72 8, extra := (b.drop 80).take 32,
     sealed := if recordSealed b then some (fieldAt b 112 8) else none,
     confirmed := true, writesDone := decide (0x10 ≤ fieldAt b 4 1) })

/-- A region entry of 64 bytes with its index (the places inside it are the model's, PRESUMED, log entry 41). -/
def Region.entry (i : Nat) (r : Region) : List Byte :=
  padTo 64 (leBytes 4 i ++ leBytes 4 r.gen ++ [b8 r.state, b8 (Bool.nat r.connScope), b8 (Bool.nat r.place), 0] ++
    leBytes 4 r.sub ++ leBytes 4 r.conn ++ leBytes 8 r.len)

/-- The region of such an entry (PRESUMED, log entry 41). -/
def regionOfBytes (b : List Byte) : Nat × Region :=
  (fieldAt b 0 4,
   { gen := fieldAt b 4 4, state := fieldAt b 8 1, connScope := fieldAt b 9 1 == 1, place := fieldAt b 10 1 == 1,
     sub := fieldAt b 12 4, conn := fieldAt b 16 4, len := fieldAt b 20 8 })

/-- A reservation entry of 64 bytes (the places inside it are the model's, PRESUMED, log entry 41). -/
def Reservation.entry (r : Reservation) : List Byte :=
  padTo 64 (leBytes 4 r.id ++ leBytes 2 r.sub ++ leBytes 2 r.vol ++
    [b8 (Bool.nat r.isRead), b8 (Bool.nat r.ended), b8 (Bool.nat r.inPlan), 0] ++ leBytes 2 r.deadline ++
    leBytes 8 r.start ++ leBytes 4 r.cycles ++ leBytes 8 r.bytes ++ leBytes 8 r.balance ++ leBytes 4 r.misses)

/-- The reservation of such an entry (PRESUMED, log entry 41). -/
def rsvOfBytes (b : List Byte) : Reservation :=
  { id := fieldAt b 0 4, sub := fieldAt b 4 2, vol := fieldAt b 6 2, isRead := fieldAt b 8 1 == 1,
    ended := fieldAt b 9 1 == 1, inPlan := fieldAt b 10 1 == 1, deadline := fieldAt b 12 2, start := fieldAt b 14 8,
    cycles := fieldAt b 22 4, bytes := fieldAt b 26 8, balance := fieldAt b 34 8, misses := fieldAt b 42 4 }

/-- The map change of 8 such bytes: the region's key, and whether it is set. -/
def mapChangeOf (b : List Byte) : Nat × Bool :=
  let v := fieldAt b 0 8
  (2 ^ 32 * (v % 256) + bitsOf v 16 32, bitOf v 8)

/-! ### Command records (R340) -/

/-- EVENT of a command: dispatched, ready, released; a command that a FENCE holds counts as dispatched, since it holds its
frame (DEDUCED, log entry 70). -/
def Cmd.copyEvent (c : Cmd) : Option Nat :=
  match c.comp with
  | some k => if k.sent then none else if k.released then some 3 else if c.work.driveOps = 0 then some 2 else some 1
  | none => some 1

/-- CLASS of a command: sealed or immediate (R124, R142). -/
def Cmd.copyClass (c : Cmd) : Bool :=
  match c.comp with
  | some k => k.isSealed
  | none => ((opRow c.opcode).map (·.isSealed)).getD false

/-- The 64-byte record. -/
def Cmd.copyRecord (c : Cmd) (ev : Nat) : List Byte :=
  let cmpl : List Byte := match c.comp with
    | some k => if ev = 1 then [] else
        completionBytes k.status k.detail c.opcode c.csn k.result0 k.result1 k.reltime false
    | none => []
  padTo 64 (leBytes 4 c.conn ++ [b8 ev, b8 (Bool.nat c.copyClass), b8 c.opcode, 0] ++ leBytes 4 c.msgid ++
    leBytes 4 c.csn ++ List.replicate 16 0 ++ cmpl)

/-- The command of such a record. -/
def cmdRecOf (b : List Byte) : CmdRec :=
  { conn := fieldAt b 0 4, event := fieldAt b 4 1, opcode := fieldAt b 6 1, msgid := fieldAt b 8 4,
    csn := fieldAt b 12 4, cmpl := (b.drop 32).take 32 }

/-- Key of a command record. -/
def cmdRecKey (conn msgid : Nat) : Nat := 2 ^ 32 * conn + msgid

/-! ### Generations (R51) -/

/-- A generation's number and body (PRESUMED, log entry 77). -/
def genEntry (g : Nat) (m : SMap Nat) : List Byte := leBytes 4 g ++ bodyOf (copyWords m) (wordIn m)

/-- `n` words from address `a` on, put into a copy. -/
def putWords (a : Nat) (b : List Byte) (m : SMap Nat) : Nat → SMap Nat
  | 0 => m
  | n + 1 =>
    let m := match findReg a with
      | some ra => putWord ra.reg ra.inst ra.off (fieldAt b 0 4) m
      | none => m
    putWords (a + 4) (b.drop 4) m n

/-- The copy of class L that runs describe; at most `fuel` of them (PRESUMED, log entry 77). -/
def readRuns : Nat → List Byte → SMap Nat → SMap Nat
  | 0, _, m => m
  | fuel + 1, b, m =>
    let n := fieldAt b 4 4
    if n = 0 then m
    else readRuns fuel ((b.drop 8).drop (4 * n)) (putWords (blockBases.getD (fieldAt b 0 1) 0 + fieldAt b 1 3) (b.drop 8) m n)

/-- The generation of an entry. -/
def genOfBytes (b : List Byte) : Nat × SMap Nat := (fieldAt b 0 4, readRuns b.length (b.drop 4) [])

/-! ### Register words (R340) -/

/-- The addresses of section 0x0A: LDG_ACTIVE, the states of the sets, and the words of R289. -/
def copiedWords : List Nat :=
  [LDG_ACTIVE_A.addr, PAR_DMG_COUNT_COUNT.addr] ++
  (List.range 8).flatMap (fun k =>
    [PAR_SET_N.addr + 16 * k, PAR_SET_STATE_STATE.addr + 8 * k, PAR_SET_STATE_STATE.addr + 8 * k + 4] ++
    (List.range 7).map fun w => PAR_RB_STATE_PHASE.addr + 64 * k + 4 * w) ++
  (List.range 256).flatMap fun i => [PAR_POSMAP_LOST.addr + 4 * i, PAR_SETMEM_DRAWER.addr + 4 * i]

/-- The value of a field of section 0x0A: PAR_POSMAP.DRAWER is the Drawer now at its position. -/
def State.copiedField (s : State) (f : Field) (i : Nat) : Nat :=
  if f.addr = PAR_POSMAP_DRAWER.addr ∧ f.lo = 0 then s.posDrawer (i / 32) (i % 32) else s.reg f i

/-- The word at one of those addresses. -/
def State.copiedWord (s : State) (a : Nat) : Nat :=
  match findReg a with
  | some ra => wordOf ra.reg ra.off fun f => s.copiedField f ra.inst
  | none => 0

/-- A received word put where it belongs: status words at once, class-L words into every copy (R289), and a position
whose Drawer is not PAR_SETMEM's is a replaced one. -/
def State.putCopiedWord (s : State) (a w : Nat) : State :=
  match findReg a with
  | none => s
  | some ra =>
    if wordClass ra.reg ra.off = .L then
      let p := putWord ra.reg ra.inst ra.off w
      { s with regs := { s.regs with pend := p s.regs.pend, cur := p s.regs.cur,
                                     prev := if s.flag CFG_STATUS_PREV_VALID then p s.regs.prev else s.regs.prev },
               hng := { s.hng with gens := s.hng.gens.map fun g => (g.1, p g.2) } }
    else
      let s := { s with regs := { s.regs with live := putWord ra.reg ra.inst ra.off w s.regs.live } }
      if PAR_POSMAP_LOST.addr ≤ a ∧ a < PAR_POSMAP_LOST.addr + 1024 then
        let i := (a - PAR_POSMAP_LOST.addr) / 4
        let d := w % 64
        s.updSet (i / 32) fun t => { t with
          moved := if d = s.reg PAR_SETMEM_DRAWER i then SMap.del (i % 32) t.moved else SMap.put (i % 32) d t.moved }
      else s

/-! ### The view of the state that is copied -/

/-- A section of the view: by key, what is compared and the entry that is sent. -/
abbrev CopyView := SMap (List Byte × List Byte)

/-- An entry that is compared whole. -/
def whole (k : Nat) (b : List Byte) : Nat × (List Byte × List Byte) := (k, (b, b))

/-- The connections that are not FREE. -/
def State.usedConns (s : State) : List (Nat × Conn) := s.ctx.conns.filter fun e => e.2.state != cFREE

/-- The sections of the whole current state (R352). -/
def State.copyView (s : State) : List (Nat × CopyView) :=
  let recs := s.ldg.recs.filterMap fun e => e.2.sealed.map fun q => whole e.2.rseq (e.2.sealedBytes e.1 q)
  let full := s.usedConns.filterMap fun e =>
    if e.2.state = cSETUP ∨ e.2.state = cOPEN then some (e.2.id * 16 + e.2.state, ([], e.2.bytes)) else none
  let brief := s.usedConns.map fun e => (e.1, (e.2.watched, e.2.brief))
  let regions := (s.ctx.regions.filter fun e => e.2 != {}).map fun e => whole e.1 (e.2.entry e.1)
  let cmds := s.cmd.frames.filterMap fun e => e.2.copyEvent.map fun v => whole (cmdRecKey e.2.conn e.2.msgid) (e.2.copyRecord v)
  let rsv := s.cmd.rsv.map fun e => whole e.1 e.2.entry
  let gens :=
    (if s.flag CFG_STATUS_PREV_VALID then [whole 0 (genEntry (s.reg CFG_GEN_PREVIOUS_GEN) s.regs.prev)] else []) ++
      [whole 1 (genEntry (s.reg CFG_GEN_CURRENT_GEN) s.regs.cur)]
  let words := copiedWords.map fun a => whole a (leBytes 4 a ++ leBytes 4 (s.copiedWord a))
  [(1, recs), (4, full), (5, brief), (6, regions), (7, cmds), (8, rsv), (9, gens), (10, words)]

/-- What is compared, by section and key. -/
def baseOf (v : List (Nat × CopyView)) : SMap (SMap (List Byte)) :=
  v.map fun sec => (sec.1, sec.2.map fun e => (e.1, e.2.1))

/-- What is sent for an entry that is no longer there: a connection that is FREE, a command that left, a reservation that
ended. -/
def goneEntry (kind : Nat) (old : List Byte) : Option (List Byte) :=
  match kind with
  | 5 => some (padTo 32 (old.take 4))
  | 7 => some (old.take 4 ++ [4] ++ (old.drop 5).take 27 ++ List.replicate 32 0)
  | 8 => some (old.take 9 ++ [1] ++ old.drop 10)
  | _ => none

/-- The entries of one section that changed against `old`. -/
def changedEntries (kind : Nat) (old : SMap (List Byte)) (now : CopyView) : List (List Byte) :=
  (now.filterMap fun e => if SMap.find old e.1 = some e.2.1 then none else some e.2.2) ++
    old.filterMap fun e => if (SMap.find now e.1).isSome then none else goneEntry kind e.2

/-- A generation that switched or rolled back is sent once, as the current one. -/
def copiedGens (es : List (List Byte)) : List (List Byte) := es.drop (es.length - 1)

/-- The sections of a copy: what changed since the last, with the retired records and the map changes; empty sections are
left out (R340). -/
def State.copySections (s : State) : List CopySection :=
  let v := s.copyView
  let secs := v.map fun sec =>
    let es := changedEntries sec.1 (SMap.get [] s.hng.base sec.1) sec.2
    ({ kind := sec.1, entries := if sec.1 = 9 then copiedGens es else es } : CopySection)
  let retired : CopySection := { kind := 2, entries := s.ldg.retired.map (leBytes 8) }
  let marks : CopySection := { kind := 3, entries := s.ldg.mapChanges.map fun e => mapChangeBytes e.1 e.2 }
  (secs.take 1 ++ [retired, marks] ++ secs.drop 1).filter fun c => c.entries != []

/-- The sections of a sync: the whole state, every connection that is not FREE with its whole context (R117, R352). -/
def State.syncSections (s : State) : List CopySection :=
  let secs := s.copyView.map fun sec =>
    ({ kind := sec.1, entries := if sec.1 = 4 then s.usedConns.map (·.2.bytes) else sec.2.map (·.2.2) } : CopySection)
  let marks : CopySection := { kind := 3, entries := s.ldg.dirty.map fun e => mapChangeBytes e.1 true }
  (secs.take 1 ++ [marks] ++ secs.drop 1).filter fun c => c.entries != []

/-! ### Sections as bytes -/

/-- Entry size of a section; 0 is variable (R340). -/
def entrySize (kind : Nat) : Nat := [0, 128, 8, 8, 256, 32, 64, 64, 64, 0, 8].getD kind 0

/-- A section's bytes. -/
def sectionBytes (c : CopySection) : List Byte :=
  [b8 c.kind, 0, 0, 0] ++ leBytes 4 c.entries.length ++ c.entries.flatten

/-- Sections cut so that each frame's payload is at most 65,536 bytes: a section too long continues in the next frame
under the same type. -/
def splitSection (c : CopySection) : Nat → List CopySection
  | 0 => [c]
  | n + 1 =>
    let k := if entrySize c.kind = 0 then 1 else (65536 - 8) / entrySize c.kind
    if c.entries.length ≤ k then [c]
    else { c with entries := c.entries.take k } :: splitSection { c with entries := c.entries.drop k } n

/-- The payloads of the frames that carry sections, one section or part of one in each. -/
def copyPayloads (cs : List CopySection) : List (List Byte) :=
  (cs.flatMap fun c => splitSection c c.entries.length).map sectionBytes

/-- The section counts of COPY_END: 16 of 4 bytes (R338). -/
def sectionCounts (cs : List CopySection) : List Nat :=
  (List.range 16).map fun k => ((cs.filter (·.kind == k)).map (·.entries.length)).sum

/-! ### Applying -/

/-- The 256-bit key of a GCM connection under a subscriber's setup key (R101). -/
def connKeyOf (setup : List Byte) (c : Conn) : List Byte :=
  let label : List Byte := [0x4E, 0x41, 0x4C, 0x45, 0x59, 0x2D, 0x43, 0x4F, 0x4E, 0x4E]
  (Config.kdf setup (label ++ c.hostNonce ++ c.devNonce ++ beBytes 3 c.id) 32 ++ List.replicate 32 0).take 32

/-- The key of a new GCM connection (R101). -/
def State.deriveKey (s : State) (c : Conn) : List Byte := connKeyOf ((s.setupKey c.sub).getD []) c

/-- Key slots are not copied: at a takeover each GCM connection's key is derived again under the setup key that the newest
generation held names, and loaded into the connection's slot, or into a free one where that slot is in use (R101, R117,
R246) (DEDUCED, log entry 70). -/
def State.deriveKeys (s : State) : State :=
  let m := (s.hng.gens.getLast?.map (·.2)).getD s.regs.cur
  let setup (sub : Nat) : List Byte :=
    if SMap.get 0 m (CPH_SUBKEY_VALID.key sub) = 1 then
      let v := s.keySlot (SMap.get 0 m (CPH_SUBKEY_SLOT.key sub))
      if v.kind = 3 then v.key.take 32 else []
    else []
  (s.ctx.conns.filter fun e => e.2.gcm && e.2.state != 0).foldl (fun s e =>
    let slot := if (s.keySlot e.2.keyslot).kind = 0 then some e.2.keyslot else s.freeSlot
    match slot with
    | none => s
    | some x =>
      let s := s.setKeySlot x { kind := 2, key := padTo 64 (connKeyOf (setup e.2.sub) e.2) }
      { s with ctx := { s.ctx with conns := SMap.put e.1 { e.2 with keyslot := x } s.ctx.conns } }) s

/-- The host CSN after the last command that the part can hold of a connection whose context it has only just been sent: the
commands delivered lie within the 65,536 in flight before RX_CSN (R130) (DEDUCED, log entry 70). -/
def seedCsn (rx : Nat) : Nat := if rx < 65536 then 0 else rx - 65536

/-- A whole context arrives: it lies in its home copy. -/
def State.applyContext (s : State) (b : List Byte) : State :=
  let c := connOfBytes b
  let ci := c.id % 2 ^ 18
  let s := { s with ctx := { s.ctx with conns := SMap.put ci { c with sinceCycle := s.rtu.cycle } s.ctx.conns } }
  let s := s.sbWrite (contextBase + 256 * ci) b
  let s := match SMap.find s.hng.nextCsn c.id with
    | some _ => s
    | none => { s with hng := { s.hng with nextCsn := SMap.put c.id (seedCsn c.rx.csn) s.hng.nextCsn } }
  s.countConns

/-- The short form of a context arrives: a FREE connection is gone, its index's reuse count rising (R95). -/
def State.applyBrief (s : State) (b : List Byte) : State :=
  let id := fieldAt b 0 4
  let ci := id % 2 ^ 18
  match SMap.find s.ctx.conns ci with
  | none => s
  | some c =>
    if c.id ≠ id then s
    else if fieldAt b 4 1 = 0 then
      { s with ctx := { s.ctx with conns := SMap.del ci s.ctx.conns, reuse := c.raiseReuse ci s.ctx.reuse },
               hng := { s.hng with nextCsn := SMap.del id s.hng.nextCsn } }.countConns
    else
      let c := { c with
        state := fieldAt b 4 1,
        tx := { c.tx with csn := fieldAt b 8 4, next := fieldAt b 16 4, wrap := fieldAt b 24 2 },
        rx := { c.rx with csn := fieldAt b 12 4, base := fieldAt b 20 4, wrap := fieldAt b 26 2 } }
      let s := { s with ctx := { s.ctx with conns := SMap.put ci c s.ctx.conns } }
      (s.sbWrite (contextBase + 256 * ci) c.bytes).countConns

/-- A command record arrives. -/
def State.applyCmdRec (s : State) (b : List Byte) : State :=
  let r := cmdRecOf b
  let k := cmdRecKey r.conn r.msgid
  if r.event = 4 then { s with hng := { s.hng with records := SMap.del k s.hng.records } }
  else
    let n := (r.csn + 1) % 2 ^ 32
    let old := SMap.get n s.hng.nextCsn r.conn
    { s with hng := { s.hng with
        records := SMap.put k r s.hng.records,
        nextCsn := SMap.put r.conn (if serialBefore old n then n else old) s.hng.nextCsn } }

/-- A generation arrives: it waits for this part's first boundary as the active; the newest two are kept (R50, R350). -/
def State.applyGen (s : State) (b : List Byte) : State :=
  let gs := s.hng.gens ++ [genOfBytes b]
  { s with hng := { s.hng with gens := gs.drop (gs.length - 2) } }

/-- A record arrives: its bytes lie in its slot; it is a record only where it is sealed (R258, R341). -/
def State.applyRecord (s : State) (b : List Byte) : State :=
  let (k, r) := recordOfBytes b
  let s := { s with ldg := { s.ldg with
      recs := if r.sealed.isSome then SMap.put k r s.ldg.recs else SMap.del k s.ldg.recs,
      rseq := if r.sealed.isSome then max r.rseq s.ldg.rseq else s.ldg.rseq, preserved := true } }
  (s.writeSlot k b).countOpen

/-- A record was retired: its slot is free. -/
def State.applyRetire (s : State) (rseq : Nat) : State :=
  (s.ldg.recs.filter fun e => e.2.rseq == rseq).foldl (fun s e =>
    { s with ldg := { s.ldg with recs := SMap.del e.1 s.ldg.recs } }.writeSlot e.1 (List.replicate 128 0)) s |>.countOpen

/-- A map change arrives. -/
def State.applyMark (s : State) (b : List Byte) : State :=
  let (k, on) := mapChangeOf b
  let d := if on then SMap.put k { confirmed := true } s.ldg.dirty else SMap.del k s.ldg.dirty
  { s with ldg := { s.ldg with dirty := d, preserved := true } }.countDirty

/-- A reservation arrives; an ended one stays only as its index's last use. -/
def State.applyRsv (s : State) (b : List Byte) : State :=
  let r := rsvOfBytes b
  let i := r.id % 4096
  { s with cmd := { s.cmd with
      rsv := SMap.put i r s.cmd.rsv, rsvReuse := SMap.put i ((r.id / 4096 + 1) % 2 ^ 20) s.cmd.rsvReuse } }.countRsv

/-- One entry of a section. -/
def State.applyEntry (s : State) (kind : Nat) (b : List Byte) : State :=
  match kind with
  | 1 => s.applyRecord b
  | 2 => s.applyRetire (fieldAt b 0 8)
  | 3 => s.applyMark b
  | 4 => s.applyContext b
  | 5 => s.applyBrief b
  | 6 =>
    let (i, r) := regionOfBytes b
    (s.setRegion i r).countRegions
  | 7 => s.applyCmdRec b
  | 8 => s.applyRsv b
  | 9 => s.applyGen b
  | 10 => s.putCopiedWord (fieldAt b 0 4) (fieldAt b 4 4)
  | _ => s

/-- A copy's or a sync's sections, in section order (R341). -/
def State.applySections (s : State) (cs : List CopySection) : State :=
  (List.range 16).foldl (fun s k =>
    (cs.filter (·.kind == k)).foldl (fun s c => c.entries.foldl (fun s b => s.applyEntry k b) s) s) s

/-- What a standby holds from copies is void (R347, R349): the Sideboard's ledger, and the copied state. -/
def State.voidLedger (s : State) : State :=
  let s := s.ldg.recs.foldl (fun s e => s.writeSlot e.1 (List.replicate 128 0)) s
  { s with ldg := { s.ldg with recs := [], dirty := [], retired := [], retiredBatch := [], mapChanges := [],
                                cleared := [], preserved := false } }.countOpen.countDirty

/-- The system cells that the sections of a copy lie in until they are applied (R199, R341). -/
def copyCells (cs : List CopySection) : Nat := (cs.map fun c => cellsOf (sectionBytes c).length).sum

/-- Copies received and not yet applied go, with their cells. -/
def State.dropCopies (s : State) : State :=
  let n := copyCells s.hng.rxCopy + (s.hng.syncQueue.map fun q => copyCells q.2.2).sum
  { s with hng := { s.hng with rxCopy := [], syncQueue := [] } }.unhold none n

/-- The copied state of a standby is void; reuse counts stay, so that no connection ID or grant key comes again (R95, R96). -/
def State.voidCopy (s : State) : State :=
  let s := s.dropCopies
  let old : SMap Conn := s.ctx.conns
  let s := { s with
    ctx := { s.ctx with conns := [], regions := [], accepted := [],
                        reuse := old.foldl (fun (m : SMap Nat) (e : Nat × Conn) => e.2.raiseReuse e.1 m) s.ctx.reuse,
                        grants := s.ctx.grants.mapVal fun _ g => { g with isOpen := false } },
    cmd := { s.cmd with rsv := [] },
    hng := { s.hng with records := [], nextCsn := [], gens := [], applied := none, syncing := false } }
  (old.foldl (fun (s : State) (e : Nat × Conn) => if e.2.gcm then s.releaseSlot e.2.keyslot else s) s).countConns.countRegions.countRsv

end Sys2Proof.Machine
end

