-- ==== Sys2Proof/Machine/HngLink.lean ====
section
/-! DEFINITION. The Hinge's frames in both directions, copies, syncs and their confirmation, and the Tether's frame (R261,
R335 to R345, R352). -/

namespace Sys2Proof.Machine

open Sys2Proof.Reg

/-! ### Acting values -/

/-- LANES_MIN: 2, 4 or 8, other values acting as 4. -/
def State.lanesMin (s : State) : Nat :=
  if s.reg HNG_CFG_LANES_MIN = 2 then 2 else if s.reg HNG_CFG_LANES_MIN = 8 then 8 else 4

/-- PAIR_EN. -/
def State.pairEn (s : State) : Bool := s.flag HNG_CFG_PAIR_EN

/-- Roles and pair states (R335). -/
def roleSTARTING := 0
def roleACTIVE := 1
def roleSTANDBY := 2
def pairALONE := 0
def pairSYNCING := 1
def pairSYNCED := 2
def pairDETACHED := 3
def pairFENCED := 4

/-- ROLE. -/
def State.role (s : State) : Nat := s.reg HNG_STATUS_ROLE
/-- PAIR. -/
def State.pair (s : State) : Nat := s.reg HNG_STATUS_PAIR

/-- An event record of the pair (R405). -/
def State.pairRecord (s : State) (ev : Nat) : State :=
  s.record 0x90 (if ev = 5 ∨ ev = 6 then 3 else 1) bHNG
    ([b8 ev, b8 s.role, b8 s.pair, b8 (s.reg HNG_CONTEST_A + s.reg HNG_CONTEST_B * 16)] ++ leBytes 4 s.epoch)

/-- The role and the pair state change. -/
def State.setRole (s : State) (role pair : Nat) : State :=
  let s1 := (s.setReg HNG_STATUS_ROLE 0 role).setReg HNG_STATUS_PAIR 0 pair
  let s1 := if s.role = role then s1 else s1.pairRecord 1
  if s.pair = pair then s1 else s1.pairRecord 2

/-! ### Sending frames (R337 to R339) -/

/-- Most frames not acknowledged (R339). -/
def hingeWindow := 1024

/-- The system cells that a frame is kept in until an ACK covers it (R199, R339). -/
def HingeFrame.cells (f : HingeFrame) : Nat := cellsOf f.payload.length

/-- A frame as it leaves: its header of 16 bytes in network order, the payload, and the CRC-32C of both (R337). -/
def HingeFrame.bytes (f : HingeFrame) : List Byte :=
  let b := [b8 (16 + f.typ), b8 (128 * Bool.nat f.swap + 64 * Bool.nat f.last)] ++ beBytes 2 f.seq ++
    beBytes 4 f.payload.length ++ beBytes 8 f.epoch ++ f.payload
  b ++ beBytes 4 (crc32c b).toNat

/-- A sequenced frame leaves now: it is kept until it is acknowledged. -/
def State.hingeEmit (s : State) (f : HingeFrame) : State :=
  let f := { f with seq := s.hng.txSeq }
  let s := s.hold none f.cells
  { s with hng := { s.hng with unacked := s.hng.unacked ++ [f], wire := some f, txSeq := (s.hng.txSeq + 1) % 65536 } }.bump
    HNG_TX_FRAMES

/-- A frame may leave: the window has room, and the system account cells for it (R201, R339). -/
def State.hingeRoom (s : State) (f : HingeFrame) : Bool :=
  decide (s.hng.unacked.length < hingeWindow) && s.withinLimits none f.cells && decide (s.fill + f.cells ≤ s.cabUsable)

/-- A frame is sent, or waits for room. -/
def State.hingeSend (s : State) (f : HingeFrame) : State :=
  if s.hng.waiting = [] ∧ s.hingeRoom f then s.hingeEmit f
  else { s with hng := { s.hng with waiting := s.hng.waiting ++ [f] } }

/-- Frames that waited leave in their order while there is room; at most `n`. -/
def State.hingeFillUpTo (s : State) : Nat → State
  | 0 => s
  | n + 1 =>
    match s.hng.waiting with
    | f :: rest => if s.hingeRoom f then
        ({ s with hng := { s.hng with waiting := rest } }.hingeEmit f).hingeFillUpTo n
      else s
    | [] => s

/-- Frames that waited leave while there is room. -/
def State.hingeFill (s : State) : State := s.hingeFillUpTo s.hng.waiting.length

/-- An ACK or a NAK leaves: it is not sequenced (DESIGN CHOICE, log entry 42). -/
def State.hingeControl (s : State) (typ seq : Nat) : State :=
  let f : HingeFrame := { typ := typ, seq := s.hng.txSeq, epoch := s.epoch, payload := beBytes 2 seq }
  { s with hng := { s.hng with wire := some f } }.bump HNG_TX_FRAMES

/-- ACK of the highest sequence number received in order. -/
def State.hingeAckNow (s : State) : State :=
  { s with hng := { s.hng with sinceAck := 0 } }.hingeControl 4 ((65535 + s.hng.rxSeq) % 65536)

/-- `b` lies `n` after `a` modulo 2^16. -/
def seqDist (a b : Nat) : Nat := (65536 + b - a) % 65536

/-- Frames up to `seq` are acknowledged (R339). -/
def State.hingeAcked (s : State) (seq : Nat) : State :=
  let gone := s.hng.unacked.filter fun f => decide (seqDist f.seq seq < 32768)
  let s := s.unhold none (gone.map HingeFrame.cells).sum
  { s with hng := { s.hng with unacked := s.hng.unacked.filter fun f => decide (32768 ≤ seqDist f.seq seq) } }.hingeFill

/-- Frames from `seq` on are sent again. -/
def State.hingeResend (s : State) (seq : Nat) : State :=
  let again := s.hng.unacked.filter fun f => decide (seqDist seq f.seq < 32768)
  again.foldl (fun s f => ({ s with hng := { s.hng with wire := some f } }.bump HNG_RETX).bump HNG_TX_FRAMES) s

/-! ### Copies and syncs at the active (R340, R352) -/

/-- The frames of a copy: its COPY frames, then COPY_END (R338). -/
def State.sendCopyFrames (s : State) (c : CopyOut) : State :=
  let ps := copyPayloads c.sections
  let all := ps.flatten
  let s := ps.foldl (fun s p => s.hingeSend { typ := 1, epoch := c.epoch, payload := p }) s
  let kib := (s.hng.copyRem + all.length) / 1024
  let s := { s with hng := { s.hng with copyRem := (s.hng.copyRem + all.length) % 1024 } }.bumpBy HNG_COPY_KIB 0 kib {}
  let tail := ((sectionCounts c.sections).map (leBytes 4)).flatten ++ leBytes 4 (crc32c all).toNat
  s.hingeSend { typ := 2, swap := c.swap, last := true, epoch := c.epoch, payload := tail }

/-- Action 9 of a boundary (R36, R340): the changes of the closing epoch while a standby is served, else the heartbeat
alone. -/
def State.sendCopy (s : State) (swap : Bool) : State :=
  let clear (s : State) : State := { s with ldg := { s.ldg with retired := [], mapChanges := [] } }
  let s := s.hingeFill
  if !s.runs bHNG ∨ !s.isActive ∨ !s.pairEn ∨ !s.hng.linkUp then clear s
  else if !s.hng.copying then
    clear (if s.hng.unacked.length < hingeWindow then s.sendCopyFrames { epoch := s.epoch } else s)
  else
    let c : CopyOut := {
      epoch := s.epoch, swap := swap, sections := s.copySections,
      recs := (s.ldg.recs.filter fun e => e.2.sealed.isSome && !e.2.confirmed).map (·.2.rseq),
      dirty := (s.ldg.dirty.filter fun e => !e.2.confirmed).map (·.1) }
    let base := baseOf s.copyView
    clear ({ s with hng := { s.hng with copies := s.hng.copies ++ [c], base := base } }.sendCopyFrames c)

/-- A sync starts: the whole state goes to the standby, and copies flow from here on (R352). -/
def State.startSync (s : State) : State :=
  let ps := copyPayloads s.syncSections
  let n := ps.length
  let frames := (List.range n).zip ps
  let e := s.epoch
  let base := baseOf s.copyView
  let s := frames.foldl (fun s ip => s.hingeSend { typ := 6, last := ip.1 + 1 == n, epoch := e, payload := ip.2 }) s
  { s with hng := { s.hng with copying := true, base := base, copies := [] },
           ldg := { s.ldg with retired := [], mapChanges := [] } }

/-- A TIME frame: the reference time, and the epoch count of the last boundary (R338). -/
def State.sendTime (s : State) : State :=
  s.hingeSend { typ := 7, epoch := s.epoch, payload := leBytes 8 s.refTime ++ leBytes 8 s.epoch }

/-- Pairing is refused (R352). -/
def State.refusePair (s : State) (reason : Nat) : State :=
  (s.setReg HNG_STATUS_REFUSE 0 reason).raise HNG_EVENT_PAIR_REFUSED

/-- The active counts as paired from this boundary on: what the standby holds is confirmed (R335, R352). -/
def State.becomePaired (s : State) : State :=
  let s := { s with hng := { s.hng with paired := true, pairNext := false } }
  let e := s.reg HNG_CONFIRMED_EPOCH
  let news := (s.ldg.mapChanges.filter (·.2)).map (·.1)
  s.confirmRecords
    ((s.ldg.recs.filter fun r => (r.2.sealed.map fun x => decide (x ≤ e)).getD false).map (·.2.rseq))
    ((s.ldg.dirty.map (·.1)).filter fun k => !news.contains k)

/-- The active is ALONE from this boundary on (R347, R348): the solo rule holds, for what is durable already too. -/
def State.becomeAlone (s : State) : State :=
  let s := s.unhold none (s.hng.unacked.map HingeFrame.cells).sum
  let s := { s with hng := { s.hng with
    paired := false, pairNext := false, goAlone := false, copying := false, copies := [], base := [], unacked := [],
    waiting := [], detachReq := false } }
  let s := s.setRole roleACTIVE pairALONE
  if !s.ringCounts then s
  else
    s.confirmRecords
      ((s.ldg.recs.filter fun r => r.2.sealed.isSome && !s.stillQueued r.2.rseq).map (·.2.rseq))
      ((s.ldg.dirty.map (·.1)).filter fun k => !s.dirtyQueued k)

/-- A CONFIRM for copy `e` (R261, R341, R352, R358): result 0 confirms, result 1 sends the copy again. True where it
closed a planned swap. -/
def State.confirmCopy (s : State) (e result : Nat) : Bool × State :=
  match s.hng.copies.find? fun c => c.epoch == e with
  | none => (false, s)
  | some c =>
    if result ≠ 0 then (false, s.sendCopyFrames c)
    else
      let s := { s with hng := { s.hng with copies := s.hng.copies.filter fun k => k.epoch != e } }
      let s := s.setReg HNG_CONFIRMED_EPOCH 0 e
      let s := if e < s.epoch then (s.raise LDG_EVENT_CONFIRM_LATE).ldgRecord 6 0x3F else s
      let s := if s.hng.paired ∧ !s.top.pfw then s.confirmRecords c.recs c.dirty else s
      let s := if s.hng.paired then s else { s with hng := { s.hng with pairNext := true } }
      (c.swap, s)

/-! ### The Tether's frame (R344, R345) -/

/-- One bit of CRC-8, polynomial 0x07 (R344). -/
def crc8Bit (c : BitVec 8) : BitVec 8 := if c.getLsbD 7 then (c <<< 1) ^^^ 0x07#8 else c <<< 1

/-- One byte of CRC-8. -/
def crc8Byte (c : BitVec 8) (b : Byte) : BitVec 8 :=
  crc8Bit (crc8Bit (crc8Bit (crc8Bit (crc8Bit (crc8Bit (crc8Bit (crc8Bit (c ^^^ b))))))))

/-- CRC-8 with initial value 0 and no reflection. -/
def crc8 (bs : List Byte) : BitVec 8 := bs.foldl crc8Byte 0

/-- The CRC of a Tether frame's bits 63:8. -/
def tetherCrc (v : Nat) : Nat := (crc8 (beBytes 7 (v / 256))).toNat

/-- The 64 bits this part sends (R344). -/
def State.tetherBits (s : State) : Nat :=
  let v := 1 * 2 ^ 60 + 2 ^ 59 * (s.top.unitSel % 2) + 2 ^ 56 * s.role + 2 ^ 53 * s.pair + 2 ^ 52 * Bool.nat s.hng.coreOk +
    2 ^ 51 * Bool.nat s.top.pfw + 2 ^ 50 * Bool.nat s.hng.detachReq + 2 ^ 49 * Bool.nat s.hng.detachAck +
    2 ^ 32 * (s.epoch % 65536) + 2 ^ 16 * (s.hng.tetherSeq % 65536)
  v + tetherCrc v

/-- The receive pairs that are live at this instant: a frame within the last 30 µs (R344). -/
def State.tetherLive (s : State) (p : Nat) : Bool :=
  match SMap.find s.hng.tetherAt p with
  | some t => decide (s.ns ≤ 30000 + t)
  | none => false

/-- HNG_STATUS shows which pairs are live. -/
def State.showTether (s : State) : State :=
  (s.setFlag HNG_STATUS_TETHER0 0 (s.tetherLive 0)).setFlag HNG_STATUS_TETHER1 0 (s.tetherLive 1)

/-- A degraded alarm (R346). -/
def State.degraded (s : State) : State := (s.raise HNG_EVENT_DEGRADED).pairRecord 3

/-! ### Entering roles -/

/-- Every command that this part serves as active ends here without an answer, and its transport is empty. -/
def State.standDown (s : State) : State :=
  let s := (s.dropOut fun _ => true).dropInbox fun _ => true
  let s := (s.nlt.parks.flatMap (·.2)).foldl (fun s x => s.dropHeld x.rx x.pkt) s
  let s := s.nlt.parks.foldl (fun s e => s.setPark e.1 []) s
  let s := s.cmd.frames.foldl (fun s e => ((s.stopCommand e.1).updFrame e.1 fun c => { c with phase := .ended }).endCommand e.1) s
  { s with cmd := { s.cmd with frames := [] }, par := { s.par with holders := [], resync := [], repairs := [] } }.sweepGroups

/-- The part becomes a standby that synchronises with an active peer (R352). -/
def State.becomeStandby (s : State) : State :=
  let s := (s.standDown.voidLedger).voidCopy.persistStop
  let s := { s with hng := { s.hng with
    paired := false, pairNext := false, goAlone := false, copying := false, copies := [], base := [], detachReq := false,
    detachAck := false, contesting := false, undecided := false, deferring := false, swapping := 0, c0 := [],
    applied := none, syncing := true, missed := 0, acquiring := [], announce := 0 } }
  (s.setRole roleSTANDBY pairSYNCING).sendTime

/-- A FENCED part (R349): its ledger is void. -/
def State.fence (s : State) : State :=
  if s.pair = pairFENCED then s
  else
    let s := { s.voidLedger.persistStop with hng := { s.hng with
      paired := false, pairNext := false, goAlone := false, copying := false, copies := [], contesting := false,
      undecided := false, swapping := 0, acquiring := [] } }
    ((s.setRole s.role pairFENCED).raise HNG_EVENT_FENCED).pairRecord 6

end Sys2Proof.Machine
end

