-- ==== Sys2Proof/Machine/LedgerRows.lean ====
section
/-! DEFINITION. The ledger's start and stop, its replay, batches, the generation restore and the generation area, and the
commands that end pieces of work on sets (R51 to R53, R259 to R269, R291). -/

namespace Sys2Proof.Machine

open Sys2Proof.Reg

/-! ### Replay (R264, R291) -/

/-- A sealed record stands whole in its slot or in the slot's twin (R264, R315) (DEDUCED, log entry 75). -/
def State.slotWhole (s : State) (k : Nat) (r : Record) : Bool :=
  let b := r.sealedBytes k (r.sealed.getD 0)
  s.sbRead (slotAddr k) 128 == b || s.sbRead (slotAddr k + 256) 128 == b

/-- The Sideboard's ledger may be used: preserved, or held by a standby, and every sealed record is whole in a copy
(DEDUCED, log entry 75). -/
def State.ownLedger (s : State) : Bool :=
  s.ldg.preserved && s.ldg.recs.all fun e => e.2.sealed.isNone || s.slotWhole e.1 e.2

/-- What the ledger rings hold on their media: the newest complete checkpoint on either drive, then the batches that
follow it on either, up to the first gap (R264). -/
def chainBatches (all : List Batch) : Nat → Batch → List Batch
  | 0, b => [b]
  | n + 1, b =>
    match all.find? fun c => c.bseq == b.bseq + 1 with
    | some c => b :: chainBatches all n c
    | none => [b]

/-- The batches to replay. -/
def State.ringBatches (s : State) : List Batch :=
  let all := s.ledgerDrives.flatMap fun d => SMap.get [] s.ldg.media d
  match (all.filter (·.ckpt)).foldl (fun (b : Option Batch) c => match b with
      | none => some c
      | some d => if d.bseq < c.bseq then some c else b) none with
  | none => []
  | some c => chainBatches all all.length c

/-- One batch applied: a checkpoint replaces what is held; a batch adds records, retires others and changes the map. -/
def replayBatch (st : SMap Record × SMap Dirty) (b : Batch) : SMap Record × SMap Dirty :=
  let (rs, ds) := if b.ckpt then ([], []) else st
  let rs := rs.filter fun e => !b.retire.contains e.2.rseq
  let rs := b.full.foldl (fun m e => SMap.put e.1 e.2 m) rs
  let ds := ds.filter fun e => !b.cleared.contains e.1
  (rs, b.dirty.foldl (fun m e => SMap.put e.1 ({} : Dirty) m) ds)

/-- Replay at a restart or takeover: the open records and dirty maps from the first source held, the resyncs they owe, and
the tasks that resume (R264, R291). -/
def State.replay (s : State) : State :=
  let own := s.ownLedger
  let bs := s.ringBatches
  let (rs, ds) := if own then (s.ldg.recs, s.ldg.dirty) else bs.foldl replayBatch ([], [])
  let f (r : Record) : Record := { r with sealed := some (r.sealed.getD 0), confirmed := true, frame := none,
                                          writesDone := decide (0x10 ≤ r.kind) }
  let rs : SMap Record := (rs.filter fun e => e.2.sealed.isSome).map fun e => (e.1, f e.2)
  let g (d : Dirty) : Dirty := { d with confirmed := true, idle := 0 }
  let ds := ds.mapVal fun _ d => g d
  let top := rs.foldl (fun a e => max a e.2.rseq) s.ldg.rseq
  let lastB := bs.foldl (fun a b => max a b.bseq) s.ldg.bseq
  let s := { s with ldg := { s.ldg with recs := rs, dirty := ds, rseq := top, bseq := lastB, ckptDue := true,
                                        retired := [], retiredBatch := [], mapChanges := [], cleared := [],
                                        preserved := true } }
  let s := { s with par := { s.par with resync := [], holders := [], repairs := [] } }
  let s := (rs.filter fun e => decide (e.2.kind ≤ 6)).foldl (fun s e => s.addOpen e.2) s
  let s := ds.foldl (fun s e => s.addDirtyRows e.1) s
  let s := rs.foldl (fun s e => s.writeSlot e.1 (e.2.sealedBytes e.1 (e.2.sealed.getD 0))) s
  let s := (List.range 8).foldl State.resumeSet s
  s.countOpen.countDirty.countDamage

/-! ### START and STOP (R53, R265, R269) -/

/-- LDG runs, with the drives LDG_DRIVES names; one that is not READY counts as lost at once (R265)
(DEDUCED, log entry 72). -/
def State.ldgRun (s : State) : State :=
  let take (s : State) (d : Nat) : State × Nat :=
    if s.isReady d then (s, d) else ((s.raise LDG_EVENT_DRIVE_LOST).ldgRecord 1 d, 0x3F)
  let s := s.setRuns bLDG true
  let (s, a) := take s (s.reg LDG_DRIVES_A)
  let (s, b) := take s (s.reg LDG_DRIVES_B)
  let s := (s.setReg LDG_ACTIVE_A 0 a).setReg LDG_ACTIVE_B 0 b
  let ring (d : Nat) : Option Ring := if d = 0x3F then none else some { drawer := d, counts := true, next := s.ringNext d }
  let s := { s with ldg := { s.ldg with ringA := ring a, ringB := ring b, ckptDue := true },
                    cfg := { s.cfg with restored := true, restoring := false, restoreWait := none } }
  let s := if s.ringCounts then s else (s.raise LDG_EVENT_NO_RING).ldgRecord 4 0x3F
  (if s.isActive then s.replay else s).persistCurrent

/-- LDG_CMD.START acts: refused while PAR is stopped; the first after a reset restores the generation first (R53, R430). -/
def State.ldgDoStart (s : State) (p : Path) : State :=
  if s.runs bLDG ∨ s.inRecovery ∨ s.cfg.restoring ∨ s.cfg.restoreWait.isSome then s
  else if !s.runs bPAR then s.logErr 0x0D p LDG_CMD_START.addr
  else if s.cfg.restored then s.ldgRun
  else { s with cfg := { s.cfg with restoring := true } }

/-- LDG_CMD.STOP acts: refused while any record is unretired (R269). -/
def State.ldgDoStop (s : State) : State :=
  if !s.runs bLDG ∨ s.ldg.recs ≠ [] then s
  else
    let s := ((s.setRuns bLDG false).setReg LDG_ACTIVE_A 0 0x3F).setReg LDG_ACTIVE_B 0 0x3F
    let s := { s with ldg := { s.ldg with ringA := none, ringB := none } }
    s.countReplacing.persistStop

/-- The slots the restore takes, of READY Drawers: those of LDG_DRIVES where one of them holds a sealed slot, else of all
(R53) (DESIGN CHOICE, log entry 63). -/
def State.restoreSlots (s : State) (slots : List GenSlot) : List GenSlot :=
  let ready := slots.filter fun g => s.isReady g.drawer
  let named := ready.filter fun g => g.drawer == s.reg LDG_DRIVES_A || g.drawer == s.reg LDG_DRIVES_B
  if named.any fun g => g.readOk && g.sealed then named else ready

/-- What the restore takes: the best slot, or, in a pair, the standby's copy where its number is later (R53)
(DEDUCED, log entry 76). -/
def State.restoreChoice (s : State) (slots : List GenSlot) (peer : Option GenSlot) : Option GenSlot :=
  (bestSlot (s.restoreSlots slots)).map fun g =>
    match peer with
    | some h => if g.gen < h.gen then { h with seq := g.seq, slot := g.slot } else g
    | none => g

/-- GENERATION_RESTORE_DONE (R53): the slots that the restore read, and the standby's copy where a pair has one; the best becomes current at once while there are no
boundaries, else in action 3 of the next; LDG starts when the restore has ended (DESIGN CHOICE, log entry 63)
(DEDUCED, log entry 76). -/
def State.restoreDone (s : State) (slots : List GenSlot) (peer : Option GenSlot) : State :=
  if !s.cfg.restoring then s
  else
    match s.restoreChoice slots peer with
    | none => s.ldgRun
    | some g =>
      if s.unsync then (s.applyRestore g).gatesFollow.ldgRun
      else { s with cfg := { s.cfg with restoring := false, restoreWait := some g } }

/-- Action 3: a restore that waits acts, and LDG runs. -/
def State.restoreAtBoundary (s : State) : State :=
  match s.cfg.restoreWait with
  | some g => (s.applyRestore g).ldgRun
  | none => s

/-- A body or commit record of the generation area is written, or its write failed and the drive is lost (R51, R265). -/
def State.areaWritten (s : State) (d : Nat) (record ok : Bool) : State :=
  if !ok then s.ledgerDriveLost d
  else
    let s := s.persistDone d record
    match s.ringOn d with
    | some r => if record ∧ r.genDue then s.replacementDone d else s
    | none => s

/-- A ring's oldest batch is durable, or its write failed; a replacement that counts, and whose later batches are durable
too, is owed the generation slot (R52, R262, R265). -/
def State.ringBatchDone (s : State) (d : Nat) (ok : Bool) : State :=
  let s := s.batchDone d ok
  match s.ringOn d with
  | some r =>
    if r.genDue ∧ r.queue = [] ∧ s.cfg.queue = [] ∧ !(s.cfg.persist.map fun j => j.drawers.contains d).getD false then
      s.persistCurrent
    else s
  | none => s

end Sys2Proof.Machine
end

