-- ==== Sys2Proof/Machine/Handlers.lean ====
section
/-! DEFINITION. Threads and handlers: dispatch, resume, the staged handlers that stand for firmware images (DESIGN CHOICE, log entry 17),
and the ends of requests, grants and user commands (R15, R127 to R129, R134, R157 to R166, R187, R254 to R257). -/

namespace Sys2Proof.Machine

open Sys2Proof.Reg

/-! ### Threads (R157 to R162) -/

/-- A Bench thread is free: no command runs on it. -/
def State.threadFree (s : State) (t : Nat) : Bool := ((SMap.find s.bnc.threads t).bind (·.frame)).isNone

/-- The tickets of a mask. -/
def maskTickets (m : Nat) : List Nat := (List.range 64).filter (bitOf m)

/-- The mask of some tickets. -/
def ticketMask (ts : List Nat) : Nat := (ts.map fun t => 2 ^ t).sum

/-- The dispatch descriptor of a command (R162). -/
def State.descriptor (s : State) (f : Nat) (c : Cmd) : List Byte :=
  let v := c.volume
  let k := s.volSet v
  let r := s.rights c.sub v
  let bound := r.isSome
  leBytes 4 c.conn ++ leBytes 4 c.msgid ++ leBytes 4 c.csn ++ leBytes 2 c.sub ++ leBytes 2 f ++ leBytes 8 c.dispatched ++
    leBytes 4 c.gen ++ [b8 c.slot, b8 c.entry, b8 (r.getD 0), b8 k] ++ leBytes 8 (if bound then s.volSize v else 0) ++
    [b8 (s.setN k), 0] ++ leBytes 2 (s.setSb k * 4)

/-- Bytes from address `a` as table entries. -/
def listBytes (a : Nat) (bs : List Byte) : SMap Byte :=
  bs.zipIdx.foldl (fun m b => if b.1 = 0 then m else SMap.put (a + b.2) b.1 m) []

/-- A command takes thread `t` at `pc`: registers 0, the descriptor in the local store (R162). -/
def State.takeThread (s : State) (f t pc : Nat) : State :=
  match s.frame f with
  | none => s
  | some c =>
    let th : Thread := { frame := some f, pc := pc, store := listBytes 0 (s.descriptor f c) }
    let s := { s with bnc := { s.bnc with threads := SMap.put t th s.bnc.threads } }
    s.updFrame f fun c => { c with phase := .running t }

/-- Register `r` of a thread gets a free value. -/
def State.freeReg (s : State) (t r : Nat) : State :=
  let v := Config.freeValue s.freeCtr
  { s with freeCtr := s.freeCtr + 1 }.updThread t fun th => { th with g := SMap.put r v th.g }

/-- What a resume leaves undefined: g1 to g15 and the scratch of the local store (R159, DESIGN CHOICE, log entry 9). -/
def State.freeThreadState (s : State) (t : Nat) : State :=
  let s := (List.range 15).foldl (fun s i => s.freeReg t (i + 1)) s
  { s with freeCtr := s.freeCtr + 8192 }.updThread t fun th => { th with scratch := some s.freeCtr }

/-- g16 to g31 as the frame saved them (R159). -/
def savedRegs (l : List DWord) : SMap DWord := (l.zipIdx.filter fun e => e.1 != 0).map fun e => (e.2 + 16, e.1)

/-! ### The staged handlers (DESIGN CHOICE, log entry 17) -/

/-- Saved word `i` of a staged handler. -/
def Cmd.sv (c : Cmd) (i : Nat) : Nat := (c.saved.getD i 0).toNat

/-- It is written. -/
def State.setSv (s : State) (f i v : Nat) : State :=
  s.updFrame f fun c => { c with
    saved := (c.saved ++ List.replicate (16 - c.saved.length) 0).set i (BitVec.ofNat 64 v) }

/-- The result of a done ticket, its number freed: status, DETAIL, VALUE. -/
def State.takeResult (s : State) (f t : Nat) : State × Nat × Nat × Nat :=
  let w := (((s.ticket f t).bind (·.done)).getD 0).toNat
  (s.setTickets f (SMap.del t (s.tickets f)), w / 2 ^ 48, w / 2 ^ 32 % 2 ^ 16, w % 2 ^ 32)

/-- PARK on some tickets, to go on at a stage (R159). -/
def State.parkAt (s : State) (f stage : Nat) (ts : List Nat) : State :=
  s.updFrame f fun c => { c with phase := .parked (ticketMask ts), resumePc := stage }

/-- The staged handler requests its completion and ends; a device fault is recorded (R123). -/
def State.finishCmd (s : State) (f st dt r0 r1 : Nat) (isSealed : Bool) : State :=
  let s := match s.frame f with
    | some c => if st = 0x0020 then s.faultRecord c false dt 0 0 else s
    | none => s
  (s.complete f st dt r0 r1 isSealed).updFrame f fun c => { c with phase := .ended }

/-- The same with the group a handle names. -/
def groupIx (handle : Nat) : Nat := handle % 2 ^ 18

/-- READ after its checks (R21, R124): cells and tracker; drive read; decryption; DATA; completion
(DESIGN CHOICE, log entry 17). -/
def State.stageRead (s : State) (f : Nat) (c : Cmd) : State :=
  let n := c.nblk
  match c.resumePc with
  | 0 => (((s.issue f 0 (.cells (16 * n)) false).issue f 1 .track false).parkAt f 1 [0, 1])
  | 1 =>
    let (s, _, _, h) := s.takeResult f 0
    let (s, _) := s.takeResult f 1
    let s := s.setSv f 1 h
    let s := s.issue f 2 (.drive 0 0 0 c.volume (groupIx h) 0 c.slba n 0 0) false
    (s.issue f 3 .clear true).parkAt f 2 [2]
  | 2 =>
    let (s, st, dt, v) := s.takeResult f 2
    if st ≠ 0 then s.finishCmd f st dt 0 (if st = 0x0010 then c.slba + v else 0) false
    else
      let slot := s.reg CPH_VOLKEY_SLOT c.volume
      if s.flag CPH_VOLKEY_VALID c.volume then
        (s.issue f 4 (.cipher false slot (groupIx (c.sv 1)) 0 n (dataUnit c.volume c.slba) [] false) false).parkAt f 3 [4]
      else s.finishCmd f 0x0020 0x0C03 0 0 false
  | 3 =>
    let (s, st, dt, _) := s.takeResult f 4
    if st ≠ 0 then s.finishCmd f st dt 0 0 false
    else (s.issue f 5 (.data (groupIx (c.sv 1)) 0 0 (n * 4096) 0 none) false).parkAt f 4 [5]
  | _ =>
    let (s, st, dt, v) := s.takeResult f 5
    s.finishCmd f st dt 0 (if st = 0x0005 then c.doff + v else 0) false

/-- A page command: IDENTIFY and LOG_READ (R125, R126) (DESIGN CHOICE, log entry 17). -/
def State.stagePage (s : State) (f : Nat) (c : Cmd) (bytes : List Byte) : State :=
  match c.resumePc with
  | 0 => (s.issue f 0 (.cells (bytes.length / 256)) false).parkAt f 1 [0]
  | 1 =>
    let (s, _, _, h) := s.takeResult f 0
    let s := s.groupWrite (groupIx h) 0 bytes .other
    (s.issue f 5 (.data (groupIx h) 0 0 bytes.length 0 none) false).parkAt f 2 [5]
  | _ =>
    let (s, st, dt, v) := s.takeResult f 5
    s.finishCmd f st dt 0 (if st = 0x0005 then c.doff + v else 0) false

/-- FLUSH (R129) (DESIGN CHOICE, log entry 17). -/
def State.stageFlush (s : State) (f : Nat) (c : Cmd) : State :=
  match c.resumePc with
  | 0 => (s.issue f 2 (.drive 2 0 0 c.volume 0 0 0 0 0 0) false).parkAt f 1 [2]
  | _ =>
    let (s, st, dt, _) := s.takeResult f 2
    s.finishCmd f st dt 0 0 false

/-! ### Writes, row by row (R254 to R257) -/

/-- What one row's piece of a write is: the row, its spans, its blocks, the first column and the columns covered. -/
structure RowPlan where
  row : RowAt
  xs : List Span
  cnt : Nat
  lo : Nat
  run : Nat

/-- The next piece: the blocks of the next row. -/
def State.rowPlan (s : State) (c : Cmd) : Option RowPlan :=
  let k := c.sv 0
  let n := min 8192 (c.nblk - k)
  match spanRows (s.spans c.volume (c.slba + k) n) with
  | (r, xs) :: _ =>
    let (lo, run) := coverRun xs
    some { row := r, xs := xs, cnt := (xs.map (·.count)).sum, lo := lo, run := run }
  | [] => none

/-- Blocks of a piece that lie in its first group: all that one group holds, else whole strips behind the first, so that both
parts cover every column of the row. -/
def RowPlan.firstPart (p : RowPlan) : Nat :=
  if p.cnt ≤ 4096 then p.cnt else ((p.xs.map (·.count)).take 15).sum

/-- Span that changes strip `i` in column `c`. -/
def RowPlan.spanAt (p : RowPlan) (i c : Nat) : Option Span :=
  p.xs.find? fun x => x.strip == i && decide (x.boff ≤ c) && decide (c < x.boff + x.count)

/-- The columns of a piece. -/
def RowPlan.cols (p : RowPlan) : List Nat := (List.range p.run).map (· + p.lo)

/-- The piece is a whole stripe. -/
def State.wholeRow (s : State) (p : RowPlan) : Bool := p.cnt == p.row.n * s.setSb p.row.set

/-- Other writes' holders of column `c` of a row, oldest first (R257). -/
def State.holdersOf (s : State) (f : Nat) (r : RowAt) (c : Nat) : List Holder :=
  s.par.holders.filter fun h => h.frame != some f && h.set == r.set && h.row == r.row && decide (h.boff ≤ c) &&
    decide (c < h.boff + h.count)

/-- The form of a column: R256 reads as the reconstruct form does; the update form where it is busy, else by R254. -/
def State.formOf (s : State) (f : Nat) (p : RowPlan) (c : Nat) : Nat :=
  if s.readsAll p.row then 2
  else if s.holdersOf f p.row c ≠ [] then 3 else columnForm p.row.n (touched p.xs c)

/-- The forms of a piece as one number, two bits a column (1 full, 2 reconstruct, 3 update). -/
def State.formsOf (s : State) (f : Nat) (p : RowPlan) : List Nat := p.cols.map (s.formOf f p)

/-- A list of numbers below 4 packed into words of 32 each. -/
def packForms (l : List Nat) : Nat := l.foldr (fun v a => v + 4 * a) 0

/-- Form of the column at index `i` of a packed list. -/
def formAt (packed i : Nat) : Nat := packed / 4 ^ i % 4

/-- Strips of a column that are read (R254, R256). -/
def State.stripsRead (s : State) (p : RowPlan) (degraded : Bool) (packed c : Nat) : List Nat :=
  let n := p.row.n
  let form := formAt packed (c - p.lo)
  let data := (List.range n).filter fun i =>
    if degraded then (s.stripHome p.row i).isSome
    else if form = 2 then (p.spanAt i c).isNone
    else if form = 3 then (p.spanAt i c).isSome
    else false
  let syn := [n, n + 1].filter fun i => if degraded then (s.stripHome p.row i).isSome else form == 3
  data ++ syn

/-- Consecutive runs of a rising list: first and length. -/
def contRuns : List Nat → List (Nat × Nat)
  | [] => []
  | x :: xs =>
    match contRuns xs with
    | (a, n) :: rest => if a = x + 1 then (x, n + 1) :: rest else (x, 1) :: (a, n) :: rest
    | [] => [(x, 1)]

/-- Where strip `i` of a piece's old blocks lies: its group and byte offset. -/
def RowPlan.oldAt (p : RowPlan) (c : Cmd) (i col : Nat) : Nat × Nat :=
  if i < 12 then (groupIx (c.sv 3), (i * p.run + (col - p.lo)) * 4096)
  else (groupIx (c.sv 4), ((i - 12) * p.run + (col - p.lo)) * 4096)

/-- The reads of a piece: from the drives, or P and Q from the newest holder's output cells (R257)
(DEDUCED, log entry 34). -/
def State.pieceReads (s : State) (f : Nat) (c : Cmd) (p : RowPlan) (degraded : Bool) (packed : Nat) :
    List ReadJob × List (Nat × Nat × List Byte) :=
  let want (i col : Nat) : Bool := (s.stripsRead p degraded packed col).contains i
  let chained (i col : Nat) : Option (List Byte) :=
    if i < p.row.n ∨ degraded then none
    else (s.holdersOf f p.row col).getLast?.bind fun h => h.out.map fun q =>
      s.groupRead q.1 ((if i = p.row.n then q.2.1 else q.2.2) + (col - h.boff) * 4096) 4096
  let jobs := (List.range (p.row.n + 2)).flatMap fun i =>
    (contRuns (p.cols.filter fun col => want i col && (chained i col).isNone)).map fun r =>
      let (g, o) := p.oldAt c i r.1
      ({ owner := f, ticket := 7, set := p.row.set, row := p.row.row, strip := i, boff := r.1, count := r.2, group := g,
         goff := o, unknown := s.rowUnknown p.row } : ReadJob)
  let copies := [p.row.n, p.row.n + 1].flatMap fun i => p.cols.filterMap fun col =>
    if want i col then (chained i col).map fun b => ((p.oldAt c i col).1, (p.oldAt c i col).2, b) else none
  (jobs, copies)

/-- The parts of a piece's data, each in a group of its own: what a group cannot hold lies in a second (R187): the part's
first block, its blocks, its group, and where it begins there. -/
def RowPlan.parts (p : RowPlan) (c : Cmd) : List (Nat × Nat × Nat × Nat) :=
  (0, p.firstPart, groupIx (c.sv 1), c.sv 7) ::
    if p.firstPart < p.cnt then [(p.firstPart, p.cnt - p.firstPart, groupIx (c.sv 1 / 2 ^ 32), 0)] else []

/-- New data of strip `i` in column `col`, where the piece changes it. -/
def State.newBlock (s : State) (c : Cmd) (p : RowPlan) (i col : Nat) : Option (List Byte) :=
  (p.spanAt i col).bind fun x =>
    let b := x.index + (col - x.boff)
    ((p.parts c).find? fun q => decide (q.1 ≤ b) && decide (b < q.1 + q.2.1)).map fun q =>
      s.groupRead q.2.2.1 (q.2.2.2 + (b - q.1) * 4096) 4096

/-- The cells that the parity of a piece is computed from: its data and its old blocks. -/
def RowPlan.sources (p : RowPlan) (c : Cmd) : List (Nat × Nat × Nat) :=
  ((p.parts c).map fun q => (q.2.2.1, q.2.2.2, q.2.1 * 4096)) ++
    [(groupIx (c.sv 3), 0, min 12 (p.row.n + 2) * p.run * 4096)] ++
    if 12 < p.row.n + 2 then [(groupIx (c.sv 4), 0, (p.row.n - 10) * p.run * 4096)] else []

/-- Old block of strip `i` in column `col`. -/
def State.oldBlock (s : State) (c : Cmd) (p : RowPlan) (i col : Nat) : List Byte :=
  let (g, o) := p.oldAt c i col
  s.groupRead g o 4096

/-- P and Q of one column (R252 to R254, R256). -/
def State.columnParity (s : State) (c : Cmd) (p : RowPlan) (degraded : Bool) (packed col : Nat) : List Byte × List Byte :=
  let n := p.row.n
  let old (i : Nat) : List Byte := s.oldBlock c p i col
  if !degraded ∧ formAt packed (col - p.lo) = 3 then
    (List.range n).foldl (fun pq i => match s.newBlock c p i col with
      | some nd => updateStrips i (old i) nd pq.1 pq.2
      | none => pq) (old n, old (n + 1))
  else
    let olds : List (List Byte) :=
      if degraded then
        let strips := (List.range (n + 2)).map old
        let miss := s.rowUnknown p.row
        let lost := ((List.range (n + 2)).filter miss.contains).zip (reconStrips n 4096 strips miss)
        (List.range n).map fun i => match lost.find? fun e => e.1 == i with
          | some e => e.2
          | none => old i
      else (List.range n).map old
    genStrips 4096 ((List.range n).map fun i => (s.newBlock c p i col).getD (olds.getD i []))

/-- P and Q of a piece into its parity cells: P of every column, then Q (R188). -/
def State.pieceParity (s : State) (c : Cmd) (p : RowPlan) (degraded : Bool) (packed : Nat) : State :=
  let pqs := p.cols.map (s.columnParity c p degraded packed)
  s.groupWrite (groupIx (c.sv 2)) 0 ((pqs.flatMap (·.1)) ++ pqs.flatMap (·.2)) .parity

/-- This write's holder of its columns changes. -/
def State.updHolder (s : State) (f : Nat) (p : RowPlan) (g : Holder → Holder) : State :=
  let mine (h : Holder) : Bool := h.frame == some f && h.set == p.row.set && h.row == p.row.row
  { s with par := { s.par with holders := s.par.holders.map fun h => if mine h then g h else h } }

/-- The cells of the next piece: data where it has none yet, P and Q, and room for old blocks. -/
def State.pieceCells (s : State) (f : Nat) (p : RowPlan) (data : Bool) (ts : List Nat) : State :=
  let w := (p.row.n + 2) * p.run
  let s := if data then s.issue f 0 (.cells (16 * p.firstPart)) false else s
  let big := data && decide (p.firstPart < p.cnt)
  let s := if big then s.issue f 12 (.cells (16 * (p.cnt - p.firstPart))) false else s
  let s := s.issue f 2 (.cells (32 * p.run)) false
  let s := s.issue f 3 (.cells (16 * (min 12 (p.row.n + 2) * p.run))) false
  let s := if 12 < p.row.n + 2 then s.issue f 4 (.cells (16 * (w - 12 * p.run))) false else s
  s.parkAt f 1 ((if data then [0] else []) ++ (if big then [12] else []) ++ [2, 3] ++ (if 12 < p.row.n + 2 then [4] else []) ++ ts)

/-- The next piece of a write begins; at the end of the range the command completes (R142). -/
def State.nextPiece (s : State) (f : Nat) (c : Cmd) : State :=
  if c.nblk ≤ c.sv 0 then s.finishCmd f 0 0 0 0 true
  else
    match s.rowPlan c with
    | none => s.finishCmd f 0x0011 0 0 0 false
    | some p =>
      if c.opcode = opDEALLOCATE ∧ s.wholeRow p then
        (s.issue f 9 (.ledger c.volume (c.slba + c.sv 0) p.cnt) false).parkAt f 6 [9]
      else s.pieceCells f p (c.opcode != opCOMPARE_WRITE) []

/-- Encrypt a piece, or go on where it stays zero ciphertext (R128). -/
def State.pieceCipher (s : State) (f : Nat) (c : Cmd) (p : RowPlan) : State :=
  let ts := if (s.ticket f 1).isSome then [1] else []
  if c.opcode = opDEALLOCATE then s.parkAt f 4 ts
  else if s.flag CPH_VOLKEY_VALID c.volume then
    let slot := s.reg CPH_VOLKEY_SLOT c.volume
    let qs := (p.parts c).zip [8, 13]
    let s := qs.foldl (fun s q => s.issue f q.2
      (.cipher true slot q.1.2.2.1 q.1.2.2.2 q.1.2.1 (dataUnit c.volume (c.slba + c.sv 0 + q.1.1)) [] false) false) s
    s.parkAt f 4 (qs.map (·.2) ++ ts)
  else s.finishCmd f 0x0020 0x0C03 0 0 false

/-- The stages of one piece (R15, R255). -/
def State.stagePiece (s : State) (f : Nat) (c : Cmd) (p : RowPlan) : State :=
  match c.resumePc with
  | 1 =>
    let take (s : State) (t i : Nat) : State :=
      if (s.ticket f t).isSome then
        let (s, _, _, h) := s.takeResult f t
        s.setSv f i h
      else s
    let s := (((take s 0 1).setSv f 5 0 |> fun s => take s 2 2) |> fun s => take s 3 3) |> fun s => take s 4 4
    let s := if (s.ticket f 12).isSome then
        let (s, _, _, h) := s.takeResult f 12
        s.setSv f 1 (((s.frame f).map (·.sv 1)).getD 0 + 2 ^ 32 * h)
      else s
    let c := (s.frame f).getD c
    if c.opcode = opWRITE then
      (s.issue f 5 (.xrdy (groupIx (c.sv 1)) 0 (c.sv 0 * 4096) (p.cnt * 4096) none) false).parkAt f 2 [5]
    else if c.opcode = opCOMPARE_WRITE then s.pieceCipher f c p
    else
      let s := (p.parts c).foldl (fun s q => s.groupWrite q.2.2.1 0 (List.replicate (q.2.1 * 4096) 0) .other) s
      s.pieceCipher f c p
  | 2 =>
    let (s, _, _, v) := s.takeResult f 5
    let got := c.sv 5 + v
    let s := s.setSv f 5 got
    if c.work.nak.isSome then s.finishCmd f (c.work.nak.getD 0) c.work.nakDetail 0 c.work.nakResult false
    else if got < p.cnt * 4096 then
      (s.issue f 5 (.xrdy (groupIx (c.sv 1)) got (c.sv 0 * 4096 + got) (p.cnt * 4096 - got) none) false).parkAt f 2 [5]
    else (s.issue f 6 (.filled (groupIx (c.sv 1)) 0 (p.cnt * 4096)) false).parkAt f 3 [6]
  | 3 =>
    let (s, st, dt, _) := s.takeResult f 6
    if st ≠ 0 then s.finishCmd f st dt 0 c.work.nakResult false else s.pieceCipher f c p
  | 4 =>
    let (s, st, dt, _) := s.takeResult f 8
    let (s, st2, dt2, _) := s.takeResult f 13
    let (s, _) := s.takeResult f 1
    if st ≠ 0 then s.finishCmd f st dt 0 0 false
    else if st2 ≠ 0 then s.finishCmd f st2 dt2 0 0 false
    else
      let degraded := s.readsAll p.row
      let busy := p.cols.flatMap (s.holdersOf f p.row)
      let waits : Bool := if degraded then busy != [] || s.columnsWritten p.row.set p.row.row p.lo p.run
        else busy.any fun h => h.out.isNone
      if waits then s.parkAt f 4 []
      else
        let forms := s.formsOf f p
        let packed := packForms forms
        let (jobs, copies) := s.pieceReads f c p degraded packed
        let mine : Holder := { frame := some f, set := p.row.set, row := p.row.row, boff := p.lo, count := p.run,
                               reads := if jobs = [] then 0 else 1, writes := (p.parts c).length,
                               forms := p.cols.zip forms }
        let others := s.par.holders.filter fun (h : Holder) => h.frame != some f
        let s : State := { s with par := { s.par with holders := others ++ [mine] } }
        let s := copies.foldl (fun s x => s.groupWrite x.1 x.2.1 x.2.2 .other) s
        let s := s.bumpBy PAR_CHAINED 0 (copies.length / 2) (s.cmdAttr (some f))
        let word (i : Nat) : Nat := packed / 2 ^ (64 * i) % 2 ^ 64
        let s := (List.range 8).foldl (fun s i => s.setSv f (8 + i) (word i)) (s.setSv f 6 (Bool.nat degraded))
        if jobs = [] then s.parkAt f 5 []
        else
          let k : Ticket := { req := .drive 0 0 2 c.volume 0 0 0 0 0 0, started := true }
          let s := s.setTickets f (SMap.put 7 k (s.tickets f))
          (s.startJobs f 7 (s.isDrawn f) jobs).parkAt f 5 [7]
  | 5 =>
    let (s, st, dt, _) := s.takeResult f 7
    let degraded := c.sv 6 == 1
    let s := s.setTickets f ((s.tickets f).filter fun e => decide (e.1 < 20))
    let src := p.sources c
    if st ≠ 0 then s.finishCmd f st dt 0 0 false
    else if !degraded ∧ s.rowUnknown p.row ≠ [] then
      (s.dropHolders fun h => h.frame == some f).parkAt f 4 []
    else if !s.onDie src then
      -- spilled cells come back for a PARITY request that names them (R210)
      (src.zipIdx.foldl (fun s r => s.issue f (20 + r.2) (.parity 3 0 0 0 r.1.1 r.1.2.1 r.1.1 r.1.2.1 r.1.2.2 0) false) s).parkAt f 5
        ((List.range src.length).map (20 + ·))
    else
      let packed := (List.range 8).foldr (fun i a => c.sv (8 + i) + 2 ^ 64 * a) 0
      let s := s.pieceParity c p degraded packed
      let s := s.updHolder f p fun h => { h with reads := 0, out := some (groupIx (c.sv 2), 0, p.run * 4096) }
      (s.issue f 9 (.ledger c.volume (c.slba + c.sv 0) p.cnt) false).parkAt f 6 [9]
  | 6 =>
    let (s, st, dt, _) := s.takeResult f 9
    if st ≠ 0 then s.finishCmd f st dt 0 0 false
    else
      let a := c.slba + c.sv 0
      let qs := if c.opcode = opDEALLOCATE ∧ s.wholeRow p then [] else (p.parts c).zip [10, 14]
      let s := if qs = [] then s.issue f 10 (.drive 3 0 0 c.volume 0 0 a p.cnt 0 0) false
        else qs.foldl (fun s q => s.issue f q.2 (.drive 1 (Bool.nat c.fua) 0 c.volume q.1.2.2.1 q.1.2.2.2 (a + q.1.1) q.1.2.1
          (groupIx (c.sv 2)) 0) false) s
      let s := if c.sv 0 + p.cnt < c.nblk then s else s.issue f 11 .clear true
      s.parkAt f 7 (10 :: (qs.drop 1).map (·.2))
  | _ =>
    let (s, st, dt, _) := s.takeResult f 10
    let (s, st2, dt2, _) := s.takeResult f 14
    if st ≠ 0 then s.finishCmd f st dt 0 0 false
    else if st2 ≠ 0 then s.finishCmd f st2 dt2 0 0 false
    else
      let give (s : State) (i : Nat) : State := if c.sv i = 0 then s
        else
          let s := s.askRelease (c.sv i % 2 ^ 32)
          (if c.sv i < 2 ^ 32 then s else s.askRelease (c.sv i / 2 ^ 32)).setSv f i 0
      let s := if c.opcode = opDEALLOCATE ∧ s.wholeRow p then s
        else (((give s 2 |> fun s => give s 3) |> fun s => give s 4) |>
          fun s => if c.opcode = opCOMPARE_WRITE then s else give s 1)
      let s := s.setSv f 0 (c.sv 0 + p.cnt)
      match c.work.nak with
      | some n => s.finishCmd f n c.work.nakDetail 0 c.work.nakResult false
      | none => s.nextPiece f ((s.frame f).getD c)

/-- WRITE, WRITE_ZEROES and DEALLOCATE (R15, R128) (DESIGN CHOICE, log entry 17). -/
def State.stageWrite (s : State) (f : Nat) (c : Cmd) : State :=
  if c.resumePc = 0 then
    let s := s.issue f 1 .track false
    s.nextPiece f c
  else
    match s.rowPlan c with
    | some p => s.stagePiece f c p
    | none => s.finishCmd f 0x0011 0 0 0 false

/-- COMPARE_WRITE (R127): the current blocks and the compare data first, then the write of its one piece
(DESIGN CHOICE, log entry 17). -/
def State.stageCompare (s : State) (f : Nat) (c : Cmd) : State :=
  let n := c.nblk
  match c.resumePc with
  | 0 =>
    let s := (s.issue f 0 (.cells (16 * n)) false).issue f 1 .track false
    (s.issue f 2 (.cells (32 * n)) false).parkAt f 20 [0, 1, 2]
  | 20 =>
    let (s, _, _, h) := s.takeResult f 0
    let (s, _) := s.takeResult f 1
    let (s, _, _, d) := s.takeResult f 2
    let s := (s.setSv f 13 h).setSv f 1 d
    (s.issue f 5 (.xrdy (groupIx d) 0 0 (2 * n * 4096) none) false).parkAt f 21 [5]
  | 21 =>
    let (s, _, _, v) := s.takeResult f 5
    let got := c.sv 5 + v
    let s := s.setSv f 5 got
    if c.work.nak.isSome then s.finishCmd f (c.work.nak.getD 0) c.work.nakDetail 0 c.work.nakResult false
    else if got < 2 * n * 4096 then
      (s.issue f 5 (.xrdy (groupIx (c.sv 1)) got got (2 * n * 4096 - got) none) false).parkAt f 21 [5]
    else
      let s := s.issue f 6 (.filled (groupIx (c.sv 1)) 0 (2 * n * 4096)) false
      (s.issue f 7 (.drive 0 0 0 c.volume (groupIx (c.sv 13)) 0 c.slba n 0 0) false).parkAt f 22 [6, 7]
  | 22 =>
    let (s, st6, dt6, _) := s.takeResult f 6
    let (s, st, dt, v) := s.takeResult f 7
    if st6 ≠ 0 then s.finishCmd f st6 dt6 0 c.work.nakResult false
    else if st ≠ 0 then s.finishCmd f st dt 0 (if st = 0x0010 then c.slba + v else 0) false
    else if s.flag CPH_VOLKEY_VALID c.volume then
      (s.issue f 8 (.cipher false (s.reg CPH_VOLKEY_SLOT c.volume) (groupIx (c.sv 13)) 0 n (dataUnit c.volume c.slba) []
        false) false).parkAt f 23 [8]
    else s.finishCmd f 0x0020 0x0C03 0 0 false
  | 23 =>
    let (s, st, dt, _) := s.takeResult f 8
    if st ≠ 0 then s.finishCmd f st dt 0 0 false
    else (s.issue f 8 (.parity 3 0 0 0 (groupIx (c.sv 13)) 0 (groupIx (c.sv 1)) 0 (n * 4096) 0) false).parkAt f 24 [8]
  | 24 =>
    let (s, _, _, d) := s.takeResult f 8
    if d ≠ 0xFFFFFFFF then s.finishCmd f 0x0009 0 0 (c.slba + d) false
    else
      let s := (s.askRelease (c.sv 13)).setSv f 7 (n * 4096)
      s.nextPiece f ((s.frame f).getD c)
  | _ =>
    match s.rowPlan c with
    | some p => s.stagePiece f c p
    | none => s.finishCmd f 0x0011 0 0 0 false

/-- The next stage of a staged handler (DESIGN CHOICE, log entry 17). -/
def State.stageOf (s : State) (f : Nat) (c : Cmd) : State :=
  if c.opcode = opREAD then s.stageRead f c
  else if c.opcode = opFLUSH then s.stageFlush f c
  else if c.opcode = opIDENTIFY then s.stagePage f c (s.identifyPage c)
  else if c.opcode = opLOG_READ then s.stagePage f c (s.logPages c)
  else if c.opcode = opKEEPALIVE then s.finishCmd f 0 0 0 0 false
  else if c.opcode = opCOMPARE_WRITE then s.stageCompare f c
  else if isUserOp c.opcode then s.finishCmd f 0x0003 0 0 0 false
  else s.stageWrite f c

/-- A staged handler goes on until it parks on a ticket that is not done, or ends; a park on nothing waits for the next
resume (DESIGN CHOICE, log entry 17). -/
def runStages (f : Nat) : Nat → State → State
  | 0, s => s
  | n + 1, s =>
    match s.frame f with
    | none => s
    | some c =>
      let s' := s.stageOf f c
      match s'.frame f with
      | none => s'
      | some c' =>
        match c'.phase with
        | .parked 0 => if c'.resumePc = c.resumePc then s' else runStages f n s'
        | .parked m => if s'.allDone f m then runStages f n s' else s'.bump BNC_PARKS 0 (c'.attr s')
        | _ => s'

/-- A staged handler runs on a thread from its dispatch or resume until it parks or ends; the thread is free then
(DESIGN CHOICE, log entry 17). -/
def State.runBuiltin (s : State) (f t : Nat) : State := (runStages f 64 (s.takeThread f t 0)).freeThread t

/-! ### COMMAND_DISPATCH and COMMAND_RESUME (R159, R160) -/

/-- The command is the first of its connection that waits in the dispatch queue. -/
def State.firstQueued (s : State) (f : Nat) (c : Cmd) : Bool :=
  s.cmd.frames.all fun e => e.1 == f || e.2.conn != c.conn || e.2.phase != .queued || decide (c.order < e.2.order)

/-- A dispatch: the first free-thread start of a command, behind the resumes that wait (R160). -/
def State.startCommand (s : State) (f t : Nat) : State :=
  match s.frame f with
  | none => s
  | some c =>
    if c.phase ≠ .queued then s
    else if s.noThread then s.noteWait f
    else if !s.threadFree t ∨ !s.firstQueued f c then s
    else
      let s := (s.updFrame f fun c => { c with issued := 0 }).bump BNC_DISPATCHES 0 (c.attr s)
      if c.slot = builtinSlot then s.runBuiltin f t
      else
        let pc := match SMap.find s.bnc.images c.slot with
          | some im => (im.entries.getD c.entry (0, false)).1
          | none => 0
        s.takeThread f t pc

/-- A resume on thread `t` (R159): the frame may have to be fetched from the Sideboard. -/
def State.resumeCommand (s : State) (f t : Nat) (cached : Bool) : State :=
  match s.frame f with
  | none => s
  | some c =>
    match c.phase with
    | .parked m =>
      if !s.allDone f m ∨ !s.threadFree t then s
      else
        let s := s.bump BNC_RESUMES 0 (c.attr s)
        let s := if cached then s else s.bump BNC_FRAME_MISSES 0 (c.attr s)
        if c.slot = builtinSlot then s.runBuiltin f t
        else
          let s := s.takeThread f t c.resumePc
          (s.updThread t fun th => { th with g := savedRegs c.saved }).freeThreadState t
    | _ => s

/-! ### Timeouts (R134, R166) -/

/-- CMD_GRANT.TIMEOUT: a grant without new DATA for so many working cycles closes, and its command ends (R134, R136). -/
def State.grantExpires (s : State) (k : Nat) : State :=
  match SMap.find s.ctx.grants k with
  | none => s
  | some g =>
    if g.isOpen ∧ max 1 (s.reg CMD_GRANT_TIMEOUT) ≤ s.rtu.cycle - g.lastCycle then
      let s := s.setGrant k { g with isOpen := false }
      ((s.bump CMD_GRANT_TIMEOUTS 0 (s.cmdAttr (some g.owner))).raise CMD_EVENT_GRANT_TIMEOUT).failData g.owner 0x0004 4 0
    else s

/-- WALL, 0 acting as 1. -/
def State.wall (s : State) : Nat := max 1 (s.reg BNC_USER_LIMITS_WALL)

/-- A user command without a completion request WALL working cycles after its dispatch faults (R166). -/
def State.wallExpires (s : State) (f : Nat) : State :=
  match s.frame f with
  | none => s
  | some c =>
    if decide (32 ≤ c.slot) && decide (c.slot < 64) && c.comp.isNone && c.phase != .fenced &&
        decide (s.wall ≤ s.rtu.cycle - c.dispatchCycle) then
      let pc := match c.phase with
        | .running t => (s.thread t).pc
        | _ => c.resumePc
      s.faultCommand f 0x0B11 pc 0
    else s

end Sys2Proof.Machine
end

