-- ==== Sys2Proof/Machine/Transmit.lean ====
section
/-! DEFINITION. Sending: transmit opportunities, the numbering, protection and retention of packets, retransmission,
acknowledgement delay and rate control (R62, R69 to R75, R80 to R87, R91, R115, R212, R213, R221 to R228). -/

namespace Sys2Proof.Machine

open Sys2Proof.Reg

/-! ### One packet (R63 to R73, R80) -/

/-- The active value a DATA packet takes: the first at or after the turn, round robin (R72). -/
def Conn.entTurn (c : Conn) : Nat :=
  match c.active.find? fun j => decide (c.tx.rr ≤ j) with
  | some j => j
  | none => c.active.headD 0

/-- The wrap count of a PSN that has been taken (R80). -/
def ConnTx.wrapOf (t : ConnTx) (psn : Nat) : Nat := if psn < t.next then t.wrap else t.wrap - 1

/-- The packet is a RESET: sent once, never kept (R106). -/
def OutPkt.isReset (o : OutPkt) : Bool := o.typ == .ctrl && o.pkt.code == 9

/-- A packet's first transmission takes the next PSN, a sequenced one the next CSN, and its entropy value (R69, R71,
R72). -/
def State.numberPkt (s : State) (ci : Nat) (o : OutPkt) : OutPkt × State :=
  let c := s.conn ci
  let psn := c.tx.next
  let ent := if o.typ = .data then c.entTurn else c.lowEnt
  let k : Packet := { o.pkt with psn := psn, ent := ent, offset := if o.typ.sequenced then c.tx.csn else o.pkt.offset }
  let s := s.updConn ci fun c => { c with
    closedPsn := if o.typ = .ctrl ∧ o.pkt.code = 8 then some psn else c.closedPsn,
    tx := { c.tx with
      next := (psn + 1) % 2 ^ 32, wrap := if psn + 1 = 2 ^ 32 then c.tx.wrap + 1 else c.tx.wrap,
      csn := if o.typ.sequenced then (c.tx.csn + 1) % 2 ^ 32 else c.tx.csn,
      rr := if o.typ = .data then ent + 1 else c.tx.rr } }
  ({ o with pkt := k }, s)

/-- The FLAGS of a packet as it leaves (R65, R82): ACKREQ on PSN multiples of 64, on the last DATA of a message and on
retransmissions; RETX; TAG. -/
def outFlags (o : OutPkt) (gcm : Bool) : Nat :=
  let ack := o.typ.takesPsn && o.ci.isSome && (o.pkt.psn % 64 == 0 || (o.typ == .data && o.last) || o.retx)
  o.pkt.flags ||| (if ack then flagAckReq else 0) ||| (if o.retx then flagRetx else 0) ||| (if gcm then flagTag else 0)

/-- The payload of a DATA packet, from its cells. -/
def State.outPayload (s : State) (o : OutPkt) : List Byte :=
  match o.group with
  | some g => s.groupRead g o.goff o.pkt.plen
  | none => o.pkt.payload

/-- The connection's GCM key (R80, R101). -/
def State.connKey (s : State) (c : Conn) : List Byte := (s.keySlot c.keyslot).key.take 32

/-- Encryption and tag of a packet of a GCM connection under the key of its slot (R80). -/
def State.protectPkt (s : State) (t : PktType) (wrap slot : Nat) (k : Packet) : Packet :=
  let key := (s.keySlot slot).key.take 32
  let iv := gcmIv t k true wrap
  { k with payload := Config.gcmCrypt key iv k.payload,
           tag := (Config.gcmTag key iv (gcmAad t k) k.payload ++ List.replicate 16 0).take 16 }

/-- A frame with its packet protected. -/
def State.sealFrame (s : State) (f : NetFrame) (wrap slot : Nat) : NetFrame :=
  { f with out := { f.out with pkt := s.protectPkt f.out.typ wrap slot f.out.pkt } }

/-- Header check and trailer (R64, R68). -/
def checkedPkt (t : PktType) (k : Packet) : Packet :=
  let k := { k with hchk := headCheck t k }
  { k with crc := trailer t k }

/-! ### What leaving means to its sender (R77, R89, R141, R187) -/

/-- A DATA packet has left: counted for its command and its EMIT, which ends with the last one. -/
def State.dataLeft (s : State) (o : OutPkt) (f t : Nat) : State :=
  let s := s.updFrame f fun c => { c with work := { c.work with
    dataBytes := c.work.dataBytes + o.pkt.plen,
    lateDrawn := c.work.lateDrawn || (c.work.rsv.isSome && decide (c.work.deadline < s.linePos)) } }
  match (s.ticket f t).map (·.req) with
  | some (Req.data g go co len sent fail) =>
    let s := s.updTicket f t fun k => { k with req := .data g go co len (sent + o.pkt.plen) fail }
    if o.last ∧ fail.isNone then s.answer f t 0 0 (sent + o.pkt.plen) else s
  | _ => s

/-- A completion has left: its EMIT is done, and the command ends (R141, R157). -/
def State.completionLeft (s : State) (f : Nat) : State :=
  let s := s.updFrame f fun c => { c with
    comp := c.comp.map (fun k => { k with sent := true }),
    tickets := c.tickets.mapVal fun _ k => if k.req = .cmpl ∧ k.done.isNone then { k with ready := some 0 } else k }
  s.endCommand f

/-- A grant's XRDY has left: its EMIT ends with the bytes granted. -/
def State.xrdyLeft (s : State) (o t : Nat) : State :=
  match (s.ticket o t).map (·.req) with
  | some (Req.xrdy _ _ _ len _) => s.answer o t 0 0 len
  | _ => s

/-- What follows from a packet's first departure. -/
def State.packetLeft (s : State) (o : OutPkt) : State :=
  if o.retx then s
  else
    match o.typ, o.owner, o.ticket with
    | .data, some f, some t => s.dataLeft o f t
    | .cmpl, some f, _ => s.completionLeft f
    | .cmpl, none, _ => s.dropCell o.cell
    | .xrdy, some f, some t => s.xrdyLeft f t
    | .ctrl, some f, some t => s.answer f t 0 0 0
    | .mgmt, some f, some t => s.answer f t 0 0 0
    | _, _, _ => s

/-- The address of a logical port (R351). -/
def State.portAddr (s : State) (port : Nat) (v6 : Bool) : Nat :=
  if v6 then s.reg NLT_ADDR6_ADDR port else s.reg NLT_ADDR4_ADDR port

/-- The frame a packet leaves in (R58 to R62): to the peer of its connection, or back where the packet it answers came from,
a NAK 0x07 to the UDP port which that packet came from (DESIGN CHOICE, log entry 100). -/
def State.netFrame (s : State) (o : OutPkt) : NetFrame :=
  let ecn := if o.ce then 3 else if s.flag NLT_ECN_ECT_EN o.port then 2 else 0
  let base : NetFrame := { out := o, ecn := ecn, sport := sourcePort o.pkt.conn o.pkt.ent }
  match o.ci, o.asked with
  | some ci, _ =>
    let c := s.conn ci
    { base with v6 := c.v6, src := s.portAddr o.port c.v6, dst := c.peerIp, dmac := c.nexthop, tagged := c.tagged,
                vid := c.vid, pcp := c.pcp, dport := c.peerUdp, df := !c.v6 }
  | none, some m =>
    { base with v6 := m.v6, src := s.portAddr o.port m.v6, dst := m.src, dmac := m.smac, tagged := m.tagged, vid := m.vid,
                pcp := m.pcp, dport := m.sport, df := !m.v6 }
  | none, none => base

/-- A frame is on the wire of its port, its packet with header check and trailer (R60, R62); a stopped instance sends none
(R94). -/
def State.onWire (s : State) (f : NetFrame) : State :=
  let o := f.out
  if !s.portRuns o.port then s else
  let s := { s with nlt := { s.nlt with
    wire := SMap.put o.port { f with out := { o with pkt := checkedPkt o.typ o.pkt } } s.nlt.wire } }
  (s.bump NLT_TX_PKTS o.port (s.outAttr o)).packetLeft o

/-- The cells that a packet of a GCM connection takes on its way through the cipher engine: its checked ciphertext is written
there, and the port sends it from there; they are charged to its port and class (R14, R238) (DESIGN CHOICE, log entry
104). -/
def NetFrame.cipherCells (f : NetFrame) : Option Nat × Nat := (some (accountOf f.out.port f.pcp), cellsOf f.out.pkt.plen)

/-- They are given back. -/
def State.dropSent (s : State) (f : NetFrame) : State := s.unhold f.cipherCells.1 f.cipherCells.2

/-- The cells for a packet's ciphertext are there, or it needs none (R200, R202) (DESIGN CHOICE, log entry 104). -/
def State.cipherRoom (s : State) (o : OutPkt) : Bool :=
  match o.ci with
  | some ci => !(s.conn ci).gcm || o.pkt.plen == 0 || s.arrivalFits (accountOf o.port (s.conn ci).pcp) (cellsOf o.pkt.plen)
  | none => true

/-- A packet leaves: on a GCM connection by way of the cipher engine (R238), else at once. One that finds no pair is lost, and
retransmission recovers it (R240). -/
def State.launch (s : State) (o : OutPkt) : State :=
  match o.ci with
  | some ci =>
    let c := s.conn ci
    if c.gcm then
      let f := s.netFrame o
      let i : CphItem := .gcmTx f (c.tx.wrapOf o.pkt.psn) c.keyslot
      let (s, ok) := s.queueItem i
      if ok then s.hold f.cipherCells.1 f.cipherCells.2 else (s.noPair i).packetLeft o
    else s.onWire (s.netFrame o)
  | none => s.onWire (s.netFrame o)

/-! ### The egress check and RED (R115, R213) -/

/-- The status a DATA packet fails the egress check with at its first transmission (R115). -/
def State.egressFails (s : State) (o : OutPkt) : Option Nat :=
  match o.typ, o.owner, o.ci with
  | .data, some _, some ci =>
    (s.checkRegion o.pkt.key o.pkt.offset o.pkt.plen (s.conn ci).id (s.conn ci).sub).map fun e => e.1
  | _, _, _ => none

/-- A message that fails the egress check stops (R115): its completion carries the status. -/
def State.egressStop (s : State) (f st : Nat) : State :=
  (s.stopData f st).updFrame f fun c => { c with work := { c.work with nak := some (c.work.nak.getD st) } }

/-- Egress RED (R212, R213): whether the packet is dropped, and whether it is marked. -/
def State.egressRed (s : State) (ci : Nat) (o : OutPkt) : Bool × Bool × State :=
  let c := s.conn ci
  let col := match o.typ with
    | .xrdy | .data | .cmpl => o.colour
    | _ => 0
  let (h, s) := s.redDecide o.port (accountOf o.port c.pcp) true col
  match h with
  | .pass => (false, false, s)
  | .drop => (true, false, s.bump CAB_RED_DROP 0 c.attr)
  | .mark => if s.flag NLT_ECN_ECT_EN o.port then (false, true, s.bump CAB_RED_MARK_OUT 0 c.attr)
      else (true, false, s.bump CAB_RED_DROP 0 c.attr)

/-- A dropped packet counts as sent towards its sender: retransmission recovers it (R83). -/
def State.redLaunch (s : State) (ci : Nat) (o : OutPkt) : State :=
  let (drop, mark, s) := s.egressRed ci o
  if drop then s.packetLeft o else s.launch { o with ce := mark }

/-! ### Transmission -/

/-- The packet is charged to its connection's pacing bucket and to the shapers on its path, and counted (R91, R224). -/
def State.chargeOut (s : State) (ci : Nat) (o : OutPkt) : State :=
  let c := s.conn ci
  let s := s.updConn ci fun c => { c with tx := { c.tx with
    tokens := s.paceTokens c - s.outLength o * 8000, tokAt := s.ns } }
  (s.chargeShapers o.port c.pcp c.sub (s.outWire o)).bump SCH_CLASS_PKTS (8 * o.port + c.pcp) c.attr

/-- Cells of the packet hold what a drive read wrote and no decryption has passed (R22, R189). -/
def State.sealedCells (s : State) (o : OutPkt) : Bool :=
  match o.group with
  | some g => s.undecrypted g o.goff o.pkt.plen
  | none => false

/-- A packet of the hierarchy is sent for the first time (R69, R85): numbered, kept until acknowledged, in flight on its
region. -/
def State.sendFirst (s : State) (ci : Nat) (o : OutPkt) : State :=
  match s.egressFails o with
  | some st => s.egressStop (o.owner.getD 0) st
  | none =>
    if s.sealedCells o then s.stopData (o.owner.getD 0) 0x0020
    else
    let s := s.chargeOut ci o
    let s := match o.region with
      | some i => s.setRegion i { s.region i with inflight := (s.region i).inflight + 1 }
      | none => s
    let (o, s) := s.numberPkt ci o
    let s := if o.isReset then s
      else s.updConn ci fun c => { c with tx := { c.tx with
        retained := c.tx.retained ++ [{ out := o, stamp := s.epoch, lastEnt := o.pkt.ent }] } }
    s.redLaunch ci { o with pkt := { o.pkt with flags := outFlags o (s.conn ci).gcm, payload := s.outPayload o } }

/-- A packet is sent again (R72, R85 to R87): the next active value after the one the original used (DEDUCED, log entry 61), RETX,
its stamp anew. -/
def State.sendAgain (s : State) (ci : Nat) (o : OutPkt) : State :=
  let s := s.chargeOut ci o
  let ent := (s.conn ci).entAfter o.pkt.ent
  let o := { o with pkt := { o.pkt with ent := ent } }
  let s := s.updConn ci fun c => { c with tx := { c.tx with retained := c.tx.retained.map fun r =>
    if r.out.pkt.psn = o.pkt.psn then
      { r with lastEnt := ent, stamp := s.epoch, sends := r.sends + 1, due := false }
    else r } }
  if s.sealedCells o then s
  else s.redLaunch ci { o with pkt := { o.pkt with flags := outFlags o (s.conn ci).gcm, payload := s.outPayload o } }

/-- The packet leaves the queue. -/
def State.unqueue (s : State) (o : OutPkt) : State := { s with nlt := { s.nlt with txq := s.nlt.txq.erase o } }

/-- A PROBE request carries the reference time of its transmission (R67). -/
def State.restamp (s : State) (o : OutPkt) : OutPkt :=
  if o.typ = .probe ∧ o.pkt.code = 0 then { o with pkt := { o.pkt with ext := s.stampEntry } } else o

/-- A packet ahead of the hierarchy leaves (R98, R221). -/
def State.sendBypass (s : State) (o : OutPkt) : State :=
  let gcm := match o.ci with
    | some ci => (s.conn ci).gcm
    | none => false
  (s.unqueue o).launch (s.restamp { o with pkt := { o.pkt with flags := outFlags o gcm } })

/-- The port may send: it runs, is not down, and its link is not in the hold of a fault (R94, R214). -/
def State.portSends (s : State) (port : Nat) : Bool :=
  s.portRuns port && (s.isActive || s.inRecovery) && !s.portIsDown port && (SMap.find s.cab.faultAt port).isNone

/-- A port's transmit opportunity (R221, R222, R228). -/
def State.transmitOne (s : State) (port : Nat) : State :=
  if !s.portSends port then s
  else
    match s.nlt.txq.find? fun o => decide (o.port = port) && o.bypass && s.cipherRoom o with
    | some o => s.sendBypass o
    | none =>
      let s := s.syncRounds port
      let hs := s.heads port
      let held := hs.filter fun o => s.headState o == .guard
      if !s.portOpen port then s
      else
        let s := held.foldl (fun s o => s.bump SCH_GUARD_HOLDS port (s.outAttr o)) s
        match s.pickPacket port (hs.filter fun o => s.headState o == .ready && s.onDie o.cells && s.cipherRoom o) with
        | none => s
        | some (o, s) =>
          let s := s.unqueue o
          match o.ci with
          | some ci => if o.retx then s.sendAgain ci o else s.sendFirst ci o
          | none => s

/-! ### Acknowledgement delay (R82) -/

/-- DELAY has passed since the oldest arrival that no ACK covers: time has come to that point, an ACK leaves
(DESIGN CHOICE, log entry 15). -/
def State.ackDelayOver (s : State) (id : Nat) : State :=
  match s.findConn id with
  | none => s
  | some (ci, c) =>
    match c.rx.oldest with
    | some t => if c.known then (s.advanceTo (t + s.ackDelay c.lport)).sendAck ci c.rx.ackEnt else s
    | none => s

/-! ### Teardown and its commands (R87, R106, R214) -/

/-- The command is at the drives: it has submitted to them, or its intent records are written (R106). -/
def Cmd.atDrives (c : Cmd) : Bool :=
  c.work.driveOps != 0 || c.work.wroteDrive || c.work.driveSubmitted || c.work.records != []

/-- The commands of a torn-down connection: no completion is sent; what is at the drives runs to its end, but gets no more
data (R106) (DEDUCED, log entry 58). -/
def State.dropCommands (s : State) (id : Nat) : State :=
  (s.cmd.frames.filter fun e => e.2.conn == id).foldl (fun s e =>
    if e.2.atDrives then
      s.updFrame e.1 fun c => { c with waitRevoke := none, work := { c.work with nak := some (c.work.nak.getD 0x0001) } }
    else
      let s := (s.stopCommand e.1).dropWaiting e.1
      (s.updFrame e.1 fun c => { c with phase := .ended, waitRevoke := none }).complete e.1 0x0001 0 0 0 false) s

/-- A connection is torn down with its commands (R106): capsules not yet taken up go too (DEDUCED, log entry 58). -/
def State.closeConn (s : State) (ci : Nat) (reason : Option Nat) : State :=
  let id := (s.conn ci).id
  if (s.conn ci).known then
    let s := s.dropInbox fun d => d.conn == id
    (s.teardown ci reason).dropCommands id
  else s

/-- An event record of a port (R405). -/
def State.portRecord (s : State) (port ev cells conns : Nat) (source : Nat) : State :=
  s.record 0x40 2 source ([b8 port, b8 ev, 0, 0] ++ leBytes 4 cells ++ leBytes 4 conns)

/-- A PSN has been sent as often as it may be and is still unacknowledged (R87). -/
def State.retryExhausted (s : State) (ci : Nat) : State :=
  let port := (s.conn ci).lport
  ((s.raise NLT_EVENT_RETRY_EXHAUSTED port).portRecord port 3 0 1 bNLT).closeConn ci (some 3)

/-! ### Retransmission by timeout (R73, R85, R87) -/

/-- The retained packets of a connection whose stamps are RTO_EPOCHS old. -/
def State.timedOut (s : State) (c : Conn) : List Retained :=
  c.tx.retained.filter fun r => !r.due && decide (s.rtoEpochs c.lport ≤ s.epoch - r.stamp)

/-- Retire an entropy value, unless it is the last active one (R73). -/
def Conn.retire (c : Conn) (ent : Nat) : Conn :=
  if bitOf c.tx.retired ent ∨ c.active.all (· == ent) then c
  else { c with tx := { c.tx with retired := c.tx.retired ||| 2 ^ ent } }

/-- One PSN is due again. -/
def State.timeoutOne (s : State) (ci : Nat) (r : Retained) : State :=
  let s := s.updConn ci fun c =>
    let c := c.retire r.lastEnt
    { c with tx := { c.tx with timeout := true, retained := c.tx.retained.map fun x =>
      if x.out.pkt.psn = r.out.pkt.psn then { x with due := true, fast := false } else x } }
  { s with nlt := { s.nlt with txq := insertRetx { r.out with retx := true } s.nlt.txq } }.bump NLT_RETX_TO
    (s.conn ci).lport (s.conn ci).attr

/-- RETRANSMIT_TIMEOUT of a connection (R85, R87). -/
def State.retransmitAll (s : State) (id : Nat) : State :=
  match s.findConn id with
  | none => s
  | some (ci, c) =>
    if !c.known then s
    else
      let late := s.timedOut c
      if late.any fun r => decide (1 + s.retryMax c.lport ≤ r.sends) then s.retryExhausted ci
      else late.foldl (fun s r => s.timeoutOne ci r) s

/-! ### Rate control (R91) -/

/-- The end of a connection's rate interval. -/
def State.rateEnd (s : State) (id : Nat) : State :=
  match s.findConn id with
  | none => s
  | some (ci, c) =>
    let p := c.lport
    let cut := max 1 (s.reg NLT_RC_CUT_CUT p)
    let hit := c.tx.ceLatest != c.tx.ceSeen || c.tx.timeout
    let r := if hit then max (s.reg NLT_RC_FLOOR_FLOOR p) (c.tx.rate - c.tx.rate * cut / 256)
      else min (s.portRate p) (c.tx.rate + s.reg NLT_RC_STEP_STEP p)
    let s := s.updConn ci fun c => { c with tx := { c.tx with
      tokens := s.paceTokens c, tokAt := s.ns, rate := r, ceSeen := c.tx.ceLatest, timeout := false } }
    if hit then s.bump NLT_CUTS p c.attr else s

end Sys2Proof.Machine
end

