-- ==== Sys2Proof/Machine/HngRole.lean ====
section
/-! DEFINITION. Contests, takeover, activation, the planned swap, and what the two paths decide (R117, R335, R346 to R355).
-/

namespace Sys2Proof.Machine

open Sys2Proof.Reg

/-! ### Acquiring (R299, R348, R350) -/

/-- A Reservation Acquire with RACQA = 1 goes on queue 15 of a Drawer. -/
def State.queueAcquire (s : State) (d : Nat) : State := s.queueOp { kind := .acquire, drawer := d }

/-- Write Exclusive is acquired on every READY Drawer but those in `done`: no write of a set reaches one before (R350). -/
def State.acquireOthers (s : State) (done : List Nat) : State :=
  let ds := (List.range 48).filter fun d => s.isReady d && !done.contains d
  let s := { s with hng := { s.hng with acquiring := ds } }
  (ds.foldl State.queueAcquire s).pumpAll

/-! ### Announcements (R350) -/

/-- An address answer a port sends: by 2 × port + IPv6, the address. -/
def State.announcePort (s : State) (port : Nat) : State :=
  let a4 := s.reg NLT_ADDR4_ADDR port
  let a6 := s.reg NLT_ADDR6_ADDR port
  let put (k a : Nat) (v6 : Bool) (s : State) : State :=
    if a = 0 then s else { s with nlt := { s.nlt with arpOut := SMap.put k (a, v6) s.nlt.arpOut } }
  if s.portRuns port then put (2 * port + 1) a6 true (put (2 * port) a4 false s) else s

/-- A gratuitous ARP or an unsolicited Neighbor Advertisement on every port with an address. -/
def State.announceAll (s : State) : State := (List.range 32).foldl State.announcePort s

/-! ### RESUME (R117) -/

/-- The records of commands of one connection that the new active will complete. -/
def State.knownOf (s : State) (id : Nat) : List CmdRec := (s.hng.records.filter fun e => e.2.conn == id).map (·.2)

/-- One direction moved on by 2^30, its wrap count carried. -/
def jumped (psn wrap : Nat) : Nat × Nat := ((2 ^ 30 + psn) % 2 ^ 32, wrap + (2 ^ 30 + psn) / 2 ^ 32)

/-- RESUME leaves on one connection: PSNs 2^30 on, CSNs from 0 (DEDUCED, log entry 70). -/
def State.resumeConn (s : State) (ci : Nat) : State :=
  let c := s.conn ci
  let (tn, tw) := jumped c.tx.next c.tx.wrap
  let (rb, rw) := jumped c.rx.base c.rx.wrap
  let next := SMap.get c.rx.csn s.hng.nextCsn c.id
  let cyc := s.rtu.cycle
  let s := s.updConn ci fun c => { c with
    tx := { c.tx with next := tn, una := tn, ackBase := tn, wrap := tw, csn := 0, retained := [], timeout := false, tokAt := s.ns },
    rx := { c.rx with base := rb, wrap := rw, csn := 0, bitmap := 0, held := [], flushes := [], sinceAck := 0,
                      oldest := none },
    lastRxCycle := cyc, keepCycle := cyc, sinceCycle := cyc, closeSent := false, closeCsn := none, closedPsn := none }
  s.sendCtrl ci 0x0A (beBytes 4 rb ++ beBytes 4 next ++ beBytes 4 (s.knownOf c.id).length ++ beBytes 4 0) true

/-- RESUME on every connection that was OPEN or CLOSING in the last copy. -/
def State.resumeAll (s : State) : State :=
  (s.ctx.conns.filter fun e => e.2.state == cOPEN || e.2.state == cCLOSING).foldl (fun s e => s.resumeConn e.1) s

/-- A completion of a copied command: its status where it was released, else BUSY_RETRY with DETAIL 6; RESUMED is set
(R117, R343, R350). -/
def State.knownBytes (s : State) (r : CmdRec) : List Byte :=
  if r.event = 3 then r.cmpl.set 5 (b8 1)
  else completionBytes 0x0012 6 r.opcode r.csn 0 0 s.refTime true

/-- At the first boundary as active the known completions leave (R142, R350) (DEDUCED, log entry 70). -/
def State.sendKnown (s : State) : State :=
  if !s.isActive ∨ s.hng.records = [] then s
  else
    let s := s.hng.records.foldl (fun s e =>
      match s.findConn e.2.conn with
      | some (ci, c) =>
        if c.known then (if e.2.event = 3 then s else s.countBusy (c.attr) 0x0012).sendPkt {
          typ := .cmpl, ci := some ci, port := c.lport,
          pkt := { conn := c.id, flags := flagAckReq, msgid := e.2.msgid, plen := 32, payload := s.knownBytes e.2 } }
        else s
      | none => s) s
    { s with hng := { s.hng with records := [] } }

/-- A REVOKING region's revoke completes after RESUME is delivered on the connections of its owner (R117). -/
def State.settleRevoking (s : State) : State :=
  let resuming (r : Region) : Bool := s.ctx.conns.any fun e =>
    e.2.sub == r.sub && (!r.connScope || e.2.id == r.conn) &&
      ((e.2.tx.retained.any fun k => k.out.typ == .ctrl && k.out.pkt.code == 0x0A) ||
        s.nlt.txq.any fun o => o.ci == some e.1 && o.typ == .ctrl && o.pkt.code == 0x0A)
  (s.ctx.regions.filter fun e => e.2.state == 2 && e.2.inflight == 0 && !resuming e.2).foldl (fun s e => s.settleRegion e.1) s

/-! ### Becoming the active (R350, R353) -/

/-- The rings are those of LDG_ACTIVE; the first batch will be a checkpoint (R262) (DEDUCED, log entry 72). -/
def State.takeRings (s : State) : State :=
  let ring (d : Nat) : Option Ring := if d = 0x3F then none else some { drawer := d, counts := true, next := s.ringNext d }
  let a := ring (s.reg LDG_ACTIVE_A)
  let b := ring (s.reg LDG_ACTIVE_B)
  { s with ldg := { s.ldg with ringA := a, ringB := b, ckptDue := true } }.countReplacing

/-- The part serves from now on: it replays and writes the generation area (R264, R291, R353). -/
def State.serve (s : State) : State :=
  (if s.runs bLDG then s.takeRings.replay else s).persistCurrent

/-- A STARTING part becomes ACTIVE and ALONE (R353). -/
def State.activate (s : State) (acquired : List Nat) : State :=
  let s := { s with hng := { s.hng with contesting := false, undecided := false, deferring := false } }
  ((s.setRole roleACTIVE pairALONE).acquireOthers acquired).serve

/-- A standby takes over, by a contest or by a planned swap (R350, R354). -/
def State.takeOver (s : State) (swap : Bool) (acquired : List Nat) : State :=
  let put (m : SMap Nat) (c : Conn) : SMap Nat := SMap.put c.id c.rx.csn m
  let told : SMap Nat := if swap then (s.ctx.conns.map (·.2)).foldl put [] else s.hng.nextCsn
  let s := { s.dropCopies with hng := { s.hng with
    contesting := false, undecided := false, swapping := 0, syncing := false, applied := none, rxCopy := [],
    syncQueue := [], announce := 2, nextCsn := told } }
  let s := s.setRole roleACTIVE pairALONE
  let s := if swap then (s.raise HNG_EVENT_SWAPPED).pairRecord 7 else (s.raise HNG_EVENT_TOOK_OVER).pairRecord 5
  ((s.freshScheduler.deriveKeys.acquireOthers acquired).announceAll.resumeAll).serve

/-- The generations received in copies act at the first boundary as active (R50, R350) (DEDUCED, log entry 76). -/
def State.switchCopied (s : State) : State :=
  if !s.isActive ∨ s.hng.gens = [] then s
  else
    let s := s.hng.gens.foldl (fun s g =>
      if g.1 = s.reg CFG_GEN_CURRENT_GEN then { s with regs := { s.regs with cur := g.2, pend := g.2 } }
      else
        let old := s.regs.cur
        let back := s.flag CFG_STATUS_PREV_VALID && g.1 == s.reg CFG_GEN_PREVIOUS_GEN
        let p := s.reg CFG_GEN_CURRENT_GEN
        let prev := if back then [] else old
        let s := { s with regs := { s.regs with cur := g.2, pend := g.2, prev := prev } }
        let s := (s.setReg CFG_GEN_PREVIOUS_GEN 0 (if back then 0 else p)).setFlag CFG_STATUS_PREV_VALID 0 (!back)
        (s.setReg CFG_GEN_CURRENT_GEN 0 g.1).afterSwitch old (if back then 2 else 1)) s
    { s with hng := { s.hng with gens := [] } }

/-! ### The contest (R348) -/

/-- HNG_CONTEST shows the answers. -/
def State.showContest (s : State) : State :=
  let v (d : Nat) : Nat := SMap.get 0 s.hng.contest d
  (s.setReg HNG_CONTEST_A 0 (v (s.reg LDG_ACTIVE_A))).setReg HNG_CONTEST_B 0 (v (s.reg LDG_ACTIVE_B))

/-- The outcome once it is known (DEDUCED, log entry 70). -/
def State.contestOutcome (s : State) : State :=
  let as := s.hng.contest.map (·.2)
  if as.contains 2 then ((s.setReg HNG_CONTEST_OUTCOME 0 2).pairRecord 4).fence
  else if as.contains 0 then s
  else if as.contains 1 then
    let won := (s.hng.contest.filter fun e => e.2 == 1).map (·.1)
    let s := (s.setReg HNG_CONTEST_OUTCOME 0 1).pairRecord 4
    if s.role = roleSTARTING then s.activate won
    else if s.role = roleACTIVE then
      { s with hng := { s.hng with contesting := false, undecided := false, goAlone := true } }
    else s.takeOver false won
  else { s.setReg HNG_CONTEST_OUTCOME 0 3 with hng := { s.hng with undecided := true } }

/-- The ledger drives are asked, A then B; one that is not READY is unreachable. -/
def State.askDrives (s : State) : State :=
  let ds := s.ledgerDrives
  let answers := ds.map fun d => (d, if s.isReady d then 0 else 3)
  let s := { s with hng := { s.hng with contest := answers, undecided := false } }
  let s := (answers.filter fun e => e.2 == 0).foldl (fun s e => s.queueAcquire e.1) s
  s.pumpAll.showContest.contestOutcome

/-- A contest starts: 0 at the start of the pair, 1 for silence on both paths. -/
def State.startContest (s : State) (why : Nat) : State :=
  { s.bump HNG_CONTESTS with hng := { s.hng with contesting := true, contestWhy := why } }.askDrives

/-- A ledger drive's answer: 1 acquired, 2 conflict, 3 unreachable. -/
def State.contestAnswer (s : State) (d v : Nat) : State :=
  if s.hng.contesting ∧ SMap.find s.hng.contest d = some 0 then
    let cs := s.hng.contest.map fun e => if e.1 = d then (d, v) else e
    ({ s with hng := { s.hng with contest := cs } }.showContest).contestOutcome
  else s

/-- The contest for silence ends because a path lives (R348, R358). -/
def State.endContest (s : State) : State :=
  if s.hng.contesting ∧ s.hng.contestWhy = 1 then
    { s with hng := { s.hng with contesting := false, undecided := false } }
  else s

/-! ### Paths (R346) -/

/-- The Hinge path is silent. -/
def State.hingeSilent (s : State) : Bool := !s.hng.linkUp || decide (3 ≤ s.hng.missed)

/-- The active serves a standby, or synchronises one. -/
def State.servesStandby (s : State) : Bool := s.isActive && (s.hng.paired || s.hng.copying)

/-- A part that contests when both paths fall silent: a SYNCED standby whose peer had power, or an active with a standby
(R346, R355). -/
def State.contests (s : State) : Bool :=
  (s.role == roleSTANDBY && s.pair == pairSYNCED && !s.hng.peerPfw) || s.servesStandby

/-- What the paths decide after a change: bit 0 Hinge silent, bit 1 Tether silent. -/
def State.followPaths (s : State) : State :=
  let v := Bool.nat s.hingeSilent + 2 * Bool.nat s.hng.tetherSilent
  let old := s.hng.pathState
  let s := { s with hng := { s.hng with pathState := v } }
  let s := if v = 3 then s else s.endContest
  if v = old ∨ !s.runs bHNG ∨ !s.pairEn then s
  else if v = 3 then
    if s.contests ∧ !s.hng.contesting then (s.raise HNG_EVENT_PEER_ABSENT).startContest 1 else s
  else if v = 0 then s
  else
    let s := s.degraded
    if v = 1 ∧ s.servesStandby then { s with hng := { s.hng with detachReq := true } } else s

/-- A standby stands down (R347). -/
def State.detached (s : State) : State :=
  let s := s.voidLedger.voidCopy
  let s := { s with hng := { s.hng with detachAck := true } }
  (s.setRole roleSTANDBY pairDETACHED).raise HNG_EVENT_DETACHED

/-! ### The planned swap (R354) -/

/-- c0 of a connection: the lowest CSN that has not passed its release point, else the next to be delivered. -/
def State.swapCsn (s : State) (c : Conn) : Nat :=
  let waits := (s.cmd.inbox.filter fun d => d.conn == c.id).map (·.csn)
  let early := (s.cmd.frames.filter fun e => e.2.conn == c.id && !s.pastRelease e.2 &&
    !((e.2.comp.map (·.released)).getD false)).map (·.2.csn)
  (waits ++ early).foldl (fun a x => if serialBefore x a then x else a) c.rx.csn

/-- The drain begins: c0 is taken, and what lies before its release point from c0 on is withdrawn without an answer. -/
def State.beginDrain (s : State) : State :=
  let cs := (s.ctx.conns.filter fun e => e.2.known).map fun e => (e.2.id, s.swapCsn e.2)
  let cs := cs.foldl (fun m e => SMap.put e.1 e.2 m) ([] : SMap Nat)
  let s := { s with hng := { s.hng with swapping := 2, c0 := cs } }.dropInbox fun _ => true
  (s.cmd.frames.filter fun e => s.completionVoid e.2 && !s.pastRelease e.2).foldl (fun s e =>
    (((s.stopCommand e.1).refundDraw e.2).updFrame e.1 fun c => { c with phase := .ended }).endCommand e.1) s

/-- No drive operation is outstanding. -/
def State.drained (s : State) : Bool :=
  s.drv.drawers.all fun e => e.2.pend == [] && e.2.nnr == [] && e.2.again == [] && e.2.ctxs.all fun c => c.2.quar.isSome

/-- What the boundary does for a swap before its copy: true where this copy closes it. -/
def State.swapBoundary (s : State) : Bool × State :=
  if s.hng.swapping = 1 then (false, s.beginDrain)
  else if s.hng.swapping = 2 ∧ s.drained then
    let conns := s.ctx.conns.mapVal fun _ c =>
      { c with rx := { c.rx with csn := SMap.get c.rx.csn s.hng.c0 c.id } }
    (true, { s with hng := { s.hng with swapping := 3 }, ctx := { s.ctx with conns := conns } })
  else (false, s)

/-! ### The boundary (R36, R345, R348, R350, R354) -/

/-- Before the releases: pairing and going ALONE take effect, a standby that confirmed the last copy of a swap takes over,
unless its peer, still active, shows PFW and so has abandoned the swap (R358);
an undecided contest is tried again (DEDUCED, log entry 70) (DESIGN CHOICE, log entry 85). -/
def State.pairBoundary (s : State) : State :=
  let s := { s with hng := { s.hng with coreOk := true } }
  let s := if s.hng.goAlone ∧ s.role = roleACTIVE then s.becomeAlone else s
  let s := if s.hng.pairNext ∧ s.isActive then s.becomePaired else s
  let s := if s.role = roleSTANDBY ∧ s.hng.swapping = 4 then
      (if s.hng.peerPfw ∧ s.reg HNG_STATUS_PEER_ROLE = roleACTIVE then { s with hng := { s.hng with swapping := 0 } }
       else s.takeOver true []) else s
  if s.hng.contesting ∧ s.hng.undecided ∧ (s.hng.pathState = 3 ∨ s.hng.contestWhy = 0) then s.askDrives else s

end Sys2Proof.Machine
end

