-- ==== Sys2Proof/Machine/Power.lean ====
section
/-! DEFINITION. The power block: start and stop, channel faults, feeds, the ADC and the control link (R11, R361 to R376). -/

namespace Sys2Proof.Machine

open Sys2Proof.Reg

/-- An event record of slot or feed power (R405). -/
def State.powerRecord (s : State) (ev feed : Nat) : State :=
  s.record 0x81 2 bSLP ([b8 ev, b8 feed, 0, 0] ++ leBytes 4 (s.reg SLP_STATUS_BUS_MV))

/-- RETRY_MAX; 0 acts as 1. -/
def State.slotRetryMax (s : State) (d : Nat) : Nat := max 1 (s.reg SLP_CH_RETRY_MAX d)

/-- A channel faults with a cause (R363, R364, R366): latched off, or waiting to retry (DEDUCED, log entry 69). -/
def State.chFault (s : State) (d cause : Nat) : State :=
  let s := ((s.dropPg d).endLimiting d).bump SLP_CH_FAULTS d
  let s := (s.setReg SLP_CH_CAUSE d cause).raise (if cause = 1 then SLP_EVENT_FAST_TRIP else SLP_EVENT_TIMER_FAULT)
  let latches := !s.flag SLP_CH_MODE d || decide (s.slotRetryMax d ≤ s.reg SLP_CH_RETRIES d)
  let s := s.setChState d (if latches then chLATCHED else chRETRY_WAIT)
  let s := s.record 0x80 2 bSLP ([b8 d, b8 cause, b8 (s.reg SLP_CH_RETRIES d), b8 (Bool.nat latches)] ++
    leBytes 2 (s.reg SLP_CH_VOUT_MV d) ++ leBytes 2 (s.reg SLP_CH_I_MA d))
  if latches then
    let s := s.raise SLP_EVENT_LATCHED
    if s.dState d = dPOWERING then s.failDrawer d 10 else s
  else s

/-- The path current crosses ITRIP (R363): every state but OFF, RETRY_WAIT and LATCHED. -/
def State.fastTrip (s : State) (d : Nat) : State :=
  if chSTART ≤ s.chState d ∧ s.chState d ≤ chON then s.chFault d 1 else s

/-- The fault timer reaches TFAULT (R364). -/
def State.timerExpires (s : State) (d : Nat) : State := if s.flag SLP_CH_TIMER d then s.chFault d 2 else s

/-- The control link answers again (R11): the channels follow the Drawer logic once more. -/
def State.powerLinkRecovers (s : State) : State :=
  let s := s.setLinkSilent false
  (List.range 48).foldl (fun s d => if s.drawerRuns d then s.slotOn d
    else if s.chState d ≠ chOFF ∧ (s.dState d = dEMPTY ∨ s.dState d = dOFF) then s.slotOff d else s) s

/-! ### Feeds (R369) -/

/-- A feed that is on faults. -/
def State.feedFault (s : State) (f cause : Nat) : State :=
  if s.reg SLP_FEED_STAT_STATE f = 1 then
    (((s.setReg SLP_FEED_STAT_STATE f 2).setReg SLP_FEED_STAT_CAUSE f cause).raise SLP_EVENT_FEED_FAULT).powerRecord 3 f
  else s

/-- The summed current is above 20 A and a path lies outside ±5% of the mean of the two, both on and shared (R369)
(DEDUCED, log entry 74). -/
def State.outOfShare (s : State) : Bool :=
  let a := s.reg SLP_FEED_STAT_I_10MA 0
  let b := s.reg SLP_FEED_STAT_I_10MA 1
  s.reg SLP_FEED_STAT_STATE 0 == 1 && s.reg SLP_FEED_STAT_STATE 1 == 1 && s.flag SLP_SHARE_EN &&
    decide (2000 < a + b) && (decide (20 * a + (a + b) / 2 < 10 * (a + b)) || decide (10 * (a + b) + (a + b) / 2 < 20 * a))

/-- An ADC sample (R372): the bus in mV, slots with mA and mV, feeds with 10 mA units and mV
(DEDUCED, log entry 74). -/
def State.adcSample (s : State) (bus : Nat) (slots feeds : List (Nat × Nat × Nat)) : State :=
  let s := s.setReg SLP_STATUS_BUS_MV 0 bus
  let s := (slots.filter fun e => decide (e.1 < 48)).foldl (fun s e =>
    (s.setReg SLP_CH_I_MA e.1 e.2.1).setReg SLP_CH_VOUT_MV e.1 e.2.2) s
  let s := (feeds.filter fun e => decide (e.1 < 2)).foldl (fun s e =>
    (s.setReg SLP_FEED_STAT_I_10MA e.1 e.2.1).setReg SLP_FEED_STAT_VIN_MV e.1 e.2.2) s
  let out := s.outOfShare
  let s := if out ∧ !s.slp.shareLimit then (s.raise SLP_EVENT_SHARE_LIMIT).powerRecord 4 0 else s
  { s with slp := { s.slp with shareLimit := out } }

/-! ### START and STOP (R376) -/

/-- SLP_CMD.START: the enabled feeds turn on. -/
def State.slpDoStart (s : State) (p : Path) : State :=
  s.startBlock p SLP_CMD_START.addr bSLP SLP_EVENT_CMD_REFUSED [bCAB] fun s =>
    [0, 1].foldl (fun s f => s.setReg SLP_FEED_STAT_STATE f (s.reg SLP_FEED_CFG_EN f)) s

/-- SLP_CMD.STOP: refused while DRV runs or any channel is not OFF; every gate goes off. -/
def State.slpDoStop (s : State) : State :=
  s.stopBlock bSLP (s.runs bDRV || (List.range 48).any fun d => s.chState d != chOFF) SLP_EVENT_CMD_REFUSED fun s =>
    [0, 1].foldl (fun s f => s.setReg SLP_FEED_STAT_STATE f 0) s

end Sys2Proof.Machine
end

