-- ==== Sys2Proof/Machine/Recorder.lean ====
section
/-! DEFINITION. The event recorder: flushes into extents on the ledger drives or at the peer, the reading window, posts by
the Bureau, and the counters' clear (R404 to R420). -/

namespace Sys2Proof.Machine

open Sys2Proof.Reg

/-! ### Extents (R410) -/

/-- An own extent's bytes: header, records, trailer (R410; the places of the header's fields are PRESUMED, log entry 44). -/
def extentBytes (unit cause fseq time : Nat) (rs : List Rec) : List Byte :=
  let body := (rs.map Rec.bytes).flatten
  let units := (4095 + 64 + body.length + 16) / 4096
  let first := ((rs.head?.map (·.seq))).getD 0
  let header := leBytes 4 0x45565245 ++ [b8 1, b8 unit, b8 cause, 0] ++ leBytes 8 fseq ++ leBytes 4 first ++
    leBytes 4 rs.length ++ leBytes 4 units ++ leBytes 4 0 ++ leBytes 8 time
  let front := header ++ List.replicate (64 - header.length) 0 ++ body
  let front := front ++ List.replicate (units * 4096 - 16 - front.length) 0 ++ leBytes 8 fseq
  front ++ leBytes 4 (crc32c front).toNat ++ leBytes 4 0x45564543

/-- Most record bytes of an extent: 256 units less header and trailer. -/
def extentRoom := 256 * 4096 - 80

/-- Records cut into runs of consecutive SEQ, each within one extent's room: `open_` is the run being filled, last record
first, of `n` bytes. -/
def extentRuns : List Rec → List Rec → Nat → List (List Rec)
  | [], open_, _ => if open_ = [] then [] else [open_.reverse]
  | r :: rs, open_, n =>
    match open_ with
    | [] => extentRuns rs [r] r.size
    | p :: _ =>
      if (p.seq + 1) % 2 ^ 32 = r.seq ∧ n + r.size ≤ extentRoom then extentRuns rs (r :: open_) (n + r.size)
      else open_.reverse :: extentRuns rs [r] r.size

/-- The records of the running flush that are in no extent yet, in the order their extents are written: those on die
first while PFW_N is asserted (R409). -/
def State.flushOrder (s : State) : List (List Rec) :=
  let mine (rs : List Rec) : List Rec := rs.filter fun r => s.evr.range.contains r.seq
  if s.evr.flushCause = 2 then extentRuns (mine s.evr.ring) [] 0 ++ extentRuns (mine s.evr.overflow) [] 0
  else extentRuns (mine (s.evr.overflow ++ s.evr.ring)) [] 0

/-- The FSEQ-numbered extents of some runs. -/
def numberExtents (unit cause : Nat) : Nat → List (List Rec) → List Extent
  | _, [] => []
  | n, rs :: rest => { unit := unit, cause := cause, fseq := n, recs := rs } :: numberExtents unit cause (n + 1) rest

/-- This part's unit number. -/
def State.unit (s : State) : Nat := s.reg HNG_STATUS_UNIT

/-- Flushes go to the peer: a standby, a FENCED part, or no ledger drive (R411). -/
def State.flushesToPeer (s : State) : Bool :=
  s.role == roleSTANDBY || s.pair == pairFENCED || s.ledgerDrives == []

/-- An extent counts as flushed (R410, R411). -/
def State.extentFlushed (s : State) (x : Extent) : State :=
  if x.raw = [] then
    let seqs := x.recs.map (·.seq)
    let held := (s.evr.overflow ++ s.evr.ring).map (·.seq)
    let s := { s with evr := { s.evr with
      flushedRecs := (s.evr.flushedRecs ++ seqs).filter held.contains,
      toPeer := s.evr.toPeer.filter fun y => y.fseq != x.fseq } }
    ((s.setReg EVR_FSEQ_FSEQ 0 (max x.fseq (s.reg EVR_FSEQ_FSEQ))).bump EVR_EXTENTS).showFlushed
  else { s with evr := { s.evr with peer := s.evr.peer.filter fun y => y != x } }

/-- Whether extent `x` has been flushed already: its own records, or a peer's extent no longer kept. -/
def State.isFlushed (s : State) (x : Extent) : Bool :=
  if x.raw = [] then x.recs.all fun r => !(s.evr.unflushed.map (·.seq)).contains r.seq else !s.evr.peer.contains x

/-- Units of 4 KiB of an extent (R410). -/
def Extent.units (x : Extent) : Nat :=
  if x.raw = [] then (4095 + 64 + recBytes x.recs + 16) / 4096 else (4095 + x.raw.length) / 4096

/-- Extents being written are staged in cells of the system account, as far as it has room for them (R199, R201)
(DESIGN CHOICE, log entry 105). -/
def State.stageExtents (s : State) : State :=
  let heads := ((s.evr.queues.filterMap fun e => e.2.head?).eraseDups.map fun x => 16 * x.units).sum
  let n := heads - s.evr.staged
  if heads ≤ s.evr.staged then { s with evr := { s.evr with staged := heads } }.unhold none (s.evr.staged - heads)
  else if s.withinLimits none n ∧ s.fill + n ≤ s.cabUsable then { s with evr := { s.evr with staged := heads } }.hold none n
  else s

/-- The running flush is over once nothing of it is left to write; the one that follows starts (R409). -/
def State.endFlush (s : State) : State :=
  if s.evr.flushing && s.evr.range == [] && s.evr.toPeer == [] && (s.evr.queues.all fun e => e.2.all s.isFlushed) then
    let again := s.evr.flushAgain
    let s := { s with evr := { s.evr with flushing := false, flushAgain := none } }.setFlag EVR_STATUS_FLUSHING 0 false
    let s := s.raise EVR_EVENT_FLUSHED
    if s.top.pfw ∧ s.evr.unflushed ≠ [] then s.startFlush 2
    else match again with
      | some c => s.startFlush c
      | none => s
  else s

/-- No destination can be reached: the records stay unflushed (R411). -/
def State.failFlush (s : State) : State :=
  let s := { s with evr := { s.evr with flushing := false, flushAgain := none, range := [] } }.setFlag
    EVR_STATUS_FLUSHING 0 false
  s.raise EVR_EVENT_FLUSH_FAIL

/-- An extent goes to the peer in one RECORDER frame (R338, R411). -/
def State.sendExtent (s : State) (x : Extent) : State :=
  let data := extentBytes x.unit x.cause x.fseq s.stamp x.recs
  { s with evr := { s.evr with toPeer := s.evr.toPeer ++ [x] } }.hingeSend
    { typ := 8, last := true, epoch := s.epoch, payload := data }

/-- The extents of the flush that runs are built and submitted: to each ledger drive's queue, with the peer's that wait,
or to the peer (R409 to R411). A continuous flush starts again where PFW_N is asserted and records wait
(DEDUCED, log entry 79). -/
def State.planFlush (s : State) : State :=
  let s := if !s.evr.flushing && s.top.pfw && s.evr.unflushed != [] then s.startFlush 2 else s
  if !s.evr.flushing || s.evr.flushNs == s.ns then s
  else
    let runs := s.flushOrder
    let own := numberExtents s.unit s.evr.flushCause s.evr.nextFseq runs
    let placed (s : State) : State :=
      { s with evr := { s.evr with range := [], nextFseq := s.evr.nextFseq + own.length } }
    let s :=
      if !s.flushesToPeer then
        let queued := s.evr.queues.flatMap fun e => e.2
        let out := own ++ s.evr.peer.filter fun x => !queued.contains x
        let add (s : State) (d : Nat) : State :=
          { s with evr := { s.evr with queues := SMap.put d (SMap.get [] s.evr.queues d ++ out) s.evr.queues } }
        s.ledgerDrives.foldl add (placed s)
      else if own = [] then placed s
      else if s.runs bHNG && s.hng.linkUp then own.foldl State.sendExtent (placed s)
      else s.failFlush
    s.endFlush.stageExtents

/-- A drive's recorder area after an extent of `units` units: the next extent never wraps, and the head record is written
after every 256th (R410). -/
def RecArea.extend (a : RecArea) (units fseq : Nat) (top : Option Nat) : RecArea :=
  let start := if a.block + units ≤ 2097152 then a.block else 1081345
  let next := start + units
  { block := next, fseq := fseq + 1, head := if fseq % 256 = 0 then (fseq + 1, next) else a.head,
    topSeq := match top with
      | some q => some q
      | none => a.topSeq }

/-- The extent at the head of drive `d`'s queue is committed there (R410). -/
def State.extentDone (s : State) (d : Nat) (x : Extent) (rest : List Extent) : State :=
  let units := x.units
  let top := if x.raw = [] then (x.recs.getLast?).map (·.seq) else none
  let area := (SMap.get {} s.evr.area d).extend units x.fseq top
  let left := if rest = [] then SMap.del d s.evr.queues else SMap.put d rest s.evr.queues
  let fresh := !s.isFlushed x
  let s := { s with evr := { s.evr with queues := left, area := SMap.put d area s.evr.area } }
  if fresh then s.extentFlushed x else s

/-- An extent write of drive `d` failed: the drive is lost, and what no other drive holds is planned again (R307, R410). -/
def State.extentFails (s : State) (d : Nat) (q : List Extent) : State :=
  let s := { s with evr := { s.evr with queues := SMap.del d s.evr.queues } }.ledgerDriveLost d
  let others := s.evr.queues.flatMap fun e => e.2
  let orphans := q.filter fun x => x.raw == [] && !s.isFlushed x && !others.contains x
  let seqs := orphans.flatMap fun x => x.recs.map (·.seq)
  { s with evr := { s.evr with range := seqs ++ s.evr.range } }

/-- An extent write of drive `d` ends. -/
def State.extentCommitted (s : State) (d : Nat) (ok : Bool) : State :=
  match SMap.get [] s.evr.queues d with
  | [] => s.planFlush
  | x :: rest => (if ok then s.extentDone d x rest else s.extentFails d (x :: rest)).planFlush.endFlush.stageExtents

/-! ### The peer's extents (R411) -/

/-- Own extents whose frames the peer acknowledges up to `seq` count as flushed. -/
def State.ackRecorder (s : State) (seq : Nat) : State :=
  let acked := s.hng.unacked.filter fun f => f.typ == 8 && decide (seqDist f.seq seq < 32768)
  let fseqs := acked.map fun f => leNat ((f.payload.drop 8).take 8)
  let done := s.evr.toPeer.filter fun x => fseqs.contains x.fseq
  (done.foldl State.extentFlushed s).endFlush

/-- The peer area's 64 MiB keeps the newest extents. -/
def trimPeer : Nat → List Extent → List Extent
  | _, [] => []
  | room, x :: xs => if ((x :: xs).map (·.raw.length)).sum ≤ room then x :: xs else trimPeer room xs

/-- An extent from the peer is kept in the peer area and written at the next flush (R409, R411). -/
def State.peerExtent (s : State) (data : List Byte) : State :=
  let field (o n : Nat) : Nat := leNat ((data.drop o).take n)
  let x : Extent := { unit := field 5 1, cause := field 6 1, fseq := field 8 8, raw := data }
  let kept := trimPeer (64 * 2 ^ 20) (s.evr.peer ++ [x])
  ({ s with evr := { s.evr with peer := kept } }.bump EVR_PEER_EXTENTS).startFlush 5

/-! ### Commands (R409, R419) -/

/-- The body of EVR_POST: its first LEN bytes (DEDUCED, log entry 80). -/
def State.postBody (s : State) : List Byte :=
  ((List.range 256).flatMap fun i => leBytes 4 (s.reg EVR_POST_BODY i)).take (s.reg EVR_POST_LEN)

/-- GO: the Bureau's record is written with SOURCE 0, from any other path it is logged; types below 0xC0 are discarded. -/
def State.post (s : State) (p : Path) : State :=
  if p ≠ .bureau then s.logErr 0x05 p EVR_POST_GO.addr
  else if s.reg EVR_POST_TYPE < 0xC0 then s
  else s.record (s.reg EVR_POST_TYPE) (s.reg EVR_POST_SEVERITY) 0 s.postBody

/-! ### Reading (R408) -/

/-- A path's cursor. -/
def State.pathCursor (s : State) (p : Path) : Cursor := s.evr.cursors.getD p.idx {}

/-- It changes. -/
def State.setPathCursor (s : State) (p : Path) (c : Cursor) : State :=
  { s with evr := { s.evr with cursors := s.evr.cursors.set p.idx c } }

/-- The records that fit in `n` bytes, from the front. -/
def takePage : Nat → List Rec → List Rec
  | _, [] => []
  | n, r :: rs => if r.size ≤ n then r :: takePage (n - r.size) rs else []

/-- How far record `q` lies after `cur`; the next SEQ bounds what can be held. -/
def State.seqAfter (s : State) (cur q : Nat) : Nat :=
  if (2 ^ 32 + s.reg EVR_SEQ_SEQ - cur) % 2 ^ 32 < 2 ^ 31 then (2 ^ 32 + q - cur) % 2 ^ 32 else 2 ^ 32

/-- The records held from the cursor onward. -/
def State.heldFrom (s : State) (cur : Nat) : List Rec :=
  (s.evr.overflow ++ s.evr.ring).filter fun r =>
    decide (s.seqAfter cur r.seq < (2 ^ 32 + s.reg EVR_SEQ_SEQ - cur) % 2 ^ 32)

/-- A page is built from the cursor onward (R408). -/
def State.buildPage (s : State) (c : Cursor) : Cursor :=
  let rs := s.heldFrom c.cur
  let page := takePage 4096 rs
  match page with
  | [] => { c with page := none, count := 0, skip := 0 }
  | r :: _ => { c with page := some ((page.map Rec.bytes).flatten), count := page.length,
                       lastSeq := ((page.getLast?).map (·.seq)).getD c.cur, skip := s.seqAfter c.cur r.seq }

/-- Word `idx` of a page. -/
def Cursor.word (c : Cursor) (idx : Nat) : Nat := leNat (((c.page.getD []).drop (4 * idx)).take 4)

/-- A window read: the page is built where there is none; the read of its last word drops it and moves the cursor. -/
def State.windowRead (s : State) (p : Path) (idx : Nat) : State :=
  let c := s.pathCursor p
  let c := if c.page.isNone then s.buildPage c else c
  let len := (c.page.getD []).length
  let s := s.answerRead p [c.word idx]
  if 0 < len ∧ (len - 1) / 4 = idx then
    s.setPathCursor p { c with cur := (c.lastSeq + 1) % 2 ^ 32, page := none, count := 0 }
  else s.setPathCursor p c

/-- A write of EVR_CUR drops the page. -/
def State.moveCursor (s : State) (p : Path) (seq : Nat) : State :=
  s.setPathCursor p { s.pathCursor p with cur := seq, page := none, count := 0 }

/-! ### The counters (R414, R420) -/

/-- PMC_CMD OP 1: every counter returns to 0 at the next boundary. -/
def State.pmcClear (s : State) : State := { s with pmc := { s.pmc with clearDue := true } }

end Sys2Proof.Machine
end

