-- ==== Sys2Proof/Machine/Hng.lean ====
section
/-! DEFINITION. The commands and events of the pair: HNG_CMD, Hinge frames, the Tether, silence, contests, announcements
and the power-fail warning (R334 to R358). -/

namespace Sys2Proof.Machine

open Sys2Proof.Reg

/-! ### HNG_CMD (R353, R354, R359) -/

/-- The role decision of a part that starts. -/
def State.decideRole (s : State) : State :=
  if s.role ≠ roleSTARTING ∨ s.pair = pairFENCED then s
  else if !s.pairEn then s.activate ((List.range 48).filter s.isReady)
  else if s.reg HNG_STATUS_PEER_ROLE = roleACTIVE then s.becomeStandby
  else if s.top.unitSel = 0 then s.startContest 0
  else { s with hng := { s.hng with deferring := true } }

/-- OP 1. -/
def State.hngDoStart (s : State) (p : Path) : State :=
  s.startBlock p HNG_CMD_OP.addr bHNG HNG_EVENT_CMD_REFUSED [bLDG] State.decideRole

/-- OP 2: refused while the part is ACTIVE and paired. -/
def State.hngDoStop (s : State) : State := s.stopBlock bHNG (s.isActive && s.hng.paired) HNG_EVENT_CMD_REFUSED id

/-- A refused OP. -/
def State.refuseHng (s : State) : State := s.raise HNG_EVENT_CMD_REFUSED

/-- An ACTIVATE runs (R402). -/
def State.activating (s : State) : Bool := s.fwu.job.any fun j => j.op == 3 && j.result == 0

/-- OP 3: only on a paired active, and not during an ACTIVATE (R402). -/
def State.hngSwap (s : State) : State :=
  if s.runs bHNG ∧ s.isActive ∧ s.hng.paired ∧ s.hng.swapping = 0 ∧ !s.top.pfw ∧ !s.activating then
    { s with hng := { s.hng with swapping := 1 } }
  else s.refuseHng

/-- The peer lives: one of the paths is not silent, and it says that it is ACTIVE. -/
def State.livePeer (s : State) : Bool := (!s.hng.tetherSilent || !s.hingeSilent) && s.reg HNG_STATUS_PEER_ROLE == roleACTIVE

/-- OP 4: from DETACHED, or from FENCED with a live peer (DEDUCED, log entry 70). -/
def State.hngRejoin (s : State) : State :=
  if s.runs bHNG ∧ (s.pair = pairDETACHED ∨ (s.pair = pairFENCED ∧ s.livePeer)) then s.becomeStandby else s.refuseHng

/-- OP 5: the active detaches its standby. -/
def State.hngDetach (s : State) : State :=
  if s.runs bHNG ∧ s.isActive ∧ s.hng.paired then { s with hng := { s.hng with detachReq := true } } else s.refuseHng

/-- A write of HNG_CMD by its OP; other values are ignored. -/
def State.hngCommand (s : State) (p : Path) (op : Nat) : State :=
  match op with
  | 1 => (s.hngDoStart p).settle
  | 2 => s.hngDoStop
  | 3 => s.hngSwap
  | 4 => s.hngRejoin.settle
  | 5 => s.hngDetach
  | _ => s

/-! ### Received frames (R339) -/

/-- A frame with a bad trailer: counted, and its tail is bad (R206, R339). -/
def State.hingeBad (s : State) : State := (s.bump HNG_CRC_ERR).tailBad {}

/-- A sequenced frame of `n` payload bytes arrives in system cells (R199): discarded for its version or trailer, answered with
NAK where it is not the next or finds no cells (DESIGN CHOICE, log entry 42), else it acts. -/
def State.hingeReceive (s : State) (h : HingeHdr) (n : Nat) (act : State → State) : State :=
  if !s.runs bHNG ∨ !s.hng.linkUp then s
  else if h.ver ≠ 1 then s.bump HNG_CRC_ERR
  else if !h.crcOk then s.hingeBad.hingeControl 5 s.hng.rxSeq
  else if h.seq ≠ s.hng.rxSeq ∨ !s.withinLimits none (cellsOf n) ∨ s.cabUsable < s.fill + cellsOf n then
    s.hingeControl 5 s.hng.rxSeq
  else
    let s := (s.hold none (cellsOf n)).unhold none (cellsOf n)
    let s := { s with hng := { s.hng with rxSeq := (s.hng.rxSeq + 1) % 65536, sinceAck := s.hng.sinceAck + 1 } }.bump
      HNG_RX_FRAMES
    let s := act s
    if 32 ≤ s.hng.sinceAck then s.hingeAckNow else s

/-- An ACK or a NAK arrives: not sequenced (DESIGN CHOICE, log entry 42). -/
def State.hingeReceiveControl (s : State) (h : HingeHdr) (act : State → State) : State :=
  if !s.runs bHNG ∨ !s.hng.linkUp then s
  else if h.ver ≠ 1 then s.bump HNG_CRC_ERR
  else if !h.crcOk then s.hingeBad
  else act s

/-- The part receives a state copy: a standby that is neither detached nor fenced. -/
def State.receivesCopy (s : State) : Bool := s.role == roleSTANDBY && decide (s.pair ≤ pairSYNCED)

/-- HINGE_COPY (R341): its sections stay in system cells until their copy is applied. -/
def State.copyArrives (s : State) (sections : List CopySection) : State :=
  if s.receivesCopy then
    { s with hng := { s.hng with rxCopy := s.hng.rxCopy ++ sections } }.hold none (copyCells sections)
  else s

/-- CONFIRM of a copy (R338). -/
def State.sendConfirm (s : State) (epoch crc result : Nat) : State :=
  s.hingeSend { typ := 3, epoch := epoch, payload := leBytes 8 epoch ++ leBytes 4 crc ++ [b8 result] }

/-- A gap in EPOCH: the standby synchronises again (R341). -/
def State.copyGap (s : State) : State :=
  let s := { s.dropCopies with hng := { s.hng with syncing := true, applied := none, rxCopy := [], syncQueue := [] } }
  (s.setRole roleSTANDBY pairSYNCING).sendTime

/-- A copy whose CRC matched is applied in its turn and confirmed; the first after a sync makes the standby SYNCED; a copy
that closes a swap makes it take over at its next boundary (R341, R352, R354). -/
def State.applyCopy (s : State) (e : Nat) (swap : Bool) (cs : List CopySection) : State :=
  match s.hng.applied with
  | some a =>
    if e ≤ a then s
    else if e ≠ a + 1 then s.copyGap
    else finish s
  | none => finish s
where
  /-- The sections act. -/
  finish (s : State) : State :=
    let s := s.applySections cs
    let s := { s with hng := { s.hng with applied := some e, swapping := if swap then 4 else s.hng.swapping } }
    let s := s.sendConfirm e (crc32c (copyPayloads cs).flatten).toNat 0
    if s.pair = pairSYNCING then (s.setRole roleSTANDBY pairSYNCED).raise HNG_EVENT_SYNCED else s

/-- COPY_END at a standby: the heartbeat, the CRC over the copy's payloads, then the copy itself or its place in the queue
behind the sync (R341, R346, R352). -/
def State.copyEndArrives (s : State) (h : HingeHdr) (crc : Nat) : State :=
  let s := { s with hng := { s.hng with missed := 0 } }.followPaths
  if !s.receivesCopy then s
  else
    let cs := s.hng.rxCopy
    let s := { s with hng := { s.hng with rxCopy := [] } }
    if (crc32c (cs.map sectionBytes).flatten).toNat ≠ crc then (s.unhold none (copyCells cs)).sendConfirm h.epoch crc 1
    else if s.hng.syncing then { s with hng := { s.hng with syncQueue := s.hng.syncQueue ++ [(h.epoch, h.swap, cs)] } }
    else (s.unhold none (copyCells cs)).applyCopy h.epoch h.swap cs

/-- CONFIRM at the active (R261, R342): a swap's last copy makes it stand down (R354). -/
def State.confirmArrives (s : State) (epoch result : Nat) : State :=
  if !s.isActive then s
  else
    let (swap, s) := s.confirmCopy epoch result
    if swap ∧ s.hng.swapping = 3 then ((s.raise HNG_EVENT_SWAPPED).pairRecord 7).becomeStandby else s

/-- The queued copies act after the sync's last frame, in their order. -/
def State.drainSync (s : State) : State :=
  let q := s.hng.syncQueue
  let s := { s with hng := { s.hng with syncing := false, syncQueue := [] } }
  q.foldl (fun s c => (s.unhold none (copyCells c.2.2)).applyCopy c.1 c.2.1 c.2.2) s

/-- SYNC at a synchronising standby (R352). -/
def State.syncArrives (s : State) (h : HingeHdr) (cs : List CopySection) : State :=
  if s.receivesCopy ∧ s.hng.syncing then
    let s := s.applySections cs
    if h.last then s.drainSync else s
  else s

/-- Signed sub-lines by which the peer's boundaries follow this part's, modulo a working cycle: `time` is the peer's
reference time when it sent, `flight` the frame's flight in ns (R352, DEDUCED, log entry 43). -/
def State.peerPhase (s : State) (time flight : Nat) : Int :=
  let here : Nat := s.refTime % 2 ^ 24
  let there : Nat := time % 2 ^ 24 + (s.inSubLines flight).toNat
  let d : Int := ((here : Int) - (there : Int)) % 2 ^ 24
  if d < 2 ^ 23 then d else d - 2 ^ 24

/-- Why a pairing is refused (R352): 2 the boundary phase is beyond 2 lines, 3 the fused counts differ (R392), 4 bits 63:1
of DRV_RKEY differ; 0 where nothing speaks against it (DESIGN CHOICE, log entry 108). -/
def State.pairRefusal (s : State) (h : HingeHdr) (phase : Int) : Nat :=
  if phase < -8192 ∨ 8192 < phase then 2
  else if h.svn ≠ s.reg FWU_SVN_FUSED then 3
  else if h.rkey / 2 ≠ s.reg DRV_RKEY_KEY / 2 then 4
  else 0

/-- TIME (R352): the phase is measured. A standby that synchronises takes the active's epoch count and cycle number; the
active answers and starts the sync; either refuses where the two parts do not fit. A phase beyond 2 lines is an alarm at any
other part (R346) (DEDUCED, log entry 43). -/
def State.timeArrives (s : State) (h : HingeHdr) (time epoch flight : Nat) : State :=
  let d := s.peerPhase time flight
  let s := s.setReg HNG_PHASE_SUB 0 (int32 d)
  let reason := s.pairRefusal h d
  if s.role = roleSTANDBY ∧ s.pair = pairSYNCING then
    if reason ≠ 0 then s.refusePair reason
    else { s with rtu := { s.rtu with cycle := time / 2 ^ 24 } }.setReg RTU_EPOCH_COUNT_COUNT 0 epoch
  else if s.isActive ∧ s.pairEn then
    if reason ≠ 0 then s.refusePair reason else s.sendTime.startSync
  else if reason = 2 then s.degraded
  else s

/-! ### The link (R336, R339) -/

/-- 4 µs passed since the oldest unacknowledged frame was sent: everything unacknowledged is sent again. -/
def State.resendDue (s : State) : State :=
  match s.hng.unacked with
  | [] => s
  | f :: _ => if s.runs bHNG ∧ s.hng.linkUp then s.hingeResend f.seq else s

/-- 1 µs passed: frames received since the last ACK are acknowledged. -/
def State.ackDue (s : State) : State := if s.hng.sinceAck = 0 ∨ !s.hng.linkUp then s else s.hingeAckNow

/-- Lanes fail: the link retrains narrower, or is down below LANES_MIN. -/
def State.lanesFail (s : State) (lanes : Nat) : State :=
  let s := s.setReg HNG_STATUS_LANES 0 lanes
  if lanes < s.lanesMin then { s with hng := { s.hng with linkUp := false } }.followPaths else s.degraded

/-- The lanes finish training: a standby that is to synchronise asks for it. -/
def State.lanesTrain (s : State) (lanes : Nat) : State :=
  let s := s.setReg HNG_STATUS_LANES 0 lanes
  if lanes < s.lanesMin then s
  else
    let s := { s with hng := { s.hng with linkUp := true, missed := 0 } }.followPaths
    let s := if lanes < 8 then s.degraded else s
    if s.runs bHNG ∧ s.role = roleSTANDBY ∧ s.pair = pairSYNCING then s.sendTime else s

/-! ### The Tether (R344 to R347) -/

/-- What a standby or the active follows in the peer's frame (R335, R347, R352, R353, R358). -/
def State.followPeer (s : State) (v : Nat) : State :=
  let prole := bitsOf v 56 3
  let ppair := bitsOf v 53 3
  if !s.runs bHNG ∨ !s.pairEn then s
  else if s.role = roleSTANDBY then
    if bitOf v 50 ∧ !s.hng.contesting ∧ s.pair ≤ pairSYNCED then s.detached else s
  else if s.isActive then
    let s := if bitOf v 49 ∧ s.hng.detachReq then
        { s with hng := { s.hng with detachReq := false, goAlone := true } }.raise HNG_EVENT_DETACHED
      else s
    if prole ≠ roleSTANDBY then s
    else if ppair = pairSYNCED then
      if s.hng.copying ∧ !s.hng.paired then { s with hng := { s.hng with pairNext := true } } else s
    else { s with hng := { s.hng with paired := false, pairNext := false } }
  else if s.role = roleSTARTING ∧ prole = roleACTIVE ∧ !s.hng.contesting then s.becomeStandby
  else s

/-- A Tether frame (R344): discarded without a good CRC, version 1 and the other unit. -/
def State.tetherArrives (s : State) (pair : Nat) (f : TetherFrame) : State :=
  let v := f.bits.toNat
  if bitsOf v 60 4 ≠ 1 ∨ v % 256 ≠ tetherCrc v then s
  else if Bool.nat (bitOf v 59) = s.top.unitSel % 2 then
    if s.runs bHNG ∧ s.pairEn then s.refusePair 1 else s
  else
    let ok := bitOf v 52
    let s := { s with hng := { s.hng with tetherAt := SMap.put pair s.ns s.hng.tetherAt, peerPfw := bitOf v 51,
                                          tetherSilent := s.hng.tetherSilent && !ok } }.showTether
    let s := (s.setReg HNG_STATUS_PEER_ROLE 0 (bitsOf v 56 3)).setReg HNG_STATUS_PEER_PAIR 0 (bitsOf v 53 3)
    let s := s.setFlag HNG_STATUS_PEER_CORE_OK 0 ok
    s.followPaths.followPeer v

/-- Every 10 µs: the frame leaves on both pairs; an interval without a valid frame is counted; a pair that is no longer
live while the other is raises the alarm (R344, R346). -/
def State.tetherTick (s : State) : State :=
  let s := { s with hng := { s.hng with tetherOut := s.tetherBits, tetherSeq := (s.hng.tetherSeq + 1) % 65536 } }
  let heard := s.hng.tetherAt.any fun e => decide (s.ns < 10000 + e.2)
  let s := if heard then s else s.bump HNG_TETHER_MISS
  let both := s.flag HNG_STATUS_TETHER0 && s.flag HNG_STATUS_TETHER1
  let s := s.showTether
  if both ∧ s.tetherLive 0 ≠ s.tetherLive 1 ∧ s.runs bHNG ∧ s.pairEn then s.degraded else s

/-- 30 µs without a live frame that has CORE_OK: the Tether path is silent. -/
def State.tetherFalls (s : State) : State := ({ s with hng := { s.hng with tetherSilent := true } }.showTether).followPaths

/-- A COPY_END failed to arrive in its time: three in a row silence the Hinge path. -/
def State.copyEndMiss (s : State) : State :=
  if s.role = roleSTANDBY ∧ s.runs bHNG then { s with hng := { s.hng with missed := s.hng.missed + 1 } }.followPaths else s

/-! ### Contests, announcements, power (R348, R350, R353, R355) -/

/-- A ledger drive did not answer in CONTEST_US: unreachable; an acquire still waiting for a context is given up. -/
def State.contestTimesOut (s : State) (d : Nat) : State :=
  let s := s.updDrawer d fun w => { w with pend := w.pend.filter fun o => o.kind != .acquire }
  s.contestAnswer d 3

/-- START_DEFER has passed: unit 1 contests, unless it has found a peer. -/
def State.deferEnds (s : State) : State :=
  if s.hng.deferring ∧ s.role = roleSTARTING ∧ s.runs bHNG then
    { s with hng := { s.hng with deferring := false } }.startContest 0
  else s

/-- The announcement is repeated, three times in all. -/
def State.announceAgain (s : State) : State :=
  if s.hng.announce = 0 ∨ !s.isActive then s
  else { s with hng := { s.hng with announce := s.hng.announce - 1 } }.announceAll

/-- PFW_N as the power block and the Tether show it. -/
def State.setPfw (s : State) (b : Bool) : State := { s with top := { s.top with pfw := b } }.setFlag SLP_STATUS_PFW 0 b

/-- PFW_N asserts (R355, R358, R409): a planned swap whose last copy is not yet confirmed is abandoned, and the recorder
flushes. -/
def State.powerFails (s : State) : State :=
  if s.top.pfw then s
  else
    let s := ((s.setPfw true).raise SLP_EVENT_PFW).powerRecord 1 0
    let s := if 1 ≤ s.hng.swapping ∧ s.hng.swapping ≤ 3 then { s with hng := { s.hng with swapping := 0, c0 := [] } } else s
    s.startFlush 2

/-- PFW_N releases (R409). -/
def State.powerReturns (s : State) : State := if s.top.pfw then ((s.setPfw false).powerRecord 2 0).settle else s

end Sys2Proof.Machine
end

