-- ==== Sys2Proof/Machine/DriveDone.lean ====
section
/-! DEFINITION. How the commands at a drive end by their completion entries (R273, R299, R304 to R310, R348). -/

namespace Sys2Proof.Machine

open Sys2Proof.Reg

/-- An Abort's answer (R307, R308): DW0 bit 0 clear accounts for the original. -/
def State.abortAnswered (s : State) (d cid : Nat) (v : NvmeStatus) : State :=
  match SMap.find (s.drawer d).aborts cid with
  | none => if (s.drawer d).adminOut then s else s.bump DRV_STRAY d
  | some (q, c) =>
    let s := s.updDrawer d fun w => { w with aborts := SMap.del cid w.aborts }
    if v.sct = 0 ∧ v.sc = 0 ∧ v.dw0 % 2 = 0 then
      match s.ctxAt d q c with
      | some (key, x) => if x.quar.isSome then s.accountCtx d key else s
      | none => s
    else s

/-- The completion of a quarantined command (R308): late data is discarded and counted, unless the cells are named again. -/
def State.lateCompletion (s : State) (d key : Nat) (c : NvmeCtx) (v : NvmeStatus) : State :=
  let s := (s.bump DRV_LATE d (s.cmdAttr c.op.owner)).raise DRV_EVENT_LATE d
  let s := if v.data ≠ [] ∧ !c.reopened then s.bumpBy DRV_LATE_DMA d c.op.units (s.cmdAttr c.op.owner) else s
  s.accountCtx d key

/-- The data of a read in its cells (DESIGN CHOICE, log entry 21). -/
def State.readLands (s : State) (o : MemberOp) (v : NvmeStatus) : State :=
  if o.kind = .read then
    let n := o.units * 4096
    let bs := if v.data = [] then s.groupRead o.group o.goff n else (v.data ++ List.replicate (n - v.data.length) 0).take n
    s.groupWrite o.group o.goff bs .driveRead
  else s

/-- A Reservation Acquire ended (R299, R348, R350). -/
def State.acquireDone (s : State) (d : Nat) (ok : Bool) : State :=
  let s := if ok then
      { s with hng := { s.hng with acquiring := s.hng.acquiring.filter (· != d) } }
    else s
  s.contestAnswer d (if ok then 1 else 3)

/-- Reservation Conflict (R299, R348, R349): the Drawer is fenced for this part, which is FENCED while it is active and
loses its contest while one runs; no member is lost for it. -/
def State.conflicted (s : State) (d : Nat) (o : MemberOp) : State :=
  let s := s.updDrawer d fun w => { w with fenced := true, pend := if o.kind = .acquire then w.pend else o :: w.pend }
  let s := (s.raise DRV_EVENT_FENCED d).drawerRecord d (s.dState d) (s.dState d) 4
  let s := s.contestAnswer d 2
  if s.isActive then s.fence else s

/-- An outstanding command's completion: success, and the errors in the order of R309. -/
def State.commandEnds (s : State) (d key : Nat) (c : NvmeCtx) (v : NvmeStatus) : State :=
  let o := c.op
  let s := s.freeCtx d key
  if v.sct = 0 ∧ v.sc = 0 then
    if o.kind = .acquire then s.acquireDone d true else (s.readLands o v).opDone o
  else if v.sct = 0 ∧ v.sc = 0x83 then s.conflicted d o
  else if o.kind = .acquire then s.acquireDone d false
  else if v.sct = 2 ∧ v.sc = 0x81 ∧ o.kind = .read then
    let s := s.bump DRV_MEDIA_ERR d (s.cmdAttr o.owner)
    if o.job.isSome then s.jobFailed o true else s.endOpOf o
  else if v.sct = 0 ∧ v.sc = 0x82 ∧ !v.dnr ∧ o.notReady < 4 then
    s.updDrawer d fun w => { w with nnr := w.nnr ++ [{ o with notReady := o.notReady + 1 }] }
  else s.opFailed o v.dnr

/-- NVME_COMPLETION (R304): an entry is matched by queue, context and rotation; an entry that matches nothing is a stray
(DESIGN CHOICE, log entry 21). -/
def State.nvmeCompletion (s : State) (d sq cid : Nat) (v : NvmeStatus) : State :=
  let s := s.takeEntryCq d sq cid v
  if sq = 0 then s.abortAnswered d cid v
  else
    match s.ctxAt d sq cid with
    | none => s.bump DRV_STRAY d
    | some (key, c) =>
      match c.quar with
      | some _ => s.lateCompletion d key c v
      | none => s.commandEnds d key c v

end Sys2Proof.Machine
end

