-- ==== Sys2Proof/Machine/Mep.lean ====
section
/-! DEFINITION. The management endpoint: its link, resets, power states, MSI-X vectors, DMA channels and ATS (R377 to R384,
R388). -/

namespace Sys2Proof.Machine

open Sys2Proof.Reg

/-! ### Interrupt messages (R379, R382) -/

/-- Every pending vector's message that can leave now leaves. -/
def State.sendPending (s : State) : State := (List.range 64).foldl State.sendMsix s

/-- A write of MEP_VEC_ACK: the vectors are armed again, and one whose level is still 1 sends a new message. -/
def State.ackVectors (s : State) (mask : Nat) : State :=
  let vs := (List.range 64).filter (bitOf mask)
  let clear (m v : Nat) : Nat := if bitOf m v then m - 2 ^ v else m
  let s := { s with mep := { s.mep with disarmed := vs.foldl clear s.mep.disarmed } }
  vs.foldl State.serviceVector s

/-- A vector's mask bit written: unmasked, its pending message is sent. -/
def State.setMsixMask (s : State) (v : Nat) (m : Bool) : State := (s.setFlag MSIX_TABLE_MASK v m).sendMsix v

/-! ### DMA (R383, R384) -/

/-- A channel is busy. -/
def State.dmaBusy (s : State) (ch : Nat) : Bool := s.reg MEP_DMA_STATUS ch == 1

/-- A channel ends aborted. -/
def State.dmaAbort (s : State) (ch : Nat) : State := (s.setReg MEP_DMA_STATUS ch 2).raise MEP_EVENT_DMA_ABORT

/-- The host pages a copy covers. -/
def Dma.pages (x : Dma) : List Nat := (List.range ((4095 + x.host % 4096 + x.len) / 4096)).map (· + x.host / 4096)

/-- One page is looked up: a hit moves to the end of the least-recently-used order, a miss is asked for and takes the place
of the least recently used of 256 (R384). What the host answers is a free value (DESIGN CHOICE, log entry 6). -/
def State.translate (s : State) (page : Nat) : State :=
  match s.mep.ats.find? fun e => e.page == page with
  | some e =>
    let rest : List AtsEntry := s.mep.ats.filter fun x => x.page != page
    { s with mep := { s.mep with ats := rest ++ [e] } }.bump MEP_ATS_HITS
  | none =>
    let (v, s) := s.freeBits 52
    let old := s.mep.ats.drop (s.mep.ats.length - 255)
    let e : AtsEntry := { page := page, target := v }
    { s with mep := { s.mep with ats := old ++ [e] } }.bump MEP_ATS_MISSES

/-- The settings of a channel are legal (R388): aligned addresses, a length of 4 to 16 MiB in words. -/
def Dma.legal (x : Dma) : Bool :=
  x.host % 4 == 0 && x.sbd % 4 == 0 && x.len % 4 == 0 && decide (4 ≤ x.len) && decide (x.len ≤ 2 ^ 24)

/-- GO (R383): at once aborted while Bus Master Enable is 0; a busy channel goes on. -/
def State.dmaStart (s : State) (ch ctl : Nat) : State :=
  let x : Dma := { toHost := bitOf ctl 1, host := s.reg MEP_DMA_HOST ch, sbd := s.reg MEP_DMA_SBD ch,
                   len := s.reg MEP_DMA_LEN ch, ats := bitOf ctl 2 && s.mep.atsOn }
  if !bitOf ctl 0 ∨ s.dmaBusy ch then s
  else if !s.flag MEP_LINK_BME then s.dmaAbort ch
  else if !x.legal then s.setReg MEP_DMA_STATUS ch 3
  else
    let s := { s.setReg MEP_DMA_STATUS ch 1 with mep := { s.mep with dma := SMap.put ch x s.mep.dma } }
    let s := s.setFlag MEP_LINK_L1 0 false
    if x.ats then x.pages.foldl State.translate s else s

/-- An outstanding DMA read uses a page of a range (R383). -/
def State.dmaUses (s : State) (addr size : Nat) : Bool :=
  s.mep.dma.any fun e => !e.2.toHost && e.2.ats && decide (e.2.host < addr + size) && decide (addr < e.2.host + e.2.len)

/-- Invalidations whose reads are over are answered. -/
def State.answerInvals (s : State) : State :=
  let ready : List (Nat × Nat × Nat) := s.mep.invals.filter fun e => !s.dmaUses e.1 e.2.1
  let left : List (Nat × Nat × Nat) := s.mep.invals.filter fun e => s.dmaUses e.1 e.2.1
  let tags : List Nat := ready.map fun e => e.2.2
  let s := { s with mep := { s.mep with invals := left, invalDone := s.mep.invalDone ++ tags } }
  s.bumpBy MEP_INVALS 0 ready.length {}

/-- The bytes a copy from the Sideboard reads (R316). -/
def State.dmaBytes (s : State) (x : Dma) : List Byte := (List.range x.len).map fun k => s.bar2Byte (x.sbd + k)

/-- A copy into the Sideboard lies in the host area (R316). -/
def Dma.inHostArea (x : Dma) : Bool := decide (hostArea ≤ x.sbd) && decide (x.sbd + x.len ≤ hostArea + hostAreaSize)

/-- The completions of a copy are over: its data and its status, or, of an aborted one, the completions discarded. -/
def State.dmaDone (s : State) (ch : Nat) (ok : Bool) (data : List Byte) : State :=
  match SMap.find s.mep.dma ch with
  | none => s
  | some x =>
    let s1 := { s with mep := { s.mep with dma := SMap.del ch s.mep.dma } }
    let s1 :=
      if !s.dmaBusy ch then
        if x.toHost then s1 else s1.bumpBy MEP_DISCARDED 0 ((4095 + data.length) / 4096) {}
      else if !ok then s1.setReg MEP_DMA_STATUS ch 3
      else if x.toHost then { s1.setReg MEP_DMA_STATUS ch 0 with mep := { s1.mep with hostMem := s.dmaBytes x } }
      else if x.inHostArea then
        (s1.sbWrite x.sbd ((data ++ List.replicate x.len 0).take x.len)).setReg MEP_DMA_STATUS ch 0
      else s1.setReg MEP_DMA_STATUS ch 3
    s1.answerInvals

/-- An Invalidate Request: overlapping entries go; the answer waits for a read that uses one (R383, R384). -/
def State.invalidate (s : State) (addr size tag : Nat) : State :=
  let keep (e : AtsEntry) : Bool := decide (e.page * 4096 + 4096 ≤ addr) || decide (addr + size ≤ e.page * 4096)
  { s with mep := { s.mep with ats := s.mep.ats.filter keep, invals := s.mep.invals ++ [(addr, size, tag)] } }.answerInvals

/-! ### Bus Master Enable, FLR and the link (R378, R381, R383) -/

/-- Bus Master Enable clears: every busy channel ends aborted. -/
def State.bmeClear (s : State) : State :=
  ((List.range 4).filter s.dmaBusy).foldl State.dmaAbort (s.setFlag MEP_LINK_BME 0 false)

/-- An FLR starts: as Bus Master Enable clearing, then it waits for its outstanding requests. -/
def State.flrStart (s : State) : State :=
  { s.bmeClear with mep := { s.bmeClear.mep with flr := true } }.setFlag MEP_LINK_FLR 0 true

/-- One vector's table entry at its reset value. -/
def State.resetMsix (s : State) (v : Nat) : State :=
  ((s.setReg MSIX_TABLE_ADDR v 0).setReg MSIX_TABLE_DATA v 0).setFlag MSIX_TABLE_MASK v true

/-- The function's state at its reset values: configuration space, BAR sizes, MSI-X table, pending bits, ATS cache. -/
def State.resetFunction (s : State) : State :=
  let s := (List.range 64).foldl State.resetMsix s
  let s := (((s.setFlag MEP_LINK_MSIX 0 false).setFlag MEP_LINK_BME 0 false).setReg MEP_LINK_BAR0 0 0).setReg MEP_LINK_BAR2 0 5
  { s.setReg MEP_VEC_PEND_PEND 0 0 with mep := { s.mep with
    d3 := false, dma := [], atsOn := false, ats := [], invals := [], invalDone := s.mep.invalDone ++ s.mep.invals.map (·.2.2) } }

/-- The FLR is complete: the requests that were outstanding are answered or have timed out. -/
def State.flrDone (s : State) : State :=
  if s.mep.flr then
    let n := s.mep.invals.length
    let s := (s.resetFunction.bumpBy MEP_INVALS 0 n {}).abandonOwner .bar0
    ({ s with mep := { s.mep with flr := false } }.setFlag MEP_LINK_FLR 0 false).raise MEP_EVENT_FLR
  else s

/-- The management link leaves DL_Active (R388). -/
def State.mepLinkLeaves (s : State) : State :=
  (((s.setFlag MEP_LINK_UP 0 false).setReg MEP_LINK_WIDTH_SPEED 0 0).setFlag MEP_LINK_L1 0 false).raise MEP_EVENT_LINK_DOWN

/-- MEP_PERST_N (R378): the link leaves DL_Active, an FLR runs, configuration requests are retried until CFG_READY is set
again. -/
def State.mepPerst (s : State) : State :=
  let s := if s.flag MEP_LINK_UP then s.flrStart.mepLinkLeaves else s.flrStart
  { (s.setFlag MEP_CTRL_CFG_READY 0 false).setRuns bMEP false with mep := { s.mep with perst := true } }

/-- MEP_CTRL.CFG_READY written 1 (R378, R388): the endpoint answers, and its run bit reads 1. -/
def State.setCfgReady (s : State) : State := (s.setFlag MEP_CTRL_CFG_READY 0 true).setRuns bMEP true

/-- The width code of MEP_LINK (R388). -/
def widthCode (w : Nat) : Nat := if w = 4 then 3 else if w = 2 then 2 else 1

/-- The link reaches DL_Active: pending messages are sent. -/
def State.mepLinkUp (s : State) (width : Nat) (top : Bool) : State :=
  let s := { s with mep := { s.mep with perst := false } }
  (((s.setFlag MEP_LINK_UP 0 true).setReg MEP_LINK_WIDTH_SPEED 0 (widthCode width * 2 + Bool.nat top)).setFlag MEP_LINK_L1 0
    false).sendPending

/-- A message waits to be sent and can be. -/
def State.msixWaits (s : State) : Bool := (List.range 64).any fun v => bitOf (s.reg MEP_VEC_PEND_PEND) v && s.canSendMsix v

/-- L1_IDLE µs of idleness: the link enters L1 (R381). -/
def State.enterL1 (s : State) : State :=
  if s.flag MEP_LINK_UP ∧ s.mep.dma = [] ∧ !s.msixWaits then s.setFlag MEP_LINK_L1 0 true else s

/-- An error that the endpoint detects (R388, R405): an uncorrectable one is recorded and sets AER. -/
def State.endpointAer (s : State) (unc cor : Nat) (hdr : List Byte) : State :=
  let s := s.record 0x51 2 bMEP (aerBody 0xFF unc cor hdr)
  if unc = 0 then s else s.raise MEP_EVENT_AER

end Sys2Proof.Machine
end

