-- ==== Sys2Proof/Machine/Reset.lean ====
section
/-! DEFINITION. The reset scopes: what each keeps and clears (R330, R406, R423 to R426, R429, R447). -/

namespace Sys2Proof.Machine

open Sys2Proof.Reg

/-- Reset scopes as TOP_RSTCAUSE.SCOPE codes them (R433). -/
def scopePowerOn := 0
def scopeWarm := 1
def scopeShelf := 2

/-- The Sideboard's ledger area (R314). -/
def ledgerAreaSize := 0x4000000

/-- SEQ goes on one after the highest found in the recorder areas (R406). -/
def Evr.nextSeq (e : Evr) : Nat :=
  match e.area.filterMap fun a => a.2.topSeq with
  | [] => 0
  | q :: qs => (qs.foldl max q + 1) % 2 ^ 32

/-- FSEQ goes on after the drive with the higher one (R410). -/
def Evr.areaFseq (e : Evr) : Nat := e.area.foldl (fun n a => max n a.2.fseq) 1

/-- The registers a reset leaves: reset values, but for the fused count and SEQ (R392, R406, R424). -/
def State.resetRegs (s : State) : RegFile :=
  let live := storeField 0 (FWU_SVN_FUSED.key 0) (s.reg FWU_SVN_FUSED) []
  { live := storeField 0 (EVR_SEQ_SEQ.key 0) s.evr.nextSeq live }

/-- Drawers after a reset: their presence pins. -/
def presentOnly (m : SMap Drawer) : SMap Drawer :=
  (m.filter fun e => e.2.present).map fun e => (e.1, { present := true })

/-- What the Sideboard keeps: the ledger area where it is preserved, else nothing (R424, DESIGN CHOICE, log entry 3). -/
def State.keptMemory (s : State) (preserved : Bool) : Mem :=
  if preserved then s.sbd.mem.filter fun e => decide (ledgerBase ≤ e.1) && decide (e.1 < ledgerBase + ledgerAreaSize)
  else []

/-- The ledger after a reset: its media, and, preserved, its records and dirty map. -/
def Ldg.kept (l : Ldg) (preserved : Bool) : Ldg :=
  if preserved then { recs := l.recs, dirty := l.dirty, rseq := l.rseq, bseq := l.bseq, media := l.media, preserved := true }
  else { media := l.media }

/-- The state in reset: what R424 keeps, the rest at reset values. -/
def State.cleared (s : State) (phase : ResetPhase) (preserved : Bool) : State :=
  { freeCtr := s.freeCtr, pending := s.pending, regs := s.resetRegs,
    top := { phase := phase, unitSel := s.top.unitSel, pfw := s.top.pfw, clocksLost := s.top.clocksLost,
             thermtrip := phase == .tripped },
    evr := { area := s.evr.area, nextFseq := s.evr.areaFseq },
    mep := { perst := s.mep.perst },
    sbd := { mem := s.keptMemory preserved },
    ldg := s.ldg.kept preserved,
    drv := { drawers := presentOnly s.drv.drawers },
    fwu := { image := s.fwu.image, sealBlock := s.fwu.sealBlock, recovery := s.fwu.recovery, loaderOk := s.fwu.loaderOk,
             dbgDisable := s.fwu.dbgDisable } }

/-- TOP_RSTCAUSE, held in AON, as a reset sets it (R424, R433). -/
def State.setCause (s : State) (unit scope source : Nat) (preserved : Bool) : State :=
  let s := (s.setReg TOP_RSTCAUSE_UNIT 0 unit).setFlag TOP_RSTCAUSE_PRESERVED 0 preserved
  (s.setReg TOP_RSTCAUSE_SOURCE 0 source).setReg TOP_RSTCAUSE_SCOPE 0 scope

/-- PWR_OK falls: power-on reset, whatever else runs (R422, R429). -/
def State.powerOn (s : State) : State := (s.cleared .powerOn false).setCause 0 scopePowerOn 0 false

/-- A reset pin or TOP_RESET can start a reset: not in power-on reset, nor after a trip (R429, R447). -/
def State.resettable (s : State) : Bool := s.top.phase != .powerOn && s.top.phase != .tripped

/-- A warm reset starts (R423, R429): it governs a shelf reset, whose ledger is then lost. -/
def State.warmReset (s : State) (source : Nat) : State :=
  if s.resettable then (s.cleared .warm false).setCause (s.reg TOP_RSTCAUSE_UNIT) scopeWarm source false else s

/-- A shelf reset starts (R426): dispatch, releases and transmission stop; the HBM stacks go to self-refresh. -/
def State.shelfReset (s : State) (source : Nat) : State :=
  if s.top.phase = .run then
    { s with top := { s.top with phase := .shelfEntry, blkrst := [] } }.setCause (s.reg TOP_RSTCAUSE_UNIT) scopeShelf
      source false
  else s

/-- Both stacks are in self-refresh: PRESERVED is set, and everything but AON and the stacks is held (R426). -/
def State.selfRefreshed (s : State) : State :=
  if s.top.phase = .shelfEntry then
    (s.cleared .shelf true).setCause (s.reg TOP_RSTCAUSE_UNIT) scopeShelf (s.reg TOP_RSTCAUSE_SOURCE) true
  else s

/-- A sensor reaches its trip value (R447, R448). -/
def State.trip (s : State) : State :=
  (s.cleared .tripped false).setCause (s.reg TOP_RSTCAUSE_UNIT) (s.reg TOP_RSTCAUSE_SCOPE) (s.reg TOP_RSTCAUSE_SOURCE) false

/-- The trip temperature of a sensor in °C, by the ordering code: sensors 5 and 6 are the HBM stacks (R2, R446). -/
def State.tripTemp (s : State) (i : Nat) : Nat :=
  (if i = 5 ∨ i = 6 then 110 else 120) + (if s.reg TOP_ID_ORDER = 0 then 0 else 10)

/-- A 16-bit temperature in 1/16 °C as a signed number. -/
def signedTemp (t : Nat) : Int := if t < 2 ^ 15 then t else (t : Int) - 2 ^ 16

/-- Sensor `i` at `t` has reached its trip value (R447). -/
def State.trips (s : State) (i t : Nat) : Bool := decide (i < 7) && decide ((16 * s.tripTemp i : Nat) ≤ signedTemp t)

/-- TOP_RESET acts only with KEY 0xC0DE (R423). -/
def State.topReset (s : State) (key : Nat) (f : State → State) : State :=
  if key = 0xC0DE then f s else s.raise TOP_EVENT_RESET_REFUSED

end Sys2Proof.Machine
end

