-- ==== Sys2Proof/Machine/Fwu.lean ====
section
/-! DEFINITION. Firmware images, the loader's start, recovery, verify, program and activate, and the debug state (R389 to
R403). -/

namespace Sys2Proof.Machine

open Sys2Proof.Reg

/-! ### Images (R390, R391) -/

/-- One row of an image's section table. -/
structure FwSection where
  typ : Nat
  off : Nat
  len : Nat
  crc : Nat

/-- The section table. -/
def fwSections (img : List Byte) : List FwSection :=
  (List.range (leField img 6 2)).map fun i =>
    let o := 256 + 16 * i
    { typ := leField img o 1, off := leField img (o + 4) 4, len := leField img (o + 8) 4, crc := leField img (o + 12) 4 }

/-- A section's bytes. -/
def FwSection.bytes (x : FwSection) (img : List Byte) : List Byte := (img.drop x.off).take x.len

/-- LENGTH, VERSION, SVN and STEPPINGS. -/
def fwLength (img : List Byte) : Nat := leField img 8 4
def fwVersion (img : List Byte) : Nat := leField img 12 4
def fwSvn (img : List Byte) : Nat := leField img 16 4
def fwSteppings (img : List Byte) : Nat := leField img 20 1

/-- The bytes of an image from `o` on, `n` of them, are 0. -/
def zeroRange (img : List Byte) (o n : Nat) : Bool := ((img.drop o).take n).all fun b => b == 0

/-- No two sections overlap. -/
def disjointSections : List FwSection → Bool
  | [] => true
  | x :: xs => (xs.all fun y => decide (x.off + x.len ≤ y.off) || decide (y.off + y.len ≤ x.off)) && disjointSections xs

/-- How many sections are of a type. -/
def countType (xs : List FwSection) (t : Nat) : Nat := (xs.filter fun x => x.typ == t).length

/-- The header and section rules of R390 for an image of `len` bytes. -/
def fwHeaderOk (img : List Byte) (len : Nat) : Bool :=
  let xs := fwSections img
  let n := leField img 6 2
  leField img 0 4 == 0x4657494D && leField img 4 1 == 1 && leField img 5 1 == 0 && decide (1 ≤ n) && decide (n ≤ 32) &&
    fwLength img == len && decide (len ≤ 64466944) && decide (fwSvn img ≤ 64) && zeroRange img 21 11 &&
    leField img 32 1 == 4 && zeroRange img 129 127 && (xs.all fun x => decide (1 ≤ x.typ) && decide (x.typ ≤ 6)) &&
    ([1, 3, 4, 5, 6].all fun t => countType xs t == 1) && decide (countType xs 2 ≤ 16) &&
    (xs.all fun x => x.off % 4096 == 0 && decide (x.off + x.len ≤ len)) && disjointSections xs

/-- STEPPINGS includes this part: bit 0 A0, bit 1 B0. -/
def State.steppingOk (s : State) (img : List Byte) : Bool :=
  bitOf (fwSteppings img) (if s.reg TOP_ID_STEPPING = 0xA0 then 0 else 1)

/-- Every section's CRC. -/
def fwCrcOk (img : List Byte) : Bool := (fwSections img).all fun x => (crc32c (x.bytes img)).toNat == x.crc

/-- The public key's hash, and the signature over everything before the signature unit (R391). -/
def fwSigned (img : List Byte) (len : Nat) : Bool :=
  let key := (img.drop 32).take 97
  decide (Config.sha384 key = Config.rootKeyHash) &&
    Config.ecdsaOk key (Config.sha384 (img.take (len - 4096))) ((img.drop (len - 4096)).take 96)

/-- The checks of an image in order: 0, or the result of the first that fails (R394, R398). -/
def State.checkFw (s : State) (img : List Byte) (len : Nat) : Nat :=
  if !fwHeaderOk img len ∨ !s.steppingOk img then 2
  else if !fwCrcOk img then 3
  else if fwSvn img < s.reg FWU_SVN_FUSED then 4
  else if !fwSigned img len then 5
  else 0

/-- The bytes of a type's first section. -/
def sectionOf (img : List Byte) (t : Nat) : List Byte :=
  match (fwSections img).find? fun x => x.typ == t with
  | some x => x.bytes img
  | none => []

/-- The type 2 sections in table order. -/
def handlerSections (img : List Byte) : List (List Byte) :=
  ((fwSections img).filter fun x => x.typ == 2).map fun x => x.bytes img

/-! ### The seal (R393) and the recovery record (R397) -/

/-- The seal block of an image of whole 4 KiB units. -/
def sealFor (img : List Byte) (count : Nat) : List Byte :=
  let b := leBytes 4 0x4657534C ++ leBytes 4 (img.length / 4096) ++ leBytes 8 count ++ Config.sha384 img
  b ++ List.replicate (4088 - b.length) 0 ++ leBytes 4 0x5345414C ++ leBytes 4 0

/-- The image's units and the program count of the seal. -/
def Fwu.sealUnits (f : Fwu) : Nat := leField f.sealBlock 4 4
def Fwu.sealCount (f : Fwu) : Nat := leField f.sealBlock 8 8

/-- The image the NOR's image area holds under the seal. -/
def Fwu.sealedImage (f : Fwu) : List Byte := f.image.take (f.sealUnits * 4096)

/-- The image is sealed: seal word, magic and digest (R393); any other state is torn. -/
def Fwu.isSealed (f : Fwu) : Bool :=
  leField f.sealBlock 4088 4 == 0x5345414C && leField f.sealBlock 0 4 == 0x4657534C &&
    decide ((f.sealBlock.drop 16).take 48 = Config.sha384 f.sealedImage)

/-- The recovery record is sealed. -/
def Fwu.recordSealed (f : Fwu) : Bool :=
  leField f.recovery 4088 4 == 0x5345414C && leField f.recovery 0 4 == 0x46575243 &&
    (crc32c (f.recovery.take 4084)).toNat == leField f.recovery 4084 4

/-- The record OP 5 writes, from the slot FWU_RCV_SLOT names and from NLT instance 0. -/
def State.recoveryRecord (s : State) : List Byte :=
  let blob := ((Config.keyWrap true deviceKey (blobPlain (s.keySlot (s.reg FWU_RCV_SLOT_SLOT)))).getD []).take 80
  let b := leBytes 4 0x46575243 ++ blob ++ List.replicate (80 - blob.length) 0 ++ leBytes 4 (s.reg NLT_ADDR4_ADDR 0) ++
    leBytes 16 (s.reg NLT_ADDR6_ADDR 0) ++ leBytes 2 (s.reg NLT_UDP_DPORT 0)
  let b := b ++ List.replicate (4084 - b.length) 0
  b ++ leBytes 4 (crc32c b).toNat ++ leBytes 4 0x5345414C ++ leBytes 4 0

/-! ### Loading an image's parts (R394, R400) -/

/-- Bytes of one half of the Bureau area (R400). -/
def bureauHalf := 0x8000000

/-- One handler image goes into a system slot through R172; a failing one leaves the slot EMPTY. -/
def State.loadHandler (s : State) (slot : Nat) (img : List Byte) : State :=
  match ((s.sbWrite (handlerPool + handlerPoolSize - 0x100000) img).checkImage slot (handlerPool + handlerPoolSize - 0x100000)).2 with
  | some im => s.putImage slot im
  | none => s

/-- The type 2 sections go into some slots, in order. -/
def State.loadHandlers (s : State) (slots : List Nat) (imgs : List (List Byte)) : State :=
  (slots.zip imgs).foldl (fun s x => s.loadHandler x.1 x.2) s

/-- A field of the pending copy of class L. -/
def State.setPend (s : State) (f : Field) (i v : Nat) : State :=
  { s with regs := { s.regs with pend := storeField (f.reset i) (f.key i) (v % 2 ^ f.width) s.regs.pend } }

/-- Opcodes 0x01 to 0x22 are bound in the pending copy as the Bureau section says, to the slots given (R394, R400)
(DESIGN CHOICE, log entry 45). -/
def State.bindHandlers (s : State) (bureau : List Byte) (slots : List Nat) : State :=
  (List.range 0x22).foldl (fun s i =>
    match Config.fwBindings bureau (i + 1) with
    | some (k, e) =>
      match slots[k]? with
      | some slot =>
        ((s.setPend BNC_HANDLER_VALID (i + 1) 1).setPend BNC_HANDLER_SLOT (i + 1) slot).setPend BNC_HANDLER_ENTRY (i + 1) e
      | none => s
    | none => s) s

/-- The Bureau runs the type 1 section from a half of its area (DESIGN CHOICE, log entry 5). -/
def State.startBureau (s : State) (half : Nat) : State :=
  { s with fwu := { s.fwu with half := half },
           bnc := { s.bnc with threads := SMap.put 512 { pc := half * bureauHalf } s.bnc.threads } }

/-! ### Start (R394, R395) -/

/-- A new nonce (R401). -/
def State.newNonce (s : State) : State :=
  let (b, s) := s.entropyBytes 32
  s.setReg FWU_DBG_NONCE_NONCE 0 (leNat b)

/-- Both HBM stacks are trained (R394, R395). -/
def State.trainStacks (s : State) : State := (s.setFlag SBD_STATUS_TRAINED0 0 true).setFlag SBD_STATUS_TRAINED1 0 true

/-- What every start does: the pins are sampled, and the Sideboard is trained and starts. -/
def State.release (s : State) : State :=
  let s := { s with top := { s.top with phase := .run, booted := true }, ns := 0 }
  let s := (s.setReg TOP_RSTCAUSE_UNIT 0 (s.top.unitSel % 2)).setReg HNG_STATUS_UNIT 0 (s.top.unitSel % 2)
  let lost := (s.top.clocksLost.map fun c => 2 ^ c).sum
  let s := s.setReg TOP_CLKSTAT_PRESENT 0 (31 - lost)
  let s := if s.top.clocksLost = [] then s else s.raise TOP_HW_EVENT_CLK_LOSS
  let s := if s.top.clocksLost.contains 0 then s.setFlag TOP_CLKSTAT_HOLD 0 true else s
  ((s.setFlag SLP_STATUS_PFW 0 s.top.pfw).trainStacks).setRuns bSBD true

/-- The BOOT record (R405). -/
def State.bootRecord (s : State) : State :=
  s.record 0x01 0 bTOP (leBytes 4 (s.reg FWU_VER_RUNNING) ++ [b8 (s.reg FWU_STATUS_BOOT), b8 (s.reg TOP_RSTCAUSE_SCOPE),
    b8 (s.reg TOP_RSTCAUSE_UNIT), b8 (s.reg FWU_SVN_FUSED)])

/-- An event record of the firmware unit (R405). -/
def State.fwuRecord (s : State) (sev op result : Nat) : State :=
  s.record 0xA0 sev bFWU ([b8 op, b8 result, b8 (s.reg FWU_STATUS_BOOT), 0] ++ leBytes 4 (s.reg FWU_VER_STAGED))

/-- Recovery (R395, R397): `code` 1 by the loader, 2 by the ROM; a sealed record opens logical port 0 unless the ROM runs it. -/
def State.recover (s : State) (code : Nat) : State :=
  let s := s.setReg FWU_STATUS_BOOT 0 code
  let s :=
    if code = 1 ∧ s.fwu.recordSealed then
      let r := s.fwu.recovery
      let key := (unwrapKey deviceKey ((r.drop 4).take 80)).bind fun x => if x.1 = 3 then some (x.2.take 32) else none
      let s := ((s.setReg NLT_ADDR4_ADDR 0 (leField r 84 4)).setReg NLT_ADDR6_ADDR 0 (leField r 88 16)).setReg NLT_UDP_DPORT 0
        (leField r 104 2)
      { s.setFlag NLT_RUN_RUN 0 true with fwu := { s.fwu with recoveryKey := key } }.setRuns bNLT true
    else s
  let s := (s.setCfgReady.newNonce).raise FWU_EVENT_RECOVERY
  s.bootRecord.fwuRecord 3 0 0

/-- A verified image starts (R394): the Bureau, the handlers in slots 0 on, their bindings, the DRBG, and CFG_READY
(DEDUCED, log entry 91). -/
def State.startImage (s : State) (img : List Byte) : State :=
  let bureau := sectionOf img 1
  let s := { s with fwu := { s.fwu with running := img, slots := List.range (handlerSections img).length } }
  let s := (s.setReg FWU_VER_RUNNING 0 (fwVersion img)).setReg FWU_SVN_RUNNING 0 (fwSvn img)
  let s := (s.sbWrite 0 bureau).startBureau 0
  let s := (s.loadHandlers s.fwu.slots (handlerSections img)).bindHandlers bureau s.fwu.slots
  ((((s.setRuns bBNC true).startCph).setCfgReady).newNonce).bootRecord

/-- The start at the release of a reset (R394): not while a trip holds the device, and once per release
(DESIGN CHOICE, log entry 78) (DESIGN CHOICE, log entry 89). -/
def State.boot (s : State) : State :=
  if s.top.phase = .tripped ∨ (s.top.phase = .run ∧ s.top.booted) then s
  else
    let s := if s.top.phase = .shelfEntry then
        (s.cleared .shelf false).setCause (s.reg TOP_RSTCAUSE_UNIT) scopeShelf (s.reg TOP_RSTCAUSE_SOURCE) false
      else s
    let s := s.release
    let img := s.fwu.sealedImage
    if !s.fwu.loaderOk then s.recover 2
    else if !s.fwu.isSealed ∨ s.checkFw img (s.fwu.sealUnits * 4096) ≠ 0 then s.recover 1
    else s.startImage img

/-! ### FWU_CMD (R398 to R400) -/

/-- The staged image as it stands: FWU_LEN units for a VERIFY, the verified LENGTH later. -/
def State.staged (s : State) (len : Nat) : List Byte := s.sbRead hostArea len

/-- The free system slots. -/
def State.freeSystemSlots (s : State) : List Nat :=
  (List.range 32).filter fun k => s.reg BNC_SLOT_STATE_STATE k == slotEmpty

/-- The checks of R398 for an operation: 0, or the result of the first that fails (DEDUCED, log entry 71). -/
def State.fwuChecks (s : State) (op : Nat) : Nat :=
  let n := s.reg FWU_LEN_UNITS
  match op with
  | 1 => if n < 2 ∨ 15739 < n then 1 else s.checkFw (s.staged (n * 4096)) (n * 4096)
  | 2 => if !s.flag FWU_STATUS_VERIFIED then 6 else if s.top.pfw then 7 else 0
  | 3 =>
    if !s.flag FWU_STATUS_VERIFIED then 6
    else if s.inRecovery ∨ s.freeSystemSlots.length < (handlerSections (s.staged (fwLength (s.staged 4096)))).length then 8
    else 0
  | 4 => if s.inRecovery then 8 else 0
  | 5 => if s.inRecovery ∨ (s.keySlot (s.reg FWU_RCV_SLOT_SLOT)).kind ≠ 3 then 8 else 0
  | _ => 0

/-- What an accepted operation does at once: PROGRAM erases the seal; ACTIVATE loads the handlers and the new Bureau
(R399, R400) (DEDUCED, log entry 71). -/
def State.fwuBegin (s : State) (op : Nat) (j : FwuJob) : State :=
  match op with
  | 2 =>
    { s with fwu := { s.fwu with sealBlock := [], job := some { j with count := s.fwu.sealCount + 1 } } }.setReg FWU_PROG_UNITS 0 0
  | 3 =>
    let imgs := handlerSections j.image
    let slots := s.freeSystemSlots.take imgs.length
    let s := (s.loadHandlers slots imgs).sbWrite ((1 - s.fwu.half) * bureauHalf) (sectionOf j.image 1)
    { s with fwu := { s.fwu with job := some { j with slots := slots } } }
  | _ => s

/-- A write of FWU_CMD (R398). -/
def State.fwuStart (s : State) (op : Nat) : State :=
  if s.fwu.job.isSome then (s.setReg FWU_STATUS_RESULT 0 9).raise FWU_EVENT_FAILED
  else
    let r := s.fwuChecks op
    let len := if op = 1 then s.reg FWU_LEN_UNITS * 4096 else fwLength (s.staged 4096)
    let img := if op ≤ 3 ∧ r = 0 then s.staged len else []
    let j : FwuJob := { op := op, result := r, image := img }
    let s := { s with fwu := { s.fwu with job := some j } }.setFlag FWU_STATUS_BUSY 0 true
    if r = 0 then s.fwuBegin op j else s

/-- FWU_CMD by its OP; others are ignored (R403). -/
def State.fwuCommand (s : State) (op : Nat) : State := if 1 ≤ op ∧ op ≤ 6 then s.fwuStart op else s

/-- The generation that binds the new handlers is committed under the next number (R400). -/
def State.activateCommit (s : State) (j : FwuJob) : State :=
  if s.genIdle then
    let s := (s.bindHandlers (sectionOf j.image 1) j.slots).commitStart .bureau (s.reg CFG_GEN_CURRENT_GEN + 1)
    { s with fwu := { s.fwu with job := some { j with stage := 2 } } }
  else s

/-- An ACTIVATE at an epoch boundary (R400): the old Bureau hands over, and the new one commits its generation as soon as
none is under way; slots of an older image are unloaded once R164 allows (DEDUCED, log entry 71). -/
def State.activateBoundary (s : State) : State :=
  let s := s.fwu.oldSlots.foldl (fun s k =>
    if s.slotInUse k ∨ s.flag BNC_LOAD_STATUS_BUSY then s
    else { s.unload k with fwu := { s.fwu with oldSlots := s.fwu.oldSlots.filter (· != k) } }) s
  match s.fwu.job with
  | none => s
  | some j =>
    if j.op ≠ 3 ∨ j.result ≠ 0 then s
    else
      let s := if j.stage = 0 then s.startBureau (1 - s.fwu.half) else s
      if j.stage = 2 then s else
        { s with fwu := { s.fwu with job := some { j with stage := 1 } } }.activateCommit { j with stage := 1 }

/-- The types 4 to 6 whose sections differ between two images: bits of DEFERRED (R400). -/
def deferredBits (a b : List Byte) : Nat :=
  ([4, 5, 6].map fun t => if sectionOf a t = sectionOf b t then 0 else 2 ^ (t - 4)).sum

/-- The effect of an operation that ends well, with its result: 10 for a PROGRAM that read back wrong (R399)
(DEDUCED, log entry 71). -/
def State.fwuEffect (s : State) (j : FwuJob) (mismatch : Bool) : Nat × State :=
  match j.op with
  | 1 =>
    (0, ((s.setFlag FWU_STATUS_VERIFIED 0 true).setReg FWU_VER_STAGED 0 (fwVersion j.image)).setReg FWU_SVN_STAGED 0
      (fwSvn j.image))
  | 2 =>
    let units := j.image.length / 4096
    if mismatch then
      let (n, s) := s.freeBits 14
      (10, s.setReg FWU_PROG_UNITS 0 (n % (units + 1)))
    else
      let s := { s with fwu := { s.fwu with image := j.image ++ s.fwu.image.drop j.image.length,
                                            sealBlock := sealFor j.image j.count } }
      (0, (s.setReg FWU_PROG_UNITS 0 units).bump FWU_PROGRAMS)
  | 3 =>
    let bits := deferredBits s.fwu.running j.image
    let s := { s with fwu := { s.fwu with running := j.image, oldSlots := s.fwu.oldSlots ++ s.fwu.slots, slots := j.slots } }
    let s := (s.setReg FWU_VER_RUNNING 0 (fwVersion j.image)).setReg FWU_SVN_RUNNING 0 (fwSvn j.image)
    (0, (s.setReg FWU_STATUS_DEFERRED 0 bits).bump FWU_ACTIVATES)
  | 4 =>
    let n := max (s.reg FWU_SVN_FUSED) (s.reg FWU_SVN_RUNNING)
    let s := s.setReg FWU_SVN_FUSED 0 n
    (0, if s.flag FWU_STATUS_VERIFIED ∧ s.reg FWU_SVN_STAGED < n then s.endVerified else s)
  | 5 => (0, { s with fwu := { s.fwu with recovery := s.recoveryRecord } })
  | _ =>
    let keep := s.sbd.mem.filter fun e => decide (e.1 < hostArea) || decide (hostArea + stagingSize ≤ e.1)
    (0, { s with sbd := { s.sbd with mem := keep } }.endVerified)

/-- The operation that runs can end: an ACTIVATE once its generation has switched (R400). -/
def State.fwuReady (s : State) (j : FwuJob) : Bool := j.op != 3 || j.result != 0 || (j.stage == 2 && s.genIdle)

/-- The operation that runs ends (R398): its effect, RESULT, event and record; in recovery a PROGRAM that succeeds restarts
the part as a warm reset would (R395). -/
def State.fwuDone (s : State) (mismatch : Bool) : State :=
  match s.fwu.job with
  | none => s
  | some j =>
    if !s.fwuReady j then s
    else
      let (r, s) :=
        if j.op = 1 ∧ j.dirtied then (6, s)
        else if j.result ≠ 0 then (j.result, if j.op = 1 then s.endVerified else s)
        else s.fwuEffect j mismatch
      let s := { s with fwu := { s.fwu with job := none } }.setFlag FWU_STATUS_BUSY 0 false
      let s := (s.setReg FWU_STATUS_RESULT 0 r).raise (if r = 0 then FWU_EVENT_DONE else FWU_EVENT_FAILED)
      let s := s.fwuRecord 0 j.op r
      if j.op = 2 ∧ r = 0 ∧ s.inRecovery then s.warmReset 0 else s

/-! ### Delivery (R396) -/

/-- A word of the unit FWU_BLK_OFF names; the last word of a unit moves on to the next. -/
def State.blkData (s : State) (p : Path) (idx val : Nat) : State :=
  let u := s.reg FWU_BLK_OFF_UNITS
  let s := s.sbWrite (hostArea + 4096 * u + 4 * idx) (leBytes 4 val)
  if idx = 1023 then (s.setReg FWU_BLK_OFF_UNITS 0 (u + 1)).bump FWU_UNITS_IN 0
    (accessAttr p (FWU_BLK_DATA_DATA.addr + 4 * idx)) else s

/-! ### The debug state (R401) -/

/-- The signature in FWU_DBG_SIG verifies over the nonce and the serial number. -/
def State.dbgSigned (s : State) : Bool :=
  Config.ecdsaOk Config.rootKey
    (Config.sha384 (leBytes 32 (s.reg FWU_DBG_NONCE_NONCE) ++ leBytes 8 (s.reg TOP_SERIAL_SERIAL)))
    (leBytes 96 (s.reg FWU_DBG_SIG_SIG))

/-- OP 1: a good signature zeroises every key slot and unlocks, unless the fuse is blown; a bad one draws a new nonce. -/
def State.unlock (s : State) : State :=
  if !s.dbgSigned then s.newNonce
  else if s.fwu.dbgDisable then s
  else ({ s with cph := { s.cph with slots := [] } }.setFlag FWU_DBG_CMD_UNLOCKED 0 true).raise FWU_EVENT_DBG_UNLOCKED

/-- OP 2: locked again, JTAG's locks abandoned. -/
def State.lock (s : State) : State := (s.setFlag FWU_DBG_CMD_UNLOCKED 0 false).abandonOwner .jtag

end Sys2Proof.Machine
end

