-- ==== Sys2Proof/Machine/Ports.lean ====
section
/-! DEFINITION. Logical ports and the life of connections: START and STOP of an instance, link faults, port down and its
flush, timeouts, PARAMS, the commands of CTX_CMD, and context write-back (R94, R100, R104 to R113, R118, R214). -/

namespace Sys2Proof.Machine

open Sys2Proof.Reg

/-! ### Port down (R214) -/

/-- The item is a packet in cut-through on a port: its tag is still being checked. -/
def CphItem.arrivesOn (port : Nat) : CphItem → Bool
  | .gcmRx _ m _ _ _ => m.lport == port
  | _ => false

/-- Packets in cut-through on a port are tail-marked (step 1). -/
def State.markArriving (s : State) (port : Nat) : State :=
  let hit := s.cph.items.filter (CphItem.arrivesOn port)
  let s := { s with cph := s.cph.dropItems (CphItem.arrivesOn port) }
  hit.foldl (fun s i => match i with
    | .gcmRx _ m k _ _ => (s.dropHeld m k).tailBad (s.pktAttr m k.conn)
    | _ => s) s

/-- A port's parked packets are freed (step 5). -/
def State.dropParked (s : State) (port : Nat) : State :=
  let p := port / 4
  let all := s.park port
  let gone := all.filter fun x => x.rx.lport == port
  let s := gone.foldl (fun s x => s.dropHeld x.rx x.pkt) s
  if gone = [] then s else s.setPark p (all.filter fun x => x.rx.lport != port)

/-- The connections whose home a port is, by context index. -/
def State.homed (s : State) (port : Nat) : List Nat :=
  (s.ctx.conns.filter fun e => e.2.lport == port && e.2.known).map (·.1)

/-- A port goes down (R214): steps 1 to 5; what its flush has freed is kept until it is done. -/
def State.portGoesDown (s : State) (port : Nat) : State :=
  if s.nlt.flushing.contains port then s
  else
    let before := s.fill
    let cs := s.homed port
    let s := (s.markArriving port).setReg CAB_PORTFILL_HOLDING port 0
    let s := cs.foldl (fun s ci => s.closeConn ci none) s
    let s := ((s.dropParked port).clearRounds port).sweepGroups
    { s with nlt := { s.nlt with flushing := port :: s.nlt.flushing },
             cab := { s.cab with flushed := SMap.put port (before - s.fill, cs.length) s.cab.flushed } }.settle

/-- The NLT bit of CFG_BLKRUN: some instance runs (R94). -/
def State.countPorts (s : State) : State := s.setRuns bNLT ((List.range 32).any s.portRuns)

/-- The flush of a port is done (R214); a STOP that waited for it ends (R94). -/
def State.flushDone (s : State) (port : Nat) : State :=
  if s.nlt.flushing.contains port then
    let (cells, conns) := SMap.get (0, 0) s.cab.flushed port
    let s := { s with nlt := { s.nlt with flushing := s.nlt.flushing.filter (· != port) },
                      cab := { s.cab with flushed := SMap.del port s.cab.flushed } }
    let s := ((s.bump CAB_FLUSHES).bumpBy CAB_FLUSH_CELLS 0 cells {}).raise CAB_EVENT_PORT_FLUSH
    let s := s.portRecord port 1 cells conns bCAB
    if s.flag NLT_RUN_STOPPING port then
      ((s.setFlag NLT_RUN_STOPPING port false).setFlag NLT_RUN_RUN port false).countPorts
    else s
  else s

/-- The PCS of a port reports a link fault: the hold begins (R214). -/
def State.linkFaulty (s : State) (port : Nat) : State :=
  if (SMap.find s.cab.faultAt port).isSome then s
  else
    { s with cab := { s.cab with faultAt := SMap.put port s.ns s.cab.faultAt } }.setReg CAB_PORTFILL_HOLDING port 1

/-- HOLD has expired with the link still faulty: time has come to that point, the port goes down (R214); a stopped instance
has nothing to flush (DESIGN CHOICE, log entry 15). -/
def State.holdExpires (s : State) (port : Nat) : State :=
  match SMap.find s.cab.faultAt port with
  | some t =>
    if s.flag CAB_PORTFILL_HOLDING port then
      let u := s.advanceTo (t + 1000 * max 1 (s.reg CAB_PORTDOWN_HOLD))
      if s.portRuns port then u.portGoesDown port else u.setReg CAB_PORTFILL_HOLDING port 0
    else s
  | none => s

/-- HOLD of a fault is over at this instant. -/
def State.holdOver (s : State) (port : Nat) : Bool :=
  match SMap.find s.cab.faultAt port with
  | some t => decide (t + 1000 * max 1 (s.reg CAB_PORTDOWN_HOLD) ≤ s.ns)
  | none => false

/-- The link recovers: within the hold nothing is lost; after it the port carries new connections (R214), which it does also
where it recovers as the hold expires: the port has gone down (R215). -/
def State.linkRecovers (s : State) (port : Nat) : State :=
  if (SMap.find s.cab.faultAt port).isNone then s
  else
    let s := if s.holdOver port then s.holdExpires port else s
    let held := s.flag CAB_PORTFILL_HOLDING port
    let s := { s with cab := { s.cab with faultAt := SMap.del port s.cab.faultAt } }.setReg CAB_PORTFILL_HOLDING port 0
    if held ∨ !s.portRuns port then s else s.portRecord port 2 0 0 bNLT

/-! ### START and STOP of an instance (R94, R451) -/

/-- The address of NLT_CMD of an instance. -/
def nltCmdAddr (port : Nat) : Nat := 0x400024 + 0x10000 * port

/-- NLT_CMD.START (R94, R430, R451). -/
def State.nltDoStart (s : State) (p : Path) (port : Nat) : State :=
  if s.flag NLT_RUN_STOPPING port then s.refuseStart p (nltCmdAddr port) 0x0D NLT_EVENT_CMD_REFUSED port
  else if s.portRuns port ∨ s.inRecovery then s
  else if !s.runs bCAB ∨ !s.runs bSCH ∨ !s.portInUse port ∨
      (s.reg NLT_ADDR4_ADDR port = 0 ∧ s.reg NLT_ADDR6_ADDR port = 0) then
    s.refuseStart p (nltCmdAddr port) 0x0D NLT_EVENT_CMD_REFUSED port
  else (s.setFlag NLT_RUN_RUN port true).countPorts

/-- RESET with reason 0x05, sent at once on a connection, whatever its send window holds (R94, R106)
(DESIGN CHOICE, log entry 100). -/
def State.sendShutdown (s : State) (ci : Nat) : State :=
  let o : OutPkt := {
    typ := .ctrl, ci := some ci, port := (s.conn ci).lport,
    pkt := { conn := (s.conn ci).id, code := 9, flags := flagAckReq, plen := 4, payload := [5, 0, 0, 0] } }
  if s.cipherRoom o then s.sendFirst ci o else s

/-- NLT_CMD.STOP (R94, R451): RESETs, then the port goes down; the instance stops when the flush is done. -/
def State.nltDoStop (s : State) (p : Path) (port : Nat) : State :=
  if s.flag NLT_RUN_STOPPING port then s.refuseStart p (nltCmdAddr port) 0x0D NLT_EVENT_CMD_REFUSED port
  else if !s.portRuns port then s
  else
    let s := s.setFlag NLT_RUN_STOPPING port true
    ((s.homed port).foldl (fun s ci => s.sendShutdown ci) s).portGoesDown port

/-! ### The parameters of a connection (R100, R108) -/

/-- Bytes 12 to 39 of CONNECT_ACC for a home port (R100) (DEDUCED, log entry 60). -/
def State.linkParams (s : State) (port : Nat) : List Byte :=
  beBytes 4 s.epochNs ++ beBytes 4 (s.reg NLT_RC_STEP_STEP port) ++ [b8 (s.reg NLT_RC_CUT_CUT port),
    b8 (s.reg NLT_RTO_RTO_EPOCHS port), b8 (s.reg NLT_RTO_REORDER port), b8 (s.reg NLT_RTO_RETRY_MAX port)] ++
    beBytes 4 (s.reg NLT_RC_FLOOR_FLOOR port) ++ [b8 (s.reg NLT_ACK_COALESCE port), 0] ++
    beBytes 2 (s.reg NLT_ACK_DELAY port) ++ beBytes 4 s.cycleNs ++ [b8 (s.reg CTX_LIVE_IDLE), 0] ++
    beBytes 2 s.liveLimit

/-- Bytes 0 to 11 of CONNECT_ACC (R100). -/
def Conn.accHead (c : Conn) (devPsn : Nat) : List Byte :=
  beBytes 3 c.id ++ [b8 c.e, b8 (Bool.nat c.gcm + 2 * Bool.nat c.data8k), 0, 0, 0] ++ beBytes 4 devPsn

/-- PARAMS on the OPEN connections of a port on which it is due (R108). -/
def State.sendParams (s : State) (port : Nat) : State :=
  (s.ctx.conns.filter fun e => e.2.lport == port && e.2.state == cOPEN && e.2.paramsDue).foldl (fun s e =>
    let body := e.2.accHead (beNat ((e.2.acc.drop 8).take 4)) ++ s.linkParams port
    (s.sendCtrl e.1 6 body false).updConn e.1 fun c => { c with paramsDue := false }) s

/-! ### Timeouts of a connection (R104, R105) -/

/-- SETUP working cycles have passed without READY (R104) (DESIGN CHOICE, log entry 15). -/
def State.setupExpires (s : State) (id : Nat) : State :=
  match s.findConn id with
  | some (ci, c) =>
    if c.state = cSETUP ∧ s.setupCycles ≤ s.rtu.cycle - c.sinceCycle then (s.closeConn ci none).settle else s
  | none => s

/-- A connection becomes FREE (R95, R104, R236): its key slot is erased (after the items of it that are on
pairs, R246), its index's reuse count rises. -/
def State.freeConn (s : State) (ci : Nat) (c : Conn) : State :=
  let s := s.sbWrite (contextBase + 256 * ci) { c with state := cFREE, pin := false }.bytes
  let s := { s with
    ctx := { s.ctx with conns := SMap.del ci s.ctx.conns,
                        reuse := c.raiseReuse ci s.ctx.reuse } }.dropOut fun o => o.ci == some ci
  (if c.gcm then s.releaseSlot c.keyslot else s).countCache.countConns

/-- Whether QUARANTINE may end (R104). -/
def State.mayFree (s : State) (c : Conn) : Bool :=
  c.state == cQUARANTINE && decide (s.quarCycles ≤ s.rtu.cycle - c.sinceCycle) &&
    s.cmd.frames.all (fun e => e.2.conn != c.id) &&
    s.ctx.regions.all fun e => e.2.state == 0 || !e.2.connScope || e.2.conn != c.id

/-- QUARANTINE ends where its conditions hold. -/
def State.quarantineOver (s : State) (id : Nat) : State :=
  match s.findConn id with
  | some (ci, c) => if s.mayFree c then s.freeConn ci c else s
  | none => s

/-- The liveness limit of an OPEN or CLOSING connection has passed (R105) (DESIGN CHOICE, log entry 15)
(DEDUCED, log entry 66). -/
def State.livenessOver (s : State) (id : Nat) : State :=
  match s.findConn id with
  | some (ci, c) =>
    if (c.state = cOPEN ∨ c.state = cCLOSING) ∧ s.liveLimit < s.rtu.cycle - c.lastRxCycle then
      ((s.raise CTX_EVENT_LIVE_TEARDOWN).closeConn ci (some 2)).settle
    else s
  | none => s

/-- At a working cycle's start: KEEPALIVE on every OPEN or CLOSING connection that has been silent for IDLE cycles, and
after each further IDLE cycles (R105) (DEDUCED, log entry 66). -/
def State.sendKeepalives (s : State) : State :=
  s.ctx.conns.foldl (fun s e =>
    let c := e.2
    let quiet := s.rtu.cycle - max c.lastRxCycle c.keepCycle
    if (c.state = cOPEN ∨ c.state = cCLOSING) ∧ s.liveIdle < quiet + (if c.lastRxCycle < c.keepCycle then 1 else 0) then
      ((s.sendCtrl e.1 5 [] true).updConn e.1 fun c => { c with keepCycle := s.rtu.cycle }).bump CTX_KEEPALIVES 0 c.attr
    else s) s

/-! ### CTX_CMD (R107, R111, R118) -/

/-- A CTX_CMD is refused (DEDUCED, log entry 57). -/
def State.refuseCtx (s : State) : State := s.raise CTX_EVENT_CMD_REFUSED

/-- OP 1: teardown with reason 0x01. -/
def State.ctxTeardown (s : State) (id : Nat) : State :=
  match s.findConn id with
  | some (ci, c) => if c.known then (s.closeConn ci (some 1)).settle else s.refuseCtx
  | none => s.refuseCtx

/-- OP 2: pin, up to the limit (R111). -/
def State.ctxPin (s : State) (id : Nat) : State :=
  match s.findConn id with
  | some (ci, c) =>
    if !c.known then s.refuseCtx
    else if c.pin then s
    else if s.pinLimit ≤ (s.ctx.conns.filter fun e => e.2.pin).length then s.refuseCtx
    else (s.updConn ci fun c => { c with pin := true }).countCache
  | none => s.refuseCtx

/-- OP 3: unpin. -/
def State.ctxUnpin (s : State) (id : Nat) : State :=
  match s.findConn id with
  | some (ci, c) => if c.known then (s.updConn ci fun c => { c with pin := false }).countCache else s.refuseCtx
  | none => s.refuseCtx

/-- OP 4: the device closes an OPEN connection (R107), which is CLOSING once its CLOSE is acknowledged (R104)
(DEDUCED, log entry 59). -/
def State.ctxClose (s : State) (id : Nat) : State :=
  match s.findConn id with
  | some (ci, c) =>
    if c.state = cOPEN ∧ !c.closeSent then (s.sendCtrl ci 7 [] false).updConn ci fun c => { c with closeSent := true }
    else s.refuseCtx
  | none => s.refuseCtx

/-- A write of CTX_CMD (R118): other operations are ignored (DEDUCED, log entry 57). -/
def State.ctxCommand (s : State) (op id : Nat) : State :=
  match op with
  | 1 => s.ctxTeardown id
  | 2 => s.ctxPin id
  | 3 => s.ctxUnpin id
  | 4 => s.ctxClose id
  | _ => s

/-! ### Write-back (R110, R113) -/

/-- Contexts that packets wait for, in the order of the parks. -/
def State.awaited (s : State) : List Nat := (s.nlt.parks.flatMap fun e => e.2.map (·.ci)).eraseDups

/-- Fetches that waited for room or for a write-back start. -/
def State.startFetches (s : State) : State := s.awaited.foldl (fun s ci => s.startFetch ci) s

/-- A context's home copy is written: it leaves the cache, and a fetch that waited starts. -/
def State.writebackDone (s : State) (id : Nat) : State :=
  match SMap.find s.ctx.conns (id % 2 ^ 18) with
  | some c =>
    if c.id = id ∧ c.cache = .writing then (s.setCache (id % 2 ^ 18) .home).startFetches else s
  | none => s

end Sys2Proof.Machine
end

