-- ==== Sys2Proof/Machine/Spill.lean ====
section
/-! DEFINITION. The Cabinet's commands: START and STOP, the drive aperture and the PRP list window, and the spill engine
(R194 to R198, R207 to R211, R216, R306). -/

namespace Sys2Proof.Machine

open Sys2Proof.Reg

/-! ### START and STOP (R216) -/

/-- Seed the LFSR of each logical port from the entropy source, 0 replaced by 1 (R212). -/
def State.seedLfsrs (s : State) : State :=
  (List.range 32).foldl (fun s p =>
    let (b, s) := s.drbgBytes 4
    let v := if leNat b = 0 then 1 else leNat b
    { s with cab := { s.cab with lfsr := SMap.put p v s.cab.lfsr } }) s

/-- CAB_CMD.START (R216, R430). -/
def State.cabDoStart (s : State) (p : Path) : State :=
  s.startBlock p CAB_CMD_START.addr bCAB CAB_EVENT_CMD_REFUSED [bRTU, bSBD] State.seedLfsrs

/-- CAB_CMD.STOP: refused while a block that uses cells runs or the cipher engine holds an item; frees every group. -/
def State.cabDoStop (s : State) : State :=
  s.stopBlock bCAB (s.runs bNLT || s.runs bDRV || s.runs bPAR || s.runs bHNG || !s.cphIdle) CAB_EVENT_CMD_REFUSED
    fun s => (s.cab.groups.map (·.1)).foldl (fun s k => s.freeGroup k) s

/-! ### The aperture (R197, R198) -/

/-- What a drive's read of the aperture answers, none for Completer Abort. -/
def State.setAperture (s : State) (b : Option (List Byte)) : State := { s with out := { s.out with aperture := b } }

/-- A drive reads `n` bytes of the aperture. -/
def State.apertureGet (s : State) (a n : Nat) : State :=
  match s.apertureTarget a with
  | .queue off => s.setAperture (some (s.cab.queueMem.readAll off n))
  | .cells g off => if s.cellsInGroup g off n then s.setAperture (some (s.groupRead g off n))
      else s.apertureErr.setAperture none
  | .none => s.setAperture none

/-- A drive writes bytes through the aperture. -/
def State.aperturePut (s : State) (a : Nat) (bs : List Byte) : State :=
  match s.apertureTarget a with
  | .queue off => { s with cab := { s.cab with queueMem := Mem.writeAll off bs s.cab.queueMem } }
  | .cells g off => if s.cellsInGroup g off bs.length then s.groupWrite g off bs .driveRead else s.apertureErr
  | .none => s

/-- The PRP list window (R306): the group, the page index of its first entry, and the byte inside the window. -/
def State.prpTarget (s : State) (a : Nat) : Option (Nat × Nat × Nat) :=
  let base := 2 ^ 47 + s.apertureBase
  if base ≤ a ∧ a < 2 ^ 46 + base then
    let d := a - base
    some (d / 2 ^ 28, d / 2 ^ 16 % 4096, d % 2 ^ 16)
  else none

/-- A write to the window is discarded and counted (R306). -/
def State.apertureWrite (s : State) (a : Nat) (bs : List Byte) : State :=
  match s.prpTarget a with
  | some _ => s.apertureErr
  | none => s.aperturePut a bs

/-- The list page at `page` of the window of group `g` from page index `k` on: up to 511 entries, then the address of the
next list page where entries remain, else `rest` (R306) (DESIGN CHOICE, log entry 62). -/
def prpPage (base g k pages page : Nat) (rest : List Byte) : List Byte :=
  let first := k + 511 * page
  let entries := (List.range (min 511 (pages - first))).flatMap fun i =>
    leBytes 8 (base + 2 ^ 24 * g + (first + i) * 4096)
  entries ++ (if first + 511 < pages then
    leBytes 8 (2 ^ 47 + base + 2 ^ 28 * g + 2 ^ 16 * k + (page + 1) * 4096) else rest)

/-- What a list page holds behind its last entry, which no rule gives: free bytes (DESIGN CHOICE, log entry 62). -/
def State.prpRest (s : State) (k pages page : Nat) : List Byte × State :=
  s.freeBytes (if k + 511 * page + 511 < pages then 0 else 8 * (512 - (pages - (k + 511 * page))))

/-- A drive reads a page of the PRP list window (R306). -/
def State.prpGet (s : State) (a : Nat) : State :=
  match s.prpTarget a with
  | none => s.setAperture none
  | some (g, k, off) =>
    match SMap.find s.cab.groups g with
    | none => s.apertureErr.setAperture none
    | some x =>
      let pages := x.cells / 16
      if pages ≤ k + 511 * (off / 4096) then s.apertureErr.setAperture none
      else
        let base := s.apertureBase
        let (rest, s) := s.prpRest k pages (off / 4096)
        let page := prpPage base g k pages (off / 4096) rest
        { s with out := { s.out with prpList := page, aperture := some (page.drop (off % 4096)) } }

/-! ### Spill (R207 to R211) -/

/-- The queued DATA packets whose cells lie within AHEAD cells of the head of their send queue (R207, R210): `seen` the
cells ahead, by connection. -/
def aheadPackets (ahead : Nat) (seen : SMap Nat) : List OutPkt → List OutPkt
  | [] => []
  | o :: os =>
    match o.ci with
    | some ci =>
      let n := SMap.get 0 seen ci
      let rest := aheadPackets ahead (SMap.put ci (n + cellsOf o.pkt.plen) seen) os
      if o.group.isSome ∧ n < ahead then o :: rest else rest
    | none => aheadPackets ahead seen os

/-- Cells near the head of their send queue. -/
def State.aheadCells (s : State) : List (Nat × Nat × Nat) :=
  (aheadPackets (s.reg CAB_SPILL_CFG_AHEAD) [] s.nlt.txq).flatMap OutPkt.cells

/-- A cell of a group that may spill: on die, holding placed data, pinned by nothing (R208). -/
def Group.maySpill (g : Group) (ps : List (Nat × Nat × Nat)) (k c : Nat) : Bool :=
  decide (c < g.cells) && !inRuns g.freed c && !g.isSpilled c && (SMap.find g.filled (c / 16)).isSome && !pinned ps k c

/-- A CELLS request waits on its own account's limit (R209). -/
def State.waitsOnOwn (s : State) (acc : Option Nat) : Bool :=
  s.cab.waits.any fun w => !w.xrdy && w.acc == acc && !s.withinLimits w.acc w.cells

/-- The spill engine runs for a group of account `acc` (R209, R211). -/
def State.spillsFor (s : State) (acc : Option Nat) : Bool :=
  s.canSpill && !s.spillFull && (decide (s.spillStart ≤ s.fill) || s.waitsOnOwn acc)

/-- The engine runs: CAB_STATE.SPILLING. -/
def State.spilling (s : State) : Bool :=
  s.canSpill && !s.spillFull && (decide (s.spillStart ≤ s.fill) ||
    s.cab.waits.any fun w => !w.xrdy && !s.withinLimits w.acc w.cells)

/-- The latest use of the cells of an extent. -/
def Group.extentUse (g : Group) (cells : List Nat) : Nat := (cells.map g.usedAt).foldl max 0

/-- No cell that may spill went longer without a mover request than the extent's (R208); cells of the accounts that wait on
their own limits go before all others (R201). -/
def State.oldestSpill (s : State) (g : Group) (cells : List Nat) (ps : List (Nat × Nat × Nat)) : Bool :=
  s.cab.groups.all fun e =>
    !s.spillsFor e.2.acc || (s.waitsOnOwn g.acc && !s.waitsOnOwn e.2.acc) ||
    (List.range e.2.cells).all fun c =>
      !e.2.maySpill ps e.1 c || (decide (g.extentUse cells ≤ e.2.usedAt c) && (s.waitsOnOwn g.acc || !s.waitsOnOwn e.2.acc))

/-- The Sideboard address of a place of the spill area. -/
def State.spillAddr (s : State) (place : Nat) : Nat := s.reg CAB_SPILL_BASE_ADDR + 65536 * place

/-- Byte ranges of a group meet. -/
def rangesMeet (a b : Nat × Nat × Nat) : Bool :=
  a.1 == b.1 && decide (a.2.1 < b.2.1 + b.2.2) && decide (b.2.1 < a.2.1 + a.2.2)

/-- A request that has not started names the extent, or it has come within AHEAD of its queue's head (R210). -/
def State.extentWanted (s : State) (k : Nat) (x : SpilledExtent) : Bool :=
  let r := (k, 256 * x.run.first, 256 * x.run.count)
  (s.allTickets.any fun t => !t.2.2.started && t.2.2.ready.isNone && t.2.2.done.isNone &&
    (s.reqRanges t.2.2.req).any (rangesMeet r)) || s.aheadCells.any (rangesMeet r)

/-- An extent finds cells to return to: returns may use the spill reserve up to the last cell (R202). -/
def State.returnFits (s : State) (x : SpilledExtent) : Bool := decide (s.fill + x.run.count ≤ cabCells)

/-- Some extent is to return: a return goes before a spill (R215) (DEDUCED, log entry 103). -/
def State.anyWanted (s : State) : Bool :=
  s.cab.groups.any fun e => e.2.spilled.any fun x => s.extentWanted e.1 x && s.returnFits x

/-- An extent has been written to the spill area: its cells are freed (R208). -/
def State.spillExtent (s : State) (k first count : Nat) : State :=
  match SMap.find s.cab.groups k with
  | none => s
  | some g =>
    let ps := s.moverPins ++ s.aheadCells
    let cells := (List.range count).map (· + first)
    if count = 0 ∨ 256 < count ∨ !s.spillsFor g.acc ∨ !cells.all (g.maySpill ps k) ∨ !s.oldestSpill g cells ps ∨ s.anyWanted then s
    else
      let place := lowestFree 0 (s.cab.spillPlaces.map (·.1))
      let bytes := s.groupRead k (256 * first) (256 * count)
      let rows := cells.foldl (fun m c => freeCell m (g.nums.getD c 0)) s.cab.rows
      let s := s.sbWrite (s.spillAddr place) bytes
      let x : SpilledExtent := { run := { first := first, count := count }, place := place }
      let s := { s with cab := { s.cab with
        rows := rows, spillPlaces := SMap.put place k s.cab.spillPlaces,
        cellMem := Mem.writeAll (cellKey k (256 * first)) (List.replicate (256 * count) 0) s.cab.cellMem,
        groups := SMap.put k { g with spilled := x :: g.spilled } s.cab.groups } }
      let s := s.setReg CAB_SPILLED_CELLS 0 (s.reg CAB_SPILLED_CELLS + count)
      let s := (s.uncharge g.acc count).bump CAB_SPILL_OUT 0 (accountAttr g.acc)
      if s.spillFull then s.raise CAB_EVENT_SPILL_FULL else s

/-- The numbers of returned cells (cell of the group, number) put into a group's list. -/
def putNums (ns : List Nat) (new : List (Nat × Nat)) : List Nat := new.foldl (fun l e => l.set e.1 e.2) ns

/-- An extent is back in cells, those that were not freed meanwhile, exempt from limits (R201, R210)
(DESIGN CHOICE, log entry 14). -/
def State.returnExtent (s : State) (k : Nat) (g : Group) (x : SpilledExtent) : State :=
  let n := x.run.count
  let live := ((List.range n).map (· + x.run.first)).filter fun c => !inRuns g.freed c
  let best := emptiestQuads s.cab.rows
  let (v, s) := s.freeBits 5
  let (cs, rows, skips) := takeQuads (best.getD (v % best.length) 0) 0 s.cab.rows 0 live.length
  let bytes := s.sbRead (s.spillAddr x.place) (256 * n)
  let g := { g with nums := putNums g.nums (live.zip cs), spilled := g.spilled.filter (· != x) }
  let g := g.touch x.run.first n s.ns
  let s := { s with cab := { s.cab with
    rows := rows, spillPlaces := SMap.del x.place s.cab.spillPlaces,
    cellMem := Mem.writeAll (cellKey k (256 * x.run.first)) bytes s.cab.cellMem,
    groups := SMap.put k g s.cab.groups } }
  let s := s.setReg CAB_SPILLED_CELLS 0 (s.reg CAB_SPILLED_CELLS - n)
  ((s.charge g.acc live.length).bumpBy CAB_QUAD_SKIPS 0 skips (accountAttr g.acc)).bump CAB_SPILL_IN 0 (accountAttr g.acc)

/-- A spilled extent's return is done. -/
def State.spillReturn (s : State) (k first : Nat) : State :=
  match SMap.find s.cab.groups k with
  | none => s
  | some g =>
    match g.spilled.find? fun x => x.run.first == first with
    | some x => if s.extentWanted k x && s.returnFits x then s.returnExtent k g x else s
    | none => s

end Sys2Proof.Machine
end

