-- ==== Sys2Proof/Machine/Top.lean ====
section
/-! DEFINITION. Per-block resets, thermal warnings, input clocks and the reset of the debug domain (R328, R424, R427, R428,
R444, R446). -/

namespace Sys2Proof.Machine

open Sys2Proof.Reg

/-! ### Per-block reset (R427, R428) -/

/-- Whether `b` may be reset now (R427). -/
def State.blockResettable (s : State) (b : Nat) : Bool :=
  if [bRTU, bCAB, bSCH, bPAR, bLDG, bDRV, bHNG, bSLP, bNLT].contains b then !s.runs b
  else if b = bFWU then !s.flag FWU_STATUS_BUSY
  else [bARB, bLCK, bMEP, bEVR, bPMC].contains b

/-- The seats a block's requesters hold, as (arbiter, requester code) (R319). -/
def blockRequesters (b : Nat) : List (Nat × Nat) :=
  if b = bCAB then [(0, reqSPL), (1, reqSPL)]
  else if b = bPAR then [(0, reqSTG), (1, reqSTG)]
  else if b = bLDG then [(0, reqLDG), (1, reqLDG)]
  else if b = bHNG then [(0, reqHNG), (1, reqHNG), (2, 5)]
  else if b = bMEP then [(0, reqMEP), (1, reqMEP), (2, 1)]
  else if b = bEVR then [(0, reqEVR), (1, reqEVR)]
  else if b = bPMC then [(0, reqPMC), (1, reqPMC), (2, 4)]
  else if b = bFWU then [(2, 6)]
  else []

/-- The block's seats are masked while it is in reset. -/
def State.maskBlock (s : State) (b : Nat) : State :=
  (blockRequesters b).foldl (fun s ac =>
    match s.seatOf ac.1 ac.2 with
    | some k => s.maskSeat ac.1 k
    | none => s) s

/-- They start again with empty queues. -/
def State.unmaskBlock (s : State) (b : Nat) : State :=
  (blockRequesters b).foldl (fun s ac =>
    match s.seatOf ac.1 ac.2 with
    | some k => s.unmaskSeat ac.1 k
    | none => s) s

/-- Keys a per-block reset keeps though their class is S, K or C: the fused count, how the part started, the debug state,
seat masks, and locks, which are abandoned (R328, R424). -/
def keptByBlockReset (k : Nat) : Bool :=
  [FWU_SVN_FUSED, FWU_SVN_RUNNING, FWU_VER_RUNNING, FWU_STATUS_BOOT, FWU_DBG_CMD_UNLOCKED, FWU_DBG_NONCE_NONCE].any (·.key 0 == k) ||
    (List.range 3).any (fun i => ARB_MASKED_SEAT.key i == k) || (decide (8 * 0x3100000 ≤ k) && decide (k < 8 * 0x3102000))

/-- Whether a per-block reset of `b` returns the field at `k` to its reset value. -/
def clearedByBlockReset (b k : Nat) : Bool :=
  decide (blockOf (k / 8) = some b) && !keptByBlockReset k &&
    match fieldOfKey k with
    | some f => f.cls != .L && f.cls != .I
    | none => false

/-- Class S, K and C registers of a block return to their reset values, and what a path has latched of them is forgotten
(R38, R424). -/
def State.resetBlockRegs (s : State) (b : Nat) : State :=
  { s with regs := { s.regs with live := s.regs.live.filter fun e => !clearedByBlockReset b e.1,
                                 latch := s.regs.latch.filter fun e => blockOf (e.1 % 2 ^ 26) != some b } }

/-- What a block holds beside its registers returns to its value at reset (R328, R424). -/
def State.resetUnit (s : State) (b : Nat) : State :=
  if b = bRTU then { s with rtu := {} }
  else if b = bNLT then { s with nlt := {} }
  else if b = bCAB then { s with cab := {} }
  else if b = bSCH then { s with sch := {} }
  else if b = bPAR then { s with par := {} }
  else if b = bLDG then { s with ldg := s.ldg.kept true }
  else if b = bDRV then { s with drv := { drawers := presentOnly s.drv.drawers } }
  else if b = bHNG then { s with hng := {} }.setReg HNG_STATUS_UNIT 0 (s.reg TOP_RSTCAUSE_UNIT)
  else if b = bSLP then { s with slp := {} }.setFlag SLP_STATUS_PFW 0 s.top.pfw
  else if b = bARB then { s with sbd := { s.sbd with queue := [], starve := [] } }
  else if b = bLCK then s.abandonWhere 4 fun _ _ => true
  else if b = bEVR then
    let next := s.evr.nextSeq
    { s with evr := { area := s.evr.area, nextFseq := s.evr.areaFseq } }.setReg EVR_SEQ_SEQ 0 next
  else if b = bPMC then { s with pmc := {} }
  else s

/-- The 8 counters of a block return to 0 (R412). -/
def State.clearBlockCounters (s : State) (b : Nat) : State :=
  (List.range 8).foldl (fun s k => s.setReg PMC_CTR_VALUE (8 * b + k) 0) s

/-- An accepted per-block reset (R428): a MEP reset acts as an FLR. -/
def State.blockResets (s : State) (b : Nat) : State :=
  let s := { s with top := { s.top with blkrst := s.top.blkrst ++ [b] } }
  let s := ((s.setFlag TOP_STATUS_BUSY 0 true).setReg TOP_STATUS_BLOCK 0 b).maskBlock b
  let s := if b = bMEP then s.flrStart else (s.resetBlockRegs b).resetUnit b
  s.clearBlockCounters b

/-- A write of TOP_BLKRST (R427, R429). -/
def State.blockReset (s : State) (b : Nat) : State :=
  if s.blockResettable b ∧ !s.top.blkrst.contains b then s.blockResets b else s.raise TOP_EVENT_BLKRST_REFUSED

/-- The oldest per-block reset completes. -/
def State.blockResetEnds (s : State) : State :=
  match s.top.blkrst with
  | [] => s
  | b :: rest =>
    let s := { s with top := { s.top with blkrst := rest } }.unmaskBlock b
    (if rest = [] then s.setFlag TOP_STATUS_BUSY 0 false else s).raise TOP_EVENT_BLKRST_DONE

/-! ### Temperature (R446, R450) -/

/-- The highest of instances 0 to 6. -/
def State.hottest (s : State) : Nat :=
  (List.range 7).foldl (fun m i => if signedTemp m < signedTemp (s.reg TOP_TEMP_TEMP i) then s.reg TOP_TEMP_TEMP i else m) 0x8000

/-- A sensor reads `t`: at its trip value the part trips; at or above WARN, and an HBM stack above 85 °C, an event is set
(R446, R447). Instance 7 is no sensor. -/
def State.sensorReads (s : State) (i t : Nat) : State :=
  if s.trips i t then s.trip else
  let s := if i < 7 then s.setReg TOP_TEMP_TEMP i t else s
  let s := s.setReg TOP_TEMP_TEMP 7 s.hottest
  let s := if (16 * s.reg TOP_THERM_WARN : Int) ≤ signedTemp t then s.raise TOP_HW_EVENT_THERM_WARN else s
  if (i = 5 ∨ i = 6) ∧ 16 * 85 < signedTemp t then s.raise TOP_HW_EVENT_HBM_HOT else s

/-! ### Input clocks (R444, R448) -/

/-- The ports on NETCLK[q]: logical ports of physical ports 4q to 4q + 3 go down. -/
def State.netclkLost (s : State) (q : Nat) : State :=
  let s := (List.range 16).foldl (fun s i => if s.portRuns (16 * q + i) then s.portGoesDown (16 * q + i) else s) s
  if q = 0 then s.lanesFail 0 else s

/-- What the loss of a clock does beside TOP_CLKSTAT. -/
def State.clockAction (s : State) (clk : Nat) : State :=
  match clk with
  | 0 => (s.setFlag TOP_CLKSTAT_HOLD 0 true).enterHoldover
  | 1 => s.netclkLost 0
  | 2 => s.netclkLost 1
  | 3 => (List.range 48).foldl (fun s d => s.linkDown d false) s
  | _ => s.mepLinkLeaves

/-- TOP_CLKSTAT shows which clocks are present. -/
def State.showClocks (s : State) : State :=
  s.setReg TOP_CLKSTAT_PRESENT 0 (31 - (s.top.clocksLost.map fun c => 2 ^ c).sum)

/-- An input clock is lost; during a reset it is noted, and reported at the release if it is still missing (R448). -/
def State.clockLost (s : State) (clk : Nat) : State :=
  if s.top.clocksLost.contains clk then s
  else
    let s := { s with top := { s.top with clocksLost := clk :: s.top.clocksLost } }
    if s.held then s else ((s.showClocks.raise TOP_HW_EVENT_CLK_LOSS).clockAction clk).settle

/-- It returns: HOLD clears for REF_CLK, and the unit locks again on qualified edges (R35). -/
def State.clockReturns (s : State) (clk : Nat) : State :=
  if !s.top.clocksLost.contains clk then s
  else
    let s := { s with top := { s.top with clocksLost := s.top.clocksLost.filter (· != clk) } }
    if s.held then s
    else
      let s := s.showClocks.raise TOP_HW_EVENT_CLK_LOSS
      if clk = 0 then s.setFlag TOP_CLKSTAT_HOLD 0 false else s

end Sys2Proof.Machine
end

