-- ==== Sys2Proof/Machine/RegAccess.lean ====
section
/-! DEFINITION. Reads and writes of the register space by the four paths: permission, decode, the effect by class, command
registers, clears on read and on write, latched high words, and what is put together when it is read (R4, R6 to R8, R38,
R40 to R42, R54 to R56, R417, R451). -/

namespace Sys2Proof.Machine

open Sys2Proof.Reg

/-! ### The order of R56 -/

/-- What an access meets: it goes ahead at a register, its offset is refused, its path is refused, or JTAG is locked. -/
inductive Access
  | ok (ra : RegAt)
  | unmapped
  | forbidden
  | locked

/-- An access of `width` bytes, decided in the order of R56 (DESIGN CHOICE, log entry 81). -/
def State.access (s : State) (p : Path) (write : Bool) (addr width : Nat) : Access :=
  if p = .jtag ∧ !s.flag FWU_DBG_CMD_UNLOCKED then .locked
  else
    match blockOf addr with
    | none => .unmapped
    | some b =>
      if !s.pathAllows p write b then .forbidden
      else if width ≠ 4 ∨ addr % 4 ≠ 0 then .unmapped
      else match findReg addr with
        | some ra => .ok ra
        | none => .unmapped

/-! ### Writes (R6, R40, R42) -/

/-- A non-zero value written to reserved bits is logged (R42) (DEDUCED, log entry 82). -/
def State.logReserved (s : State) (p : Path) (addr : Nat) (ra : RegAt) (w : Nat) : State :=
  if reservedBits ra.reg ra.off w = 0 then s else s.logErr 0x0A p addr

/-- The part of word `w` that belongs to field `f` of the word at byte offset `o`. -/
def fieldPart (f : Field) (o w : Nat) : Nat := spliceField f 0 o (w &&& fieldMask f o)

/-- Each w1c field of the word loses the bits written as 1 (R6). -/
def State.clearBits (s : State) (ra : RegAt) (w : Nat) : State :=
  ((wordFields ra.reg ra.off).filter fun f => f.acc == .w1c).foldl (fun s f =>
    let v := s.reg f ra.inst
    s.setReg f ra.inst (v - (v &&& fieldPart f ra.off w))) s

/-- Updates that coincide with a clear set their bits after it (R8). -/
def State.setCoincident (s : State) (ra : RegAt) (w : Nat) : State :=
  ((wordFields ra.reg ra.off).filter fun f => f.acc == .w1c).foldl (fun s f =>
    let v := fieldPart f ra.off w
    if v = 0 then s else s.raiseBits f ra.inst v) s

/-- The word's class-C fields that hold a value take it (R7). -/
def State.storeC (s : State) (ra : RegAt) (w : Nat) : State :=
  ((wordFields ra.reg ra.off).filter fun f => f.cls == .C && (f.acc == .rw || f.acc == .wo)).foldl (fun s f =>
    s.setReg f ra.inst (spliceField f (s.reg f ra.inst) ra.off w)) s

/-- START in bit 0 and STOP in bit 1; both at once are refused whole (R451). -/
def State.startStop (s : State) (p : Path) (addr w : Nat) (ev : Option (Field × Nat)) (start stop : State → State) : State :=
  match w % 4 with
  | 0 => s
  | 1 => start s
  | 2 => stop s
  | _ =>
    let s := s.logErr 0x0E p addr
    match ev with
    | some (f, i) => s.raise f i
    | none => s

/-- NLT_CMD: refused while a STOP is completing (R94, R451). -/
def State.nltCommand (s : State) (p : Path) (addr port w : Nat) : State :=
  if s.flag NLT_RUN_STOPPING port then s.refuseStart p addr 0x0D NLT_EVENT_CMD_REFUSED port
  else s.startStop p addr w (some (NLT_EVENT_CMD_REFUSED, port)) (·.nltDoStart p port) (·.nltDoStop p port)

/-- CFG_CTRL: both bits at once are refused with code 0x08 (R49). -/
def State.cfgControl (s : State) (p : Path) (w : Nat) : State :=
  match w % 4 with
  | 0 => s
  | 1 => s.rollback p
  | 2 => s.discard p
  | _ => s.logErr 0x08 p CFG_CTRL_DISCARD.addr

/-- TOP_RESET (R423). -/
def State.resetCommand (s : State) (w : Nat) : State :=
  s.topReset (w / 2 ^ 16) fun s =>
    match w % 4 with
    | 1 => s.warmReset 1
    | 2 => s.shelfReset 1
    | _ => s

/-- BNC_LOAD_CMD (R172, R173). -/
def State.loadCommand (s : State) (p : Path) (w : Nat) : State :=
  let slot := w / 16 % 64
  match w % 4 with
  | 1 => s.loadCmd p slot (·.loadStart slot)
  | 2 => s.loadCmd p slot (·.unload slot)
  | _ => s

/-- LCK_CMD of lock `n` (R325 to R328, R333). -/
def State.lockCommand (s : State) (p : Path) (who : LockOwner) (n w : Nat) : State :=
  let gen := w % 2 ^ 24
  match w / 2 ^ 28 with
  | 1 => s.acquireLock who n
  | 2 => s.releaseLock who n gen
  | 3 => s.renewLock who n gen
  | 4 => s.cleanLock who n gen
  | 5 => s.forceLock p n
  | _ => s

/-- CFG_READY written (R378). -/
def State.writeCfgReady (s : State) (w : Nat) : State :=
  if w % 2 = 1 then s.setCfgReady else (s.setFlag MEP_CTRL_CFG_READY 0 false).setRuns bMEP false

/-- FWU_DBG_CMD (R401). -/
def State.debugCommand (s : State) (w : Nat) : State :=
  match w % 4 with
  | 1 => s.unlock
  | 2 => s.lock
  | _ => s

/-- A write of a command register acts; none where the register is not one. -/
def State.commandWrite (s : State) (p : Path) (who : LockOwner) (a : Nat) (ra : RegAt) (w : Nat) : Option State :=
  let r := ra.reg.addr
  let i := ra.inst
  if r = TOP_RESET_OP.addr then some (s.resetCommand w)
  else if r = TOP_BLKRST_BLOCK.addr then some (s.blockReset (w % 32))
  else if r = RTU_CMD_START.addr then
    some (s.startStop p a w (some (RTU_EVENT_START_REFUSED, 0)) (·.rtuDoStart p) (·.rtuDoStop p))
  else if r = CFG_COMMIT_GEN.addr then some (s.commitStart p w)
  else if r = CFG_CTRL_ROLLBACK.addr then some (s.cfgControl p w)
  else if r = CFG_ERRLOG_POP_POP.addr then some (if w % 2 = 1 then s.popErr else s)
  else if r = NLT_CMD_START.addr then some (s.nltCommand p a i w)
  else if r = CTX_CMD_OP.addr then some (s.ctxCommand (w % 16) (w / 16 % 2 ^ 24))
  else if r = BNC_LOAD_CMD_OP.addr then some (s.loadCommand p w)
  else if r = CAB_CMD_START.addr then
    some (s.startStop p a w (some (CAB_EVENT_CMD_REFUSED, 0)) (·.cabDoStart p) State.cabDoStop)
  else if r = SCH_CMD_START.addr then
    some (s.startStop p a w (some (SCH_EVENT_CMD_REFUSED, 0)) (·.schDoStart p) State.schDoStop)
  else if r = CPH_PAIR_CMD_OP.addr then some (if w / 256 % 4 = 1 then s.pairTestStart (w % 128) else s)
  else if r = CPH_KEY_CMD_OP.addr then some (s.keyStart p (w / 2 ^ 24 % 16) (w / 2 ^ 20 % 16) (w % 2 ^ 13))
  else if r = PAR_CMD_START.addr then
    some (s.startStop p a w (some (PAR_EVENT_CMD_REFUSED, 0)) (·.parDoStart p) State.parDoStop)
  else if r = PAR_RB_CMD_OP.addr then
    some (s.rbCommand (w % 16) (w / 256 % 8) (w / 2 ^ 16 % 32) (w / 2 ^ 21 % 64) (w / 2 ^ 27))
  else if r = LDG_CMD_START.addr then some (s.startStop p a w none (·.ldgDoStart p) State.ldgDoStop)
  else if r = DRV_CMD_OP.addr then some (s.drvCommand i (w % 16)).settle
  else if r = DRV_GCMD_START.addr then
    some (s.startStop p a w (some (DRV_GEVENT_CMD_REFUSED, 0)) (·.drvDoStart p) State.drvDoStop)
  else if r = SBD_CMD_START.addr then
    some (s.startStop p a w (some (SBD_EVENT_CMD_REFUSED, 0)) (·.sbdDoStart p) State.sbdDoStop)
  else if r = LCK_LOCK_OP.addr ∧ ra.off = 8 then some (s.lockCommand p who i w)
  else if r = HNG_CMD_OP.addr then some (s.hngCommand p (w % 16))
  else if r = SLP_CMD_START.addr then
    some (s.startStop p a w (some (SLP_EVENT_CMD_REFUSED, 0)) (·.slpDoStart p) State.slpDoStop)
  else if r = MEP_CTRL_CFG_READY.addr then some (s.writeCfgReady w)
  else if r = MEP_VEC_ACK_ACK.addr then some (s.ackVectors (w * 2 ^ (8 * ra.off)))
  else if r = MEP_DMA_HOST.addr ∧ ra.off = 0x14 then some (s.dmaStart i (w % 8))
  else if r = MSIX_TABLE_ADDR.addr ∧ ra.off = 12 then some (s.setMsixMask i (w % 2 == 1))
  else if r = FWU_CMD_OP.addr then some (s.fwuCommand (w % 16))
  else if r = FWU_DBG_CMD_OP.addr then some (s.debugCommand w)
  else if r = FWU_BLK_DATA_DATA.addr then some (s.blkData p i w)
  else if r = EVR_CMD_OP.addr then some (if w % 16 = 1 then s.startFlush 3 else s)
  else if r = EVR_CUR_SEQ.addr then some (s.moveCursor p w)
  else if r = EVR_POST_GO.addr ∧ ra.off = 4 then some (if w % 2 = 1 then s.post p else s)
  else if r = PMC_CMD_OP.addr then some (if w % 16 = 1 then s.pmcClear else s)
  else none

/-- The word takes writes of class C: it has a field of class C other than read-only. -/
def writesC (ra : RegAt) : Bool := (wordFields ra.reg ra.off).any fun f => f.cls == .C && f.acc != .ro

/-- A write of one word of a register that the path may make (R40, R42) (DEDUCED, log entry 82). -/
def State.writeWord (s : State) (p : Path) (who : LockOwner) (a : Nat) (ra : RegAt) (w : Nat) : State :=
  if writesC ra ∨ wordClass ra.reg ra.off = .C then
    let s := (s.logReserved p a ra w).clearBits ra w
    match s.commandWrite p who a ra w with
    | some s => s
    | none => s.storeC ra w
  else
    match wordClass ra.reg ra.off with
    | .L =>
      if s.flag CFG_STATUS_SEALED ∨ s.flag CFG_STATUS_CHECKING then s.writeL p a ra w
      else (s.writeL p a ra w).logReserved p a ra w
    | .I =>
      if s.instRuns ((blockOf a).getD 0) ra.inst then s.writeI p a ra w else (s.writeI p a ra w).logReserved p a ra w
    | _ => s.logErr 0x02 p a

/-- How a register access ended: done, refused by its offset, refused by its path (R387). -/
def accDone := 0
def accRange := 1
def accNoAccess := 2

/-- A write of `width` bytes through path `p`, by `who` where it names a lock: how it ended, and the state
(DESIGN CHOICE, log entry 81). -/
def State.regWrite (s : State) (p : Path) (who : LockOwner) (addr width w : Nat) : Nat × State :=
  match s.access p true addr width with
  | .ok ra => (accDone, s.writeWord p who addr ra w)
  | .unmapped => (accRange, s.logErr 0x03 p addr)
  | .forbidden => (accNoAccess, s.logErr 0x05 p addr)
  | .locked => (accNoAccess, s)

/-- Who a path is to the locks where no connection or thread is named (DESIGN CHOICE, log entry 81). -/
def pathOwner : Path → LockOwner
  | .bar0 => .bar0
  | .mgmt => .mgmt 0
  | .jtag => .jtag
  | .bureau => .bureau 512

/-- A write of a word with w1c fields, and the updates that coincide with it (R6, R8). -/
def State.w1cWrite (s : State) (p : Path) (addr val coincident : Nat) : State :=
  let s := (s.regWrite p (pathOwner p) addr 4 val).2
  match findReg addr with
  | some ra => s.setCoincident ra coincident
  | none => s

/-! ### Reads (R6, R38, R41) -/

/-- CAB_STATE (R202). -/
def State.cabState (s : State) : Nat :=
  Bool.nat (decide (s.cabUsable < s.fill)) * 8 + Bool.nat (decide (s.spillThreshold ≤ s.fill)) * 4 + Bool.nat s.spilling * 2 +
    Bool.nat (decide (s.creditThreshold ≤ s.fill))

/-- A MGMT reader of subscriber `sub` may see a counter (R417) (DEDUCED, log entry 48). -/
def State.mgmtSees (s : State) (sub : Option Nat) (c : Nat) : Bool :=
  s.flag PMC_CTR_HREAD c &&
    (!s.flag PMC_CTR_HOWN c || (s.reg PMC_CTR_MASK c == 0xFFFF && sub == some (s.reg PMC_CTR_MATCH c)))

/-- What is put together when it is read; none for a field that the register file holds. -/
def State.derivedField (s : State) (p : Path) (sub : Option Nat) (f : Field) (i : Nat) : Option Nat :=
  let is (g : Field) : Bool := f.addr == g.addr && f.lo == g.lo
  if is RTU_NOW_TIME then some s.refTime
  else if is CFG_ERRLOG_HEAD_ENTRY then some ((s.cfg.errlog.head?.map ErrEntry.value).getD 0)
  else if is CFG_ERRLOG_LEVEL_LEVEL then some s.cfg.errlog.length
  else if is BNC_SLOT_STATE_BOUND_PEND then some (Bool.nat ((boundSlots s.regs.pend).contains i))
  else if is BNC_SLOT_STATE_BOUND_CUR then some (Bool.nat ((boundSlots s.regs.cur).contains i))
  else if is BNC_SLOT_STATE_BOUND_PREV then
    some (Bool.nat (s.flag CFG_STATUS_PREV_VALID && (boundSlots s.regs.prev).contains i))
  else if is CAB_STATE_RESERVE_USED then some (s.cabState / 8)
  else if is CAB_STATE_STALLED then some (s.cabState / 4 % 2)
  else if is CAB_STATE_SPILLING then some (s.cabState / 2 % 2)
  else if is CAB_STATE_CREDIT_CAP then some (s.cabState % 2)
  else if is CAB_PORTFILL_DOWN then some (Bool.nat (s.portIsDown i))
  else if is LDG_STATUS_SOLO then some (Bool.nat (s.isActive && s.pair == pairALONE))
  else if is CPH_STATUS_DRBG_READY then some (Bool.nat (s.runs bCPH))
  else if is PAR_POSMAP_DRAWER then
    some (if s.setExists (i / 32) ∧ (s.positions (i / 32)).contains (i % 32) then s.posDrawer (i / 32) (i % 32) else 0)
  else if is MSIX_PBA_PEND then some (s.reg MEP_VEC_PEND_PEND)
  else if is EVR_STATUS_RING_KIB then some (recBytes s.evr.ring / 1024)
  else if is EVR_CUR_SEQ then some (s.pathCursor p).cur
  else if is EVR_PAGE_COUNT then some (s.pathCursor p).count
  else if is EVR_PAGE_LEN then some ((s.pathCursor p).page.getD []).length
  else if is EVR_SKIP_COUNT then some (s.pathCursor p).skip
  else if is PMC_CTR_VALUE then if p = .mgmt ∧ !s.mgmtSees sub i then some 0 else none
  else if is PMC_TD_SLOTS then if p = .mgmt ∧ !s.flag PMC_PERM_TD_HOST then some 0 else none
  else none

/-- A field as a path reads it. -/
def State.pathField (s : State) (p : Path) (sub : Option Nat) (view : Nat) (f : Field) (i : Nat) : Nat :=
  match s.derivedField p sub f i with
  | some v => v
  | none => s.readField view f i

/-- The registers whose low word latches the high word: the address of the register and the offset of its low word
(R38 and the tables). -/
def latching : List (Nat × Nat) :=
  [(RTU_NOW_TIME.addr, 0), (RTU_PERIOD_PERIOD.addr, 0), (RTU_EDGE_STAMP_TIME.addr, 0), (RTU_EPOCH_COUNT_COUNT.addr, 0),
   (CFG_SWITCH_TIME_TIME.addr, 0), (LDG_BSEQ_BSEQ.addr, 0), (SBD_UE_ADDR_ADDR.addr, 0), (HNG_CONFIRMED_EPOCH.addr, 0),
   (MEP_VEC_PEND_PEND.addr, 0), (EVR_FSEQ_FSEQ.addr, 0), (PMC_TD_SLOTS.addr, 0), (PMC_CTR_VALUE.addr, 0x18)]

/-- Key of a path's latch for the register whose low word is at `addr`. -/
def latchKey (p : Path) (addr : Nat) : Nat := 2 ^ 26 * p.idx + addr

/-- The live word at offset `o` of a register, as a path sees it. -/
def State.liveWord (s : State) (p : Path) (sub : Option Nat) (view : Nat) (r : Register) (i o : Nat) : Nat :=
  wordOf r o fun f => s.pathField p sub view f i

/-- A read of one word: a latched high word, or the live one; a low word latches its high word (R38). -/
def State.latchedWord (s : State) (p : Path) (sub : Option Nat) (view a : Nat) (ra : RegAt) : Nat × State :=
  let live (o : Nat) : Nat := s.liveWord p sub view ra.reg ra.inst o
  if latching.contains (ra.reg.addr, ra.off) then
    (live ra.off, { s with regs := { s.regs with latch := SMap.put (latchKey p a) (live (ra.off + 4)) s.regs.latch } })
  else if 4 ≤ ra.off ∧ latching.contains (ra.reg.addr, ra.off - 4) then
    (SMap.get (live ra.off) s.regs.latch (latchKey p (a - 4)), s)
  else (live ra.off, s)

/-- The word's rc fields clear once they have been read (R6); the peak of F goes on from the F there is (R216). -/
def State.clearCounters (s : State) (ra : RegAt) : State :=
  ((wordFields ra.reg ra.off).filter fun f => f.acc == .rc).foldl (fun s f =>
    s.setReg f ra.inst (if f.addr = CAB_PEAK_FILL.addr then s.fill else 0)) s

/-- A read of one word of a register that the path may make. -/
def State.readWord (s : State) (p : Path) (sub : Option Nat) (view a : Nat) (ra : RegAt) : Nat × State :=
  if ra.reg.addr = EVR_WINDOW_DATA.addr then
    let s := s.windowRead p ra.inst
    (((SMap.get [] s.out.lastRead p.idx).head?).getD 0, s)
  else
    let (v, s) := s.latchedWord p sub view a ra
    (v, s.clearCounters ra)

/-- A read of `width` bytes through path `p`: how it ended, the word (0 where it is refused), and the state. `bureauView` is
the VIEW of the Bureau thread that reads, `sub` the subscriber of a MGMT reader. -/
def State.regRead (s : State) (p : Path) (sub : Option Nat) (bureauView addr width : Nat) : Nat × Nat × State :=
  match s.access p false addr width with
  | .ok ra =>
    let (v, s) := s.readWord p sub (s.viewOf p bureauView) addr ra
    (accDone, v, s)
  | .unmapped => (accRange, 0, s.logErr 0x03 p addr)
  | .forbidden => (accNoAccess, 0, s.logErr 0x05 p addr)
  | .locked => (accNoAccess, 0, s)

/-- A read that answers its path. -/
def State.readAnswer (s : State) (p : Path) (addr : Nat) : State :=
  let (_, v, s) := s.regRead p none 1 addr 4
  s.answerRead p [v]

/-- Updates that coincide with a read that clears count after it (R8). -/
def State.countCoincident (s : State) (ra : RegAt) (n : Nat) : State :=
  ((wordFields ra.reg ra.off).filter fun f => f.acc == .rc).foldl (fun s f => s.bumpBy f ra.inst n {}) s

/-- A read of a counter that clears it, and the updates that coincide with it. -/
def State.rcRead (s : State) (p : Path) (addr coincident : Nat) : State :=
  let s := s.readAnswer p addr
  match findReg addr with
  | some ra => if coincident = 0 then s else s.countCoincident ra coincident
  | none => s

end Sys2Proof.Machine
end

