-- ==== Sys2Proof/Machine/Beykor.lean ====
section
/-! DEFINITION. Beykor on a thread: what lets an instruction issue, how it ends, exceptions and faults, registers, memory
and the Bureau's control registers (R174 to R184, R190 to R192, R415). -/

namespace Sys2Proof.Machine

open Sys2Proof.Reg

/-! ### Registers, local store and control registers (R174, R181, R192) -/

/-- A general register: g0 reads 0 (R174). -/
def Thread.rg (th : Thread) (r : Nat) : DWord := if r = 0 then 0 else SMap.get 0 th.g r

/-- A general register written: a write to g0 is discarded (R174). -/
def Thread.setG (th : Thread) (r : Nat) (v : DWord) : Thread := if r = 0 then th else { th with g := SMap.put r v th.g }

/-- A byte of the local store: what is listed; else 0, or what a resume left undefined above the descriptor (R159, log
entry 9) (DESIGN CHOICE, log entry 9). -/
def Thread.localByte (th : Thread) (a : Nat) : Byte :=
  match SMap.find th.store a with
  | some b => b
  | none => match th.scratch with
    | some k => if 64 ≤ a then Config.freeByte (k + a) else 0
    | none => 0

/-- Bytes of the local store. -/
def Thread.localBytes (th : Thread) (a n : Nat) : List Byte := (List.range n).map fun i => th.localByte (a + i)

/-- Bytes stored in the local store, lowest address first. -/
def Thread.storeLocal (th : Thread) (a : Nat) : List Byte → Thread
  | [] => th
  | b :: bs =>
    let m := if b = 0 ∧ th.scratch.isNone then SMap.del a th.store else SMap.put a b th.store
    ({ th with store := m }).storeLocal (a + 1) bs

/-- Bytes of a thread's local memory: a Bench partition, or the Bureau's own (R181). -/
def localSize (t : Nat) : Nat := if 512 ≤ t then 0x100000 else 8192

/-- Control register numbers (R192). -/
def csrEPC := 0
def csrCAUSE := 1
def csrBADADDR := 2
def csrVEC := 3
def csrIEN := 4
def csrIPEND := 5
def csrTCMP := 6
def csrSCRATCH := 7
def csrVIEW := 8

/-- A control register as stored: VIEW resets to 1, the others to 0 (R192, DESIGN CHOICE, log entry 5). -/
def Thread.csrOf (th : Thread) (n : Nat) : DWord := SMap.get (if n = csrVIEW then 1 else 0) th.csr n

/-- A control register set. -/
def Thread.setCsr (th : Thread) (n : Nat) (v : DWord) : Thread := { th with csr := SMap.put n v th.csr }

/-- GIE, bit 63 of IEN. -/
def Thread.gie (th : Thread) : Bool := (th.csrOf csrIEN).getLsbD 63

/-- GIE set or cleared. -/
def Thread.setGie (th : Thread) (b : Bool) : Thread :=
  th.setCsr csrIEN (BitVec.ofNat 64 ((th.csrOf csrIEN).toNat % 2 ^ 63 + 2 ^ 63 * Bool.nat b))

/-- IPEND: bits 0 to 21 the blocks' interrupts, bit 32 the timer (R192). -/
def State.ipend (s : State) (th : Thread) : Nat :=
  ((List.range 22).map fun b => Bool.nat (s.blockLevel b) * 2 ^ b).sum +
    2 ^ 32 * Bool.nat (decide ((th.csrOf csrTCMP).toNat ≤ s.refTime))

/-- IPEND AND IEN: the enabled interrupts that are pending. -/
def State.pendEnabled (s : State) (th : Thread) : Nat := s.ipend th &&& ((th.csrOf csrIEN).toNat % 2 ^ 63)

/-! ### Who runs, and where (R155, R165, R191) -/

/-- A thread changed, where it is there. -/
def State.onThread (s : State) (t : Nat) (g : Thread → Thread) : State :=
  match SMap.find s.bnc.threads t with
  | some th => { s with bnc := { s.bnc with threads := SMap.put t (g th) s.bnc.threads } }
  | none => s

/-- Image slots 32 to 63 hold user images (R165). -/
def userSlot (slot : Nat) : Bool := decide (32 ≤ slot) && decide (slot < 64)

/-- The command on a Bench thread. -/
def State.threadCmd (s : State) (t : Nat) : Option Cmd :=
  if 512 ≤ t then none else ((s.thread t).frame).bind s.frame

/-- The profile a thread's code runs in (R191). -/
def State.profileOf (s : State) (t : Nat) : Profile :=
  if 512 ≤ t then .bureau
  else match s.threadCmd t with
    | some c => if userSlot c.slot then .user else .system
    | none => .system

/-- The owner of a thread's tickets: its command's frame, or the Bureau thread (R158, R191). -/
def State.ownerOf (s : State) (t : Nat) : Nat := if 512 ≤ t then bureauOwner t else ((s.thread t).frame).getD 0

/-- The thread can issue: it runs a command or is the Bureau's, holds in no WAIT, and holds in no WFI that nothing has
ended (R155, R159, R192). -/
def State.canIssue (s : State) (t : Nat) : Bool :=
  match SMap.find s.bnc.threads t with
  | none => false
  | some th => th.waiting.isNone && (!th.wfi || s.pendEnabled th != 0) &&
      (decide (512 ≤ t) || match s.threadCmd t with
        | some c => c.phase == .running t
        | none => false)

/-- First byte and bytes of the code a thread runs: its image's, or the half of the Bureau area that its PC lies in (log
entry 5) (DESIGN CHOICE, log entry 5) (DESIGN CHOICE, log entry 56). -/
def State.codeOf (s : State) (t : Nat) : Nat × Nat :=
  if 512 ≤ t then ((s.thread t).pc / bureauHalf * bureauHalf, bureauHalf)
  else match (s.threadCmd t).bind fun c => SMap.find s.bnc.images c.slot with
    | some im => (0, 4 * im.code.length)
    | none => (0, 0)

/-- Control may pass to `pc`: a multiple of 4 inside the code (R179). -/
def State.pcOk (s : State) (t : Nat) (pc : Int) : Bool :=
  let (a, n) := s.codeOf t
  decide ((a : Int) ≤ pc) && decide (pc < (a : Int) + n) && pc % 4 == 0

/-! ### Exceptions and faults (R165 to R167, R190, R192) -/

/-- Exception codes (R190). -/
def excILLEGAL := 0x01
def excTARGET := 0x02
def excALIGN := 0x03
def excLOCAL := 0x04
def excSIDEBOARD := 0x05
def excARGBLOCK := 0x06
def excTICKET := 0x07
def excREQUEST := 0x08
def excNO_COMPLETION := 0x09
def excSECOND_COMPLETION := 0x0A

/-- An issue slot of a Bench counts in class `k` (1 retired, 2 wasted) and in the total, in PMC_TD and in BNC's counters,
in which only INST acts (R412, R413, R415). -/
def State.countSlot (s : State) (t k : Nat) : State :=
  if 512 ≤ t then s
  else [0, k].foldl (fun s e =>
    let s := s.setReg PMC_TD_SLOTS e (s.reg PMC_TD_SLOTS e + 1)
    (List.range 8).foldl (fun s i =>
      let c := 8 * bBNC + i
      if s.reg PMC_CTR_EVENT c = 0x50 + e ∧ (s.reg PMC_CTR_INST c = 0x7F ∨ s.reg PMC_CTR_INST c = t / 8) then s.pmcAdd c 1
      else s) s) s

/-- The command on a Bench thread stops with a fault (R167). -/
def State.benchFault (s : State) (t code exc : Nat) : State :=
  (((s.countSlot t 2).faultCommand (s.ownerOf t) code (s.thread t).pc exc)).settle

/-- The fault code of an exception on a Bench (R166, R190). -/
def faultOf (p : Profile) (exc : Nat) : Nat :=
  if p = .user then (if exc = excNO_COMPLETION then 0x0B12 else if exc = excSECOND_COMPLETION then 0x0B14 else 0x0B13)
  else 0x0A00 + exc

/-- A Bureau thread traps (R192): EPC, CAUSE and BADADDR written, GIE kept in PGIE and cleared, on at VEC
(DEDUCED, log entry 53). -/
def Thread.trapTo (th : Thread) (epc : DWord) (cause : Nat) (bad : DWord) : Thread :=
  let pgie := 2 ^ 30 * Bool.nat th.gie
  let x := ((th.setCsr csrEPC epc).setCsr csrCAUSE (BitVec.ofNat 64 (cause + pgie))).setCsr csrBADADDR bad
  { x.setGie false with pc := (th.csrOf csrVEC).toNat, wfi := false }

/-- An exception: the faulting instruction does not act; on a Bench the command stops with a fault, on the Bureau the
thread traps (R190, R192). BADADDR holds the address that caused ALIGN, LOCAL, SIDEBOARD or TARGET; what it holds after another
exception is open: a free value (DESIGN CHOICE, log entry 5). -/
def State.trap (s : State) (t exc : Nat) (addr : Option DWord) : State :=
  if 512 ≤ t then
    let (v, s') := match addr with
      | some a => (a, s)
      | none => (Config.freeValue s.freeCtr, { s with freeCtr := s.freeCtr + 1 })
    s'.onThread t fun th => th.trapTo (BitVec.ofNat 64 th.pc) exc v
  else s.benchFault t (faultOf (s.profileOf t) exc) exc

/-! ### Issue -/

/-- How an instruction ends: it acts and control passes on; it acts, its thread given up, to go on later; it acts and its
thread is free; it stalls and has not issued; it raises an exception; it is a user's and breaks R165. -/
inductive Issued
  | goes (s : State) (pc : Int)
  | left (s : State) (pc : Int)
  | over (s : State)
  | stall
  | raise (exc : Nat) (addr : Option DWord)
  | fault (code : Nat)

/-- A user command has issued its budget of instructions (R166): ISSUE × 1,024, 0 acting as 1. -/
def State.budgetSpent (s : State) (t : Nat) : Bool :=
  match s.threadCmd t with
  | some c => userSlot c.slot && decide (max 1 (s.reg BNC_USER_LIMITS_ISSUE) * 1024 ≤ c.issued)
  | none => false

/-- An instruction issues: a user command counts it; a WFI that held the thread is over. -/
def State.countIssue (s : State) (t : Nat) : State :=
  let s := s.onThread t fun th => { th with wfi := false }
  match s.profileOf t with
  | .user => s.updFrame (s.ownerOf t) fun c => { c with issued := c.issued + 1 }
  | _ => s

/-- Where an instruction's end leaves the state: control passes only inside the code (R179), an instruction that raises an
exception or faults does not act (R190), and the slot is counted (R415) (DEDUCED, log entry 53). -/
def State.finishWord (s : State) (t : Nat) : Issued → State
  | .goes s' pc =>
    if s.pcOk t pc then (s'.onThread t fun th => { th with pc := pc.toNat }).countSlot t 1
    else s.trap t excTARGET (some (BitVec.ofInt 64 pc))
  | .left s' pc => if s.pcOk t pc then s'.countSlot t 1 else s.trap t excTARGET (some (BitVec.ofInt 64 pc))
  | .over s' => s'.countSlot t 1
  | .stall => s
  | .raise exc addr => s.trap t exc addr
  | .fault code => s.benchFault t code 0

/-- An instruction on a thread. Nothing happens on a thread that cannot issue; a user command beyond its budget faults
(R166); a word that does not decode is ILLEGAL, a system word of a user thread faults (R165, R176, R190); else `f` says what
it does (DESIGN CHOICE, log entry 56). -/
def State.runWord (s : State) (t : Nat) (b : BkWord) (f : State → Thread → Issued) : State :=
  if !s.canIssue t then s
  else if s.budgetSpent t then s.benchFault t 0x0B10 0
  else if !b.wf then s.trap t excILLEGAL none
  else if !b.inProfile (s.profileOf t) then
    if s.profileOf t = .user then s.benchFault t 0x0B09 0 else s.trap t excILLEGAL none
  else s.finishWord t (f (s.countIssue t) (s.thread t))

/-- A result in a register, control to the next instruction. -/
def writeNext (s : State) (t : Nat) (th : Thread) (rd : Nat) (v : DWord) : Issued :=
  .goes (s.onThread t fun x => x.setG rd v) ((th.pc : Int) + 4)

/-! ### ALU and immediates (R177, R178) -/

/-- RD of an ALU operation from RA, RB and the old RD (R177). -/
def AluOp.result (a b old : DWord) : AluOp → DWord
  | .add => a + b
  | .sub => a - b
  | .and => a &&& b
  | .or => a ||| b
  | .xor => a ^^^ b
  | .andn => a &&& ~~~ b
  | .shl => shlWord a b
  | .shr => shrWord a b
  | .sar => sarWord a b
  | .mul => a * b
  | .mulhu => mulHigh a b
  | .seq => flagWord (a == b)
  | .sne => flagWord (a != b)
  | .slt => flagWord (signedLess a b)
  | .sltu => flagWord (unsignedLess a b)
  | .sel => if old = 0 then b else a
  | .clz => BitVec.ofNat 64 (leadingZeros 64 a.toNat)
  | .popc => BitVec.ofNat 64 (oneBits 64 a.toNat)

/-- A 16-bit immediate sign-extended. -/
def immSigned (v : Nat) : DWord := BitVec.ofInt 64 (signedField 16 v)
/-- Zero-extended. -/
def immZero (v : Nat) : DWord := BitVec.ofNat 64 v

/-- RD of an I-format operation from RA and IMM (R178). -/
def ImmOp.result (a : DWord) (v : Nat) : ImmOp → DWord
  | .addi => a + immSigned v
  | .andi => a &&& immZero v
  | .ori => a ||| immZero v
  | .xori => a ^^^ immZero v
  | .shli => shlWord a (immZero v)
  | .shri => shrWord a (immZero v)
  | .sari => sarWord a (immZero v)
  | .seth0 => setHalf 0 a (BitVec.ofNat 16 v)
  | .seth1 => setHalf 1 a (BitVec.ofNat 16 v)
  | .seth2 => setHalf 2 a (BitVec.ofNat 16 v)
  | .seth3 => setHalf 3 a (BitVec.ofNat 16 v)
  | .seqi => flagWord (a == immSigned v)
  | .slti => flagWord (signedLess a (immSigned v))
  | .sltiu => flagWord (unsignedLess a (immZero v))

/-- An ALU operation on a thread. -/
def State.runAlu (s : State) (op : AluOp) (t rd ra rb : Nat) : State :=
  s.runWord t (.alu op rd ra rb) fun s th => writeNext s t th rd (op.result (th.rg ra) (th.rg rb) (th.rg rd))

/-- An I-format operation on a thread. -/
def State.runImm (s : State) (op : ImmOp) (t rd ra : Nat) (imm : BitVec 16) : State :=
  s.runWord t (.imm op rd ra imm.toNat) fun s th => writeNext s t th rd (op.result (th.rg ra) imm.toNat)

/-- SETHp. -/
def sethOp (p : Nat) : ImmOp :=
  match p with
  | 0 => .seth0
  | 1 => .seth1
  | 2 => .seth2
  | _ => .seth3

/-! ### Memory (R180 to R182, R325) -/

/-- The address ra + OFF (R180). -/
def Thread.address (th : Thread) (ra : Nat) (off : BitVec 12) : Nat :=
  (th.rg ra + BitVec.ofInt 64 (signedField 12 off.toNat)).toNat

/-- Requester code of a thread's Sideboard accesses (R319). -/
def sbCode (t : Nat) : Nat := if 512 ≤ t then reqBUR else reqBNC

/-- The Sideboard byte address of `n` bytes at a user's data-area offset, or at an absolute address (R181). -/
def State.sbTarget (s : State) (t a n : Nat) : Option Nat :=
  if s.profileOf t = .user then
    match (s.threadCmd t).bind fun c => SMap.find s.bnc.images c.slot with
    | some im => if a + n ≤ im.dataLen then some (im.dataBase + a) else none
    | none => none
  else if a < sbdSize then some a else none

/-- A Sideboard address that the thread cannot reach (R165, R181). -/
def State.sbRefused (s : State) (t a : Nat) : Issued :=
  if s.profileOf t = .user then .fault 0x0B08 else .raise excSIDEBOARD (some (BitVec.ofNat 64 a))

/-- An address of the lock window, which a user cannot reach (R325). -/
def State.isLockWindow (s : State) (t a : Nat) : Bool :=
  s.profileOf t != .user && decide (lockWindow ≤ a) && decide (a < lockWindow + 0x10000)

/-- Who a thread is to the locks (R324). -/
def State.lockWho (s : State) (t : Nat) : LockOwner := if 512 ≤ t then .bureau t else .bench (s.ownerOf t)

/-- A load from the lock window: acquire at +0x00, the state at +0x20; a width other than 8 bytes returns 0 and has no effect
(R325). What a load at another offset returns is open: a free value. -/
def State.lockLoad (s : State) (t a w : Nat) : Nat × State :=
  let n := a % 0x10000 / 0x100
  let o := a % 0x100
  if w ≠ 3 then (0, s)
  else if o = 0 then
    let s := s.acquireLock (s.lockWho t) n
    (SMap.get 0 s.out.lockResult (s.lockWho t).kind, s)
  else if o = 0x20 then (s.lockWord n, s)
  else s.freeBits 64

/-- A store to the lock window: release, renew or clean with the GEN stored (R325). -/
def State.lockStore (s : State) (t a w v : Nat) : State :=
  let n := a % 0x10000 / 0x100
  let o := a % 0x100
  if w ≠ 3 then s
  else if o = 0x08 then s.releaseLock (s.lockWho t) n (v % 2 ^ 24)
  else if o = 0x10 then s.renewLock (s.lockWho t) n (v % 2 ^ 24)
  else if o = 0x18 then s.cleanLock (s.lockWho t) n (v % 2 ^ 24)
  else s

/-- A thread's seat on the arbiter of an address takes no grant (R322). -/
def State.seatMasked (s : State) (t a : Nat) : Bool :=
  match s.seatOf (a / 256 % 2) (sbCode t) with
  | some k => s.masked (a / 256 % 2) k
  | none => false

/-- `n` bytes loaded from the Sideboard under its arbiter (R317, R320); through a masked seat the value is open. -/
def State.sbLoad (s : State) (t a n : Nat) : Nat × State :=
  if s.seatMasked t a then s.freeBits (8 * n)
  else
    let s := s.loadGrant (sbCode t) a
    (leNat (s.sbRead a n), s)

/-- A load of 2^w bytes at `a` of a space; what is read goes to `k` (R180, R181). -/
def State.loadSpace (s : State) (t : Nat) (th : Thread) (sp w a : Nat) (k : Nat → State → Issued) : Issued :=
  if a % 2 ^ w ≠ 0 then .raise excALIGN (some (BitVec.ofNat 64 a))
  else if sp = 0 then
    if a < localSize t then k (leNat (th.localBytes a (2 ^ w))) s else .raise excLOCAL (some (BitVec.ofNat 64 a))
  else if sp = 3 then
    let (_, v, s) := s.regRead .bureau none (th.csrOf csrVIEW).toNat a 4
    k v s
  else
    match s.sbTarget t a (2 ^ w) with
    | none => s.sbRefused t a
    | some d =>
      if s.isLockWindow t d then
        let (v, s) := s.lockLoad t d w
        k v s
      else
        let (v, s) := s.sbLoad t d (2 ^ w)
        k v s

/-- A value of 2^w bytes sign-extended (R180). -/
def signExtend (w v : Nat) : DWord := BitVec.ofInt 64 (signedField (8 * 2 ^ w) v)

/-- LOAD on a thread. -/
def State.runLoad (s : State) (t rt ra sp w : Nat) (off : BitVec 12) : State :=
  s.runWord t (.mem .load rt ra sp w off.toNat) fun s th =>
    s.loadSpace t th sp w (th.address ra off) fun v s => writeNext s t th rt (BitVec.ofNat 64 v)

/-- LOADS on a thread. -/
def State.runLoads (s : State) (t rt ra sp w : Nat) (off : BitVec 12) : State :=
  s.runWord t (.mem .loads rt ra sp w off.toNat) fun s th =>
    s.loadSpace t th sp w (th.address ra off) fun v s => writeNext s t th rt (signExtend w v)

/-- A store of 2^w bytes at `a` of a space (R180, R181, R320). -/
def State.storeSpace (s : State) (t : Nat) (th : Thread) (sp w a : Nat) (v : DWord) : Issued :=
  let next : Int := (th.pc : Int) + 4
  if a % 2 ^ w ≠ 0 then .raise excALIGN (some (BitVec.ofNat 64 a))
  else if sp = 0 then
    if localSize t ≤ a ∨ (t < 512 ∧ a < 64) then .raise excLOCAL (some (BitVec.ofNat 64 a))
    else .goes (s.onThread t fun th => th.storeLocal a (leBytes (2 ^ w) v.toNat)) next
  else if sp = 3 then .goes (s.regWrite .bureau (s.lockWho t) a 4 (v.toNat % 2 ^ 32)).2 next
  else
    match s.sbTarget t a (2 ^ w) with
    | none => s.sbRefused t a
    | some d =>
      if s.isLockWindow t d then .goes (s.lockStore t d w v.toNat) next
      else if s.storeStalls (sbCode t) d then .stall
      else .goes (s.postStore (sbCode t) d (leBytes (2 ^ w) v.toNat) t) next

/-- STORE on a thread. -/
def State.runStore (s : State) (t rt ra sp w : Nat) (off : BitVec 12) : State :=
  s.runWord t (.mem .store rt ra sp w off.toNat) fun s th => s.storeSpace t th sp w (th.address ra off) (th.rg rt)

/-- AADD on a thread: the old word in rt, the sum in the Sideboard, as one operation (R182, R317). -/
def State.runAadd (s : State) (t rt ra : Nat) (off : BitVec 12) : State :=
  s.runWord t (.mem .aadd rt ra 1 3 off.toNat) fun s th =>
    let a := th.address ra off
    let add := th.rg rt
    if a % 8 ≠ 0 then .raise excALIGN (some (BitVec.ofNat 64 a))
    else
      match s.sbTarget t a 8 with
      | none => s.sbRefused t a
      | some d =>
        if s.isLockWindow t d then
          let (v, s) := s.freeBits 64
          writeNext s t th rt (BitVec.ofNat 64 v)
        else
          let (v, s') := s.sbLoad t d 8
          let s' := if s.seatMasked t d then s' else s'.sbWrite d (leBytes 8 (v + add.toNat))
          writeNext s' t th rt (BitVec.ofNat 64 v)

/-! ### Branches (R179) -/

/-- A direct target. -/
def Thread.targetOf (th : Thread) (disp : BitVec 20) : Int := (th.pc : Int) + 4 * signedField 20 disp.toNat

/-- BZ and BNZ on a thread. -/
def State.runBranch (s : State) (op : BranchOp) (t ra : Nat) (disp : BitVec 20) (taken : DWord → Bool) : State :=
  s.runWord t (.branch op ra disp.toNat) fun s th =>
    .goes s (if taken (th.rg ra) then th.targetOf disp else (th.pc : Int) + 4)

/-- JAL on a thread: the return address goes to the register in the RA field. -/
def State.runJal (s : State) (t ra : Nat) (disp : BitVec 20) : State :=
  s.runWord t (.branch .jal ra disp.toNat) fun s th =>
    .goes (s.onThread t fun x => x.setG ra (BitVec.ofNat 64 (th.pc + 4))) (th.targetOf disp)

/-- JALR on a thread: ra is read before rd is written. -/
def State.runJalr (s : State) (t rd ra : Nat) : State :=
  s.runWord t (.jalr rd ra) fun s th =>
    .goes (s.onThread t fun x => x.setG rd (BitVec.ofNat 64 (th.pc + 4))) (th.rg ra).toNat

/-! ### Thread control (R183, R184) -/

/-- The ticket a WAIT, DROP or PARK names: none above 63, where it is neither outstanding nor holds a result, or where it is
detached (R184). -/
def State.namedTicket (s : State) (o n : Nat) : Option Ticket :=
  if n < 64 then (s.ticket o n).filter fun k => !k.detached else none

/-- WAIT on a thread. -/
def State.runWait (s : State) (t rd ra : Nat) : State :=
  s.runWord t (.wait rd ra) fun s th =>
    let o := s.ownerOf t
    let n := (th.rg ra).toNat
    match s.namedTicket o n with
    | none => .raise excTICKET none
    | some k => match k.done with
      | some w => writeNext (s.setTickets o (SMap.del n (s.tickets o))) t th rd w
      | none => .goes (s.onThread t fun x => { x with waiting := some (n, rd) }) ((th.pc : Int) + 4)

/-- g16 to g31 as a frame keeps them. -/
def Thread.kept (th : Thread) : List DWord := (List.range 16).map fun i => th.rg (16 + i)

/-- PARK on a thread: acts as MFENCE first; goes on where every named ticket is done, else saves g16 to g31 and the resume
address and frees the thread (R159, R183). -/
def State.runPark (s : State) (t ra : Nat) : State :=
  s.runWord t (.park ra) fun s th =>
    let o := s.ownerOf t
    let m := (th.rg ra).toNat
    let next : Int := (th.pc : Int) + 4
    if !((maskTickets m).all fun n => (s.namedTicket o n).isSome) then .raise excTICKET none
    else
      let s := s.fenceStores (sbCode t)
      if s.allDone o m then .goes s next
      else
        let s := s.updFrame o fun c => { c with saved := th.kept, resumePc := th.pc + 4, phase := .parked m }
        .left ((s.bump BNC_PARKS 0 (s.cmdAttr (some o))).freeThread t) next

/-- DROP on a thread: a held result is discarded, an outstanding ticket becomes detached. -/
def State.runDrop (s : State) (t ra : Nat) : State :=
  s.runWord t (.drop ra) fun s th =>
    let o := s.ownerOf t
    let n := (th.rg ra).toNat
    let next : Int := (th.pc : Int) + 4
    match s.namedTicket o n with
    | none => .raise excTICKET none
    | some k =>
      if k.done.isSome then .goes (s.setTickets o (SMap.del n (s.tickets o))) next
      else .goes (s.updTicket o n fun k => { k with detached := true }) next

/-- END on a thread: NO_COMPLETION before the completion request (R183, R190). -/
def State.runEnd (s : State) (t : Nat) : State :=
  s.runWord t .endThread fun s _ =>
    let o := s.ownerOf t
    if ((s.frame o).bind (·.comp)).isNone then .raise excNO_COMPLETION none
    else .over (s.endHandler t o).settle

/-- RDTIME on a thread. -/
def State.runRdtime (s : State) (t rd : Nat) : State :=
  s.runWord t (.rdtime rd) fun s th => writeNext s t th rd (BitVec.ofNat 64 s.refTime)

/-- Word cN of the capsule window, byte 4N the most significant (R161). -/
def Cmd.window (c : Cmd) (n : Nat) : Nat := capField c.capsule (4 * n) 4

/-- RDC on a thread. -/
def State.runRdc (s : State) (t rd n : Nat) : State :=
  s.runWord t (.rdc rd n) fun s th =>
    writeNext s t th rd (BitVec.ofNat 64 (((s.threadCmd t).map fun c => c.window n).getD 0))

/-- MFENCE on a thread (R182, R317). -/
def State.runMfence (s : State) (t : Nat) : State :=
  s.runWord t .mfence fun s th => .goes (s.fenceStores (sbCode t)) ((th.pc : Int) + 4)

/-! ### The Bureau's control (R192) -/

/-- ERET on a thread: GIE from PGIE, on at EPC. -/
def State.runEret (s : State) (t : Nat) : State :=
  s.runWord t .eret fun s th =>
    .goes (s.onThread t fun x => x.setGie ((th.csrOf csrCAUSE).getLsbD 30)) (th.csrOf csrEPC).toNat

/-- WFI on a thread: it holds until an enabled interrupt is pending, whatever GIE is. -/
def State.runWfi (s : State) (t : Nat) : State :=
  s.runWord t .wfi fun s th =>
    .goes (s.onThread t fun x => { x with wfi := s.pendEnabled th == 0 }) ((th.pc : Int) + 4)

/-- A control register as CSRR reads it. -/
def State.readCsr (s : State) (th : Thread) (n : Nat) : DWord :=
  if n = csrIPEND then BitVec.ofNat 64 (s.ipend th) else th.csrOf n

/-- CSRR on a thread. -/
def State.runCsrr (s : State) (t rd n : Nat) : State :=
  s.runWord t (.csrr rd n) fun s th => writeNext s t th rd (s.readCsr th n)

/-- What CSRW keeps of a value: the bits the register has. -/
def csrMask (n : Nat) (v : DWord) : DWord :=
  if n = csrCAUSE then v &&& 0xC00000FF
  else if n = csrVEC then v &&& ~~~ 3
  else if n = csrVIEW then v &&& 3
  else v

/-- CSRW on a thread: IPEND is read-only. -/
def State.runCsrw (s : State) (t ra n : Nat) : State :=
  s.runWord t (.csrw ra n) fun s th =>
    .goes (if n = csrIPEND then s else s.onThread t fun x => x.setCsr n (csrMask n (th.rg ra))) ((th.pc : Int) + 4)

/-- An interrupt of a Bureau thread with GIE set: it traps to VEC between two instructions. Which of several pending sources
CAUSE names, and what BADADDR holds, is open: free values (DESIGN CHOICE, log entry 5). -/
def State.interrupt (s : State) (t : Nat) : State :=
  match SMap.find s.bnc.threads t with
  | none => s
  | some th =>
    let srcs := (List.range 33).filter (bitOf (s.pendEnabled th))
    if !th.gie ∨ srcs = [] ∨ th.waiting.isSome then s
    else
      let (v, s) := s.freeBits 6
      let (bad, s) := s.freeBits 64
      let src := srcs.getD (v % srcs.length) 0
      s.onThread t fun th => th.trapTo (BitVec.ofNat 64 th.pc) (2 ^ 31 + src) (BitVec.ofNat 64 bad)

/-- The timer becomes pending: a WFI that it ends is over. -/
def State.timerPending (s : State) (t : Nat) : State :=
  s.onThread t fun th => if s.pendEnabled th = 0 then th else { th with wfi := false }

end Sys2Proof.Machine
end

