-- ==== Sys2Proof/Machine/BeykorAlu.lean ====
section
/-! DEFINITION. The meanings of Beykor's ALU and I-format instructions (R177, R178). -/

namespace Sys2Proof.Machine

end Sys2Proof.Machine
end

