-- ==== Sys2Proof/Machine/BeykorFlow.lean ====
section
/-! DEFINITION. The meanings of Beykor's memory, branch and thread-control instructions, and of the Bureau's own (R179 to
R184, R192). -/

namespace Sys2Proof.Machine

end Sys2Proof.Machine
end

