-- ==== Sys2Proof/Machine/BeykorReq.lean ====
section
/-! DEFINITION. XREQ: argument blocks, the checks of an issue in their order, and the meanings of the requests (R165, R184 to
R189). A row names the kind of request that its argument block asks for; what the block holds decides (DESIGN CHOICE, log entry 52). -/

namespace Sys2Proof.Machine

open Sys2Proof.Reg

/-! ### The issue (R185) -/

/-- What the checks of an XREQ come to: the request, with what follows once it has its ticket; an exception; a user's
fault. -/
inductive Parsed
  | req (r : Req) (act : State → Nat → State)
  | raise (exc : Nat)
  | fault (code : Nat)

/-- Who issues an XREQ, and in which state. -/
structure Issuer where
  s : State
  t : Nat
  o : Nat
  th : Thread
  cmd : Option Cmd
  user : Bool

/-- The thread is the Bureau's. -/
def Issuer.bureau (x : Issuer) : Bool := decide (512 ≤ x.t)

/-- The command has made its completion request. -/
def Issuer.completed (x : Issuer) : Bool := (x.cmd.bind (·.comp)).isSome

/-- XREQ on a thread (R185): after the checks a ticket number is taken, without one the request stalls (R158); the request
starts and its number goes to rd; with g0 the ticket is detached (R184) (DESIGN CHOICE, log entry 52). -/
def State.runXreq (s : State) (t rd ra rb req : Nat) (parse : Issuer → Parsed) : State :=
  (s.runWord t (.xreq rd ra rb req) fun s th =>
    let o := s.ownerOf t
    let x : Issuer := { s := s, t := t, o := o, th := th, cmd := s.threadCmd t, user := s.profileOf t == .user }
    match parse x with
    | .raise exc => .raise exc none
    | .fault code => .fault code
    | .req r act =>
      match s.ticketNumber o with
      | none => .stall
      | some n => writeNext (act (s.issue o n r (rd == 0)) n) t th rd (BitVec.ofNat 64 n)).settle

/-- The first check that fails decides; `r` where none does. -/
def firstOf (checks : List (Bool × Parsed)) (r : Parsed) : Parsed :=
  match checks.find? (·.1) with
  | some c => c.2
  | none => r

/-- A request with nothing more to do than what its engines do. -/
def plainReq (r : Req) : Parsed := .req r fun s _ => s

/-- A request that ends as it is issued. -/
def endsWith (r : Req) (o status detail value : Nat) : Parsed :=
  .req r fun s n => s.finishTicket o n (resultWord status detail value)

/-! ### What requests name (R165, R187, R188) -/

/-- An argument block of `n` bytes is 8-aligned and lies wholly in the thread's local memory (R185). -/
def Issuer.blockOk (x : Issuer) (a n : Nat) : Bool := a % 8 == 0 && decide (a + n ≤ localSize x.t)

/-- A little-endian field of the block at `a`. -/
def Issuer.arg (x : Issuer) (a o n : Nat) : Nat := leNat (x.th.localBytes (a + o) n)

/-- The group a handle names, unless its release has been asked for. -/
def Issuer.group (x : Issuer) (h : Nat) : Option (Nat × Group) := (x.s.groupOf h).filter fun g => !g.2.releaseAsked

/-- A range leaves its group; a handle that names no group is an operand out of range but for a user, whose check is that of
R165 (R190). -/
def Issuer.rangeBad (x : Issuer) (r : Nat × Nat × Nat) : Bool :=
  match x.group r.1 with
  | some g => decide (g.2.cells * 256 < r.2.1 + r.2.2)
  | none => !x.user

/-- Some range does. -/
def Issuer.rangesBad (x : Issuer) (rs : List (Nat × Nat × Nat)) : Bool := rs.any x.rangeBad

/-- The command holds a group (R165). -/
def Issuer.holds (x : Issuer) (h : Nat) : Bool :=
  match x.group h with
  | some g => g.2.owner == some x.o
  | none => false

/-- A user names cells that its command does not hold: fault 0x0B02. -/
def Issuer.notHeld (x : Issuer) (hs : List Nat) : Bool × Parsed := (x.user && !hs.all x.holds, .fault 0x0B02)

/-- A user's volume is not bound to its subscriber with the rights it needs: fault 0x0B04. -/
def Issuer.noRight (x : Issuer) (v need : Nat) : Bool × Parsed :=
  (x.user && !(((x.cmd.map fun c => x.s.hasRight c.sub v need)).getD false), .fault 0x0B04)

/-- A range lies inside its volume. -/
def Issuer.inVolume (x : Issuer) (v a n : Nat) : Bool := decide (a + n ≤ x.s.volSize v)

/-- The command's tracker entry, where a TRACK request took it, covers a range. -/
def Issuer.tracked (x : Issuer) (v a n : Nat) : Bool :=
  match x.cmd.bind (·.track) with
  | some e => e.asked && e.vol == v && decide (e.slba ≤ a) && decide (a + n ≤ e.slba + e.nblk)
  | none => false

/-- A user's range leaves its volume or is not covered by a tracker entry of its command: fault 0x0B05. -/
def Issuer.badRange (x : Issuer) (v a n : Nat) : Bool × Parsed :=
  (x.user && !(x.inVolume v a n && x.tracked v a n), .fault 0x0B05)

/-- An operand out of range or a request the command's state does not allow: REQUEST. -/
def refuse (b : Bool) : Bool × Parsed := (b, .raise excREQUEST)

/-- A misplaced argument block: ARGBLOCK. -/
def Issuer.noBlock (x : Issuer) (a n : Nat) : Bool × Parsed := (!x.blockOk a n, .raise excARGBLOCK)

/-- No request but RELEASE follows the completion request; a request of a command is not the Bureau's (R190, R191). -/
def Issuer.notNow (x : Issuer) (ofCommand : Bool) : Bool × Parsed := refuse (x.completed || (ofCommand && x.bureau))

/-! ### The requests -/

/-- Cells a command holds, and those its CELLS requests wait for (R165). -/
def State.cellsHeld (s : State) (o : Nat) : Nat :=
  ((s.cab.groups.filter fun e => e.2.owner == some o).map fun e => e.2.cells - (e.2.freed.map (·.count)).sum).sum +
    ((s.tickets o).map fun k => match k.2.req with
      | .cells n => if k.2.ready.isNone ∧ k.2.done.isNone then n else 0
      | _ => 0).sum

/-- CELLS. -/
def parseCells (n : Nat) (x : Issuer) : Parsed :=
  firstOf
    [x.notNow false, refuse (n == 0 || decide (65536 < n)),
     (x.user && decide (x.s.reg BNC_USER_CELLS_CELLS < x.s.cellsHeld x.o + n), .fault 0x0B01)]
    (plainReq (.cells n))

/-- RELEASE. -/
def parseRelease (h : Nat) (x : Issuer) : Parsed :=
  firstOf [refuse ((x.group h).isNone && !x.user), x.notHeld [h]] (plainReq (.release h))

/-- EMIT of kind XRDY or DATA. -/
def parseEmitCells (a : Nat) (x : Issuer) : Parsed :=
  let kind := x.arg a 0 1
  let g := x.arg a 4 4
  let goff := x.arg a 8 8
  let coff := x.arg a 16 8
  let len := x.arg a 24 8
  let outside : Bool := (x.cmd.map fun c =>
    (x.s.checkRegion c.dkey (c.doff + coff) len c.conn c.sub).isSome).getD false
  let r := if kind = 2 then
      if len = 0 then endsWith .rcheck x.o 0 0 0 else plainReq (.xrdy (groupIx g) goff coff len none)
    else plainReq (.data (groupIx g) goff coff len 0 none)
  firstOf
    [x.noBlock a 32, x.notNow true,
     refuse (goff % 4096 != 0 || coff % 4096 != 0 || len % 4096 != 0 || x.rangesBad [(g, goff, len)]),
     x.notHeld [g], (x.user && kind == 3 && outside, .fault 0x0B03)] r

/-- EMIT of kind CMPL: the completion request (R168). -/
def parseEmitCmpl (a : Nat) (x : Issuer) : Parsed :=
  let cls := x.arg a 1 1
  firstOf
    [x.noBlock a 24, (x.completed, .raise excSECOND_COMPLETION), refuse x.bureau, refuse (decide (1 < cls))]
    (.req .cmpl fun s _ =>
      s.complete x.o (x.arg a 2 2) (x.arg a 4 2) (x.arg a 8 4) (x.arg a 16 8) (cls == 1))

/-- A packet of a system kind leaves for its connection with a payload from a group (R188); MGMT carries MSGID tag 0xFFFF
(R386). -/
def State.emitSystem (s : State) (o n kind conn code group goff plen : Nat) : State :=
  match s.findConn conn with
  | none => s.answer o n 0 0 0
  | some (ci, c) =>
    s.sendPkt {
      typ := (if kind = 9 then .ctrl else .mgmt), ci := some ci, port := c.lport, owner := some o, ticket := some n,
      pkt := { conn := c.id, code := code, msgid := (if kind = 9 then 0 else 0xFFFF), plen := plen,
               payload := s.groupRead group goff plen } }

/-- EMIT of kind CTRL or MGMT. -/
def parseEmitSystem (a : Nat) (x : Issuer) : Parsed :=
  let kind := x.arg a 0 1
  let code := x.arg a 1 1
  let g := x.arg a 4 4
  let goff := x.arg a 8 8
  let plen := x.arg a 16 2
  let conn := x.arg a 20 4
  firstOf
    [x.noBlock a 24, x.notNow false,
     refuse (decide (1024 < plen) || (x.s.findConn conn).isNone || (plen != 0 && x.rangesBad [(g, goff, plen)])),
     (x.user, .fault 0x0B03)]
    (.req (if kind = 9 then .ctrl conn code else .mgmt conn code) fun s n =>
      (s.started x.o n).emitSystem x.o n kind conn code (groupIx g) goff plen)

/-- EMIT: the block's KIND decides (R188) (DESIGN CHOICE, log entry 52). -/
def parseEmit (a : Nat) (x : Issuer) : Parsed :=
  if !x.blockOk a 8 then .raise excARGBLOCK
  else
    match x.arg a 0 1 with
    | 2 | 3 => parseEmitCells a x
    | 4 => parseEmitCmpl a x
    | 9 | 10 => parseEmitSystem a x
    | _ => .raise excREQUEST

/-- The key slot of a volume. -/
def State.volumeSlot (s : State) (v : Nat) : Option Nat :=
  if s.flag CPH_VOLKEY_VALID v then some (s.reg CPH_VOLKEY_SLOT v) else none

/-- CIPHER: KEYSLOT 0xFFFF is the volume's slot; a user may name no other (R165, R191). -/
def parseCipher (a : Nat) (x : Issuer) : Parsed :=
  let op := x.arg a 0 1
  let v := x.arg a 2 2
  let g := x.arg a 4 4
  let goff := x.arg a 8 8
  let n := x.arg a 16 4
  let named := x.arg a 20 2
  let lba := x.arg a 24 8
  let slot := if named = 0xFFFF then x.s.volumeSlot v else some named
  let r := match slot with
    | some k => if n = 0 then endsWith .rcheck x.o 0 0 0
        else plainReq (.cipher (op == 0) k (groupIx g) goff n (dataUnit v lba) [] false)
    | none => .raise excREQUEST
  firstOf
    [x.noBlock a 32, x.notNow false,
     refuse (decide (1 < op) || x.rangesBad [(g, goff, n * 4096)] || slot.isNone || decide (8192 ≤ slot.getD 0)),
     x.notHeld [g], (x.user && slot != x.s.volumeSlot v, .fault 0x0B06)] r

/-- PARITY (R188): in RECON the lost strips are strips of the N + 2. -/
def parseParity (a : Nat) (x : Issuer) : Parsed :=
  let mode := x.arg a 0 1
  let n := x.arg a 1 1
  let j := x.arg a 2 1
  let missB := x.arg a 3 1
  let sg := x.arg a 4 4
  let so := x.arg a 8 8
  let dg := x.arg a 16 4
  let d := x.arg a 24 8
  let len := x.arg a 32 8
  let cnt := x.arg a 40 4
  let lost := if missB = 0xFF ∨ missB = j then 1 else 2
  let rs := match mode with
    | 0 => [(sg, so, cnt * n * len), (dg, d, cnt * 2 * len)]
    | 1 => [(sg, so, 4 * len), (dg, d, 2 * len)]
    | 2 => [(sg, so, (n + 2) * len), (dg, d, lost * len)]
    | _ => [(sg, so, len), (dg, d, len)]
  let badMiss := mode == 2 && (decide (n + 2 ≤ j) || (missB != 0xFF && decide (n + 2 ≤ missB)))
  firstOf
    [x.noBlock a 44, x.notNow false, refuse (decide (3 < mode) || len % 4096 != 0 || badMiss || x.rangesBad rs),
     x.notHeld [sg, dg]]
    (plainReq (.parity mode n j missB (groupIx sg) so (groupIx dg) d len cnt))

/-- LEDGER. -/
def parseLedger (a : Nat) (x : Issuer) : Parsed :=
  let v := x.arg a 0 2
  let slba := x.arg a 8 8
  let n := x.arg a 16 4
  firstOf
    [x.noBlock a 20, x.notNow false, refuse (!x.user && !x.inVolume v slba n), x.noRight v 2, x.badRange v slba n]
    (plainReq (.ledger v slba n))

/-- DRIVE (R187 to R189): a write that is not RAW needs a LEDGER request that covers it; a user never names a drive. -/
def parseDrive (a : Nat) (x : Issuer) : Parsed :=
  let op := x.arg a 0 1
  let flags := x.arg a 1 1
  let fua := flags % 2
  let raw := flags / 2 % 2
  let v := x.arg a 2 2
  let g := x.arg a 4 4
  let goff := x.arg a 8 8
  let slba := x.arg a 16 8
  let n := x.arg a 24 4
  let pg := x.arg a 28 4
  let pgoff := x.arg a 32 8
  let isRaw := raw == 1
  let data := if op < 2 then [(g, goff, n * 4096)] else []
  let parity := if op = 1 ∧ raw = 0 then [(pg, pgoff, x.s.parityBytes v slba n)] else []
  let bad := decide (3 < op) || (isRaw && decide (48 ≤ v)) || x.rangesBad (data ++ parity) ||
    ((data ++ parity).any fun r => r.2.1 % 4096 != 0) || (!isRaw && !x.user && op != 2 && !x.inVolume v slba n)
  let noLedger := (op == 1 || op == 3) && !isRaw && !inRange (x.s.ledgerIssued x.o) v slba n
  firstOf
    [x.noBlock a 40, x.notNow false, refuse (bad || noLedger), x.notHeld ((data ++ parity).map (·.1)),
     (x.user && isRaw, .fault 0x0B05), x.noRight v (if op = 0 then 1 else 2),
     if op = 2 then (false, .fault 0x0B05) else x.badRange v slba n]
    (plainReq (.drive op fua raw v (groupIx g) goff slba n (groupIx pg) pgoff))

/-- TRACK: one entry a command; no entry on an OFFLINE set (R187). -/
def parseTrack (a : Nat) (x : Issuer) : Parsed :=
  let v := x.arg a 0 2
  let kind := x.arg a 2 1
  let slba := x.arg a 8 8
  let n := x.arg a 16 4
  let held := ((x.cmd.bind (·.track)).map (·.asked)).getD false
  let r := if x.s.setOffline (x.s.volSet v) then endsWith .track x.o 0x0011 0 0
    else .req .track fun s _ => s.doTrack x.o v slba n (kind == 1)
  firstOf [x.noBlock a 20, x.notNow true, refuse (decide (1 < kind) || held), x.noRight v (kind + 1)] r

/-- CLEAR. -/
def parseClear (x : Issuer) : Parsed := firstOf [x.notNow true] (plainReq .clear)

/-- The volume and direction a draw must agree with: those of the command, where its opcode has them (R151). -/
def Cmd.drawTerms (c : Cmd) : Option Nat × Option Bool :=
  match opRow c.opcode with
  | some r => if r.right = 0 then (none, none) else (some c.volume, some (r.right == 1))
  | none => (none, none)

/-- DRAW: ends at issue, under R151. -/
def parseDraw (id n : Nat) (x : Issuer) : Parsed :=
  let c := x.cmd.getD {}
  let mine := ((x.s.rsvOf id).map fun r => r.2.sub == c.sub).getD false
  let (vol, dir) := c.drawTerms
  let r : Parsed := match x.s.drawCheck c id n vol dir with
    | none => .req .draw fun s k => (s.drawBytes x.o id n).finishTicket x.o k 0
    | some (st, dt) => .req .draw fun s k =>
      let s := if st = 0x0008 then s.logMiss (c.attr s) {
        rsvid := id, msgid := c.msgid, detail := dt, dispatched := c.dispatched, reltime := s.refTime, sub := c.sub } else s
      s.finishTicket x.o k (resultWord st dt 0)
  firstOf [x.notNow true, (x.user && !mine, .fault 0x0B07)] r

/-- MARK. -/
def parseMark (x : Issuer) : Parsed := firstOf [x.notNow true] (plainReq .mark)

/-- RCHECK: the region checks, without sending (R115). -/
def parseRcheck (a : Nat) (x : Issuer) : Parsed :=
  let key := x.arg a 0 4
  let off := x.arg a 8 8
  let len := x.arg a 16 4
  let c := x.cmd.getD {}
  let (st, v) := (x.s.checkRegion key off len c.conn c.sub).getD (0, 0)
  firstOf [x.noBlock a 20, x.notNow true, refuse (decide (len < 4096) || decide (0xFFFFF000 < len))]
    (endsWith .rcheck x.o st (if st = 0x0006 then 2 else 0) v)

/-- FILLED. -/
def parseFilled (a : Nat) (x : Issuer) : Parsed :=
  let g := x.arg a 4 4
  let goff := x.arg a 8 8
  let len := x.arg a 16 8
  firstOf [x.noBlock a 24, x.notNow true, refuse (x.rangesBad [(g, goff, len)]), x.notHeld [g]]
    (plainReq (.filled (groupIx g) goff len))

/-- The address of an argument block: RA's value. -/
def State.blockAt (s : State) (t ra : Nat) : Nat := ((s.thread t).rg ra).toNat

/-! ### The meanings -/

end Sys2Proof.Machine
end

