-- ==== Sys2Proof/Machine/Mgmt.lean ====
section
/-! DEFINITION. In-band management: what a delivered MGMT request does and what it is answered (R385 to R387). -/

namespace Sys2Proof.Machine

open Sys2Proof.Reg

/-- The right a MGMT subtype needs (R385): bit 0 REG, bit 1 AREA. -/
def mgmtNeeds (code : Nat) : Nat := if code = 3 then 2 else if code = 1 ∨ code = 2 then 1 else 0

/-- The rights of a subscriber: those of the VALID entries of MEP_MGMT_SUB that name it; in recovery both (R385, R397). -/
def State.mgmtRights (s : State) (sub : Nat) : Option Nat :=
  if s.inRecovery then some 3
  else
    let hits := (List.range 8).filter fun i => s.flag MEP_MGMT_SUB_VALID i && s.reg MEP_MGMT_SUB_SUB i == sub
    if hits = [] then none
    else some (hits.foldl (fun a i => a ||| (s.reg MEP_MGMT_SUB_REG i + 2 * s.reg MEP_MGMT_SUB_AREA i)) 0)

/-- The checks of R385 pass for a request on a connection. -/
def State.mgmtAccepts (s : State) (c : Conn) (code : Nat) : Bool :=
  c.state == cOPEN && c.gcm && match s.mgmtRights c.sub with
    | some r => r &&& mgmtNeeds code == mgmtNeeds code
    | none => false

/-- A response (R386): the request's CSN, its status, how many words or bytes were done, and the words read. -/
def State.mgmtRespond (s : State) (ci : Nat) (k : Packet) (status done : Nat) (data : List Byte) : State :=
  let c := s.conn ci
  let body := beBytes 4 (k.offset % 2 ^ 32) ++ beBytes 2 status ++ beBytes 2 done ++ data
  s.sendPkt { typ := .mgmt, ci := some ci, port := c.lport,
              pkt := { conn := c.id, code := (k.code + 0x80) % 256, msgid := 0xFFFF, plen := body.length, payload := body } }

/-- STATUS of a register request that stopped (R387). -/
def mgmtStatus (acc : Nat) : Nat := if acc = accDone then 0 else if acc = accRange then 0x0005 else 0x0006

/-- REG_READ of `n` words from `a` on (R387): how it ended, the words, the state. -/
def State.mgmtReads (s : State) (sub a : Nat) : Nat → Nat × List Nat × State
  | 0 => (accDone, [], s)
  | n + 1 =>
    let (acc, v, s) := s.regRead .mgmt (some sub) 1 a 4
    if acc = accDone then
      let (e, vs, s) := s.mgmtReads sub (a + 4) n
      (e, v :: vs, s)
    else (acc, [], s)

/-- REG_WRITE of words from `a` on (R387): how it ended, the words done, the state. -/
def State.mgmtWrites (s : State) (conn a : Nat) : List Nat → Nat × Nat × State
  | [] => (accDone, 0, s)
  | w :: ws =>
    let (acc, s) := s.regWrite .mgmt (.mgmt conn) a 4 w
    if acc = accDone then
      let (e, n, s) := s.mgmtWrites conn (a + 4) ws
      (e, n + 1, s)
    else (acc, 0, s)

/-- Field of a request's payload. -/
def mgmtField (k : Packet) (o n : Nat) : Nat := beNat ((k.payload.drop o).take n)

/-- COUNT of a register request is in range, its reserved bytes 0, and its payload holds what it names. -/
def mgmtRegLegal (k : Packet) (words : Nat) : Bool :=
  decide (1 ≤ mgmtField k 4 2) && decide (mgmtField k 4 2 ≤ 254) && mgmtField k 6 2 == 0 &&
    k.payload.length == 8 + 4 * words

/-- The words a REG_WRITE carries. -/
def mgmtWords (k : Packet) (n : Nat) : List Nat := (List.range n).map fun i => mgmtField k (8 + 4 * i) 4

/-- An AREA_WRITE's fields are in range. -/
def mgmtAreaLegal (k : Packet) : Bool :=
  mgmtField k 0 8 % 8 == 0 && mgmtField k 8 2 % 8 == 0 && decide (8 ≤ mgmtField k 8 2) && decide (mgmtField k 8 2 ≤ 1008) &&
    mgmtField k 10 6 == 0 && k.payload.length == 16 + mgmtField k 8 2

/-- An AREA_WRITE: wholly inside the host area, or RANGE (R387). -/
def State.mgmtArea (s : State) (ci : Nat) (k : Packet) : State :=
  let a := mgmtField k 0 8
  let n := mgmtField k 8 2
  if hostArea ≤ a ∧ a + n ≤ hostArea + hostAreaSize then
    (s.sbWrite a ((k.payload.drop 16).take n)).mgmtRespond ci k 0 n []
  else s.mgmtRespond ci k 0x0005 0 []

/-- An accepted request acts (R386, R387); one that is not well formed, or of another code, is INVALID_FIELD. -/
def State.mgmtAct (s : State) (ci : Nat) (k : Packet) : State :=
  let c := s.conn ci
  if k.code = 1 ∧ mgmtRegLegal k 0 then
    let (e, vs, s) := s.mgmtReads c.sub (mgmtField k 0 4) (mgmtField k 4 2)
    s.mgmtRespond ci k (mgmtStatus e) vs.length (vs.flatMap (beBytes 4))
  else if k.code = 2 ∧ mgmtRegLegal k (mgmtField k 4 2) then
    let (e, n, s) := s.mgmtWrites c.id (mgmtField k 0 4) (mgmtWords k (mgmtField k 4 2))
    s.mgmtRespond ci k (mgmtStatus e) n []
  else if k.code = 3 ∧ mgmtAreaLegal k then s.mgmtArea ci k
  else s.mgmtRespond ci k 0x0004 0 []

/-- A delivered MGMT request (R385 to R387). -/
def State.mgmtRequest (s : State) (ci : Nat) (k : Packet) : State :=
  if s.mgmtAccepts (s.conn ci) k.code then (s.bump MEP_MGMT_REQS 0 (s.conn ci).attr).mgmtAct ci k
  else ((s.bump MEP_MGMT_REFUSED 0 (s.conn ci).attr).raise MEP_EVENT_MGMT_REFUSED).mgmtRespond ci k 0x0006 0 []

end Sys2Proof.Machine
end

