-- ==== Sys2Proof/Machine/Boundary.lean ====
section
/-! DEFINITION. Line starts, working-cycle starts and epoch boundaries with their nine actions (R28, R31, R36), the
counter snapshot and its mirror (R414, R416, R417). -/

namespace Sys2Proof.Machine

open Sys2Proof.Reg

/-! ### Counters and snapshots (R412, R414, R416, R417) -/

/-- Event `e` without attributes counts for every block's counters (R412: 0x40 epoch boundaries, 0x41 lines). -/
def State.countEverywhere (s : State) (e : Nat) : State := (List.range 22).foldl (fun s b => s.pmcCount b e 1 {}) s

/-- What switches generations at a boundary (R43, R50, R53): a restore that waits, a sealed generation or a rollback, the
generations a standby was sent. -/
def State.switchAll (s : State) : State := s.restoreAtBoundary.generationSwitch.switchCopied

/-- A counter returns to 0 after this snapshot: a clear waits, or the switch changes some counter's words (R414). -/
def State.counterReturns (s : State) : Bool :=
  s.pmc.clearDue ||
    let ks := changedKeys s.regs.cur s.switchAll.regs.cur
    (List.range 176).any fun c => changedIn ks (0x3F01000 + 0x20 * c) (0x3F01018 + 0x20 * c)

/-- Counter `c` as a snapshot gives it: its value, and its EVENT in bits 55:48. -/
def State.counterWord (s : State) (c : Nat) : Nat := s.reg PMC_CTR_VALUE c % 2 ^ 48 + 2 ^ 48 * s.reg PMC_CTR_EVENT c

/-- The counters and PMC_TD of a snapshot, bytes 64 to 1,511. -/
def State.countedBytes (s : State) (keep : Nat → Bool) (td : Bool) : List Byte :=
  ((List.range 176).flatMap fun c => leBytes 8 (if keep c then s.counterWord c else 0)) ++
    (List.range 5).flatMap fun i => leBytes 8 (if td then s.reg PMC_TD_SLOTS i else 0)

/-- The first 64 bytes of a snapshot. -/
def State.snapshotHead (s : State) : List Byte :=
  let flags := Bool.nat (s.reg RTU_STATUS_STATE != rtuLocked) + 2 * Bool.nat s.counterReturns
  padTo 64 (leBytes 4 0x504D4353 ++ leBytes 4 flags ++ leBytes 8 s.epoch ++ leBytes 8 s.refTime ++
    leBytes 4 (s.reg CFG_GEN_CURRENT_GEN) ++ leBytes 4 (s.reg CAB_FILL_CELLS))

/-- A slot of the snapshot ring, 4 KiB (R416). -/
def State.snapshotBytes (s : State) (head : List Byte) : List Byte :=
  let fills := ((List.range 32).flatMap fun p => leBytes 4 (s.reg CAB_PORTFILL_CELLS p)) ++
    ((List.range 256).flatMap fun a => leBytes 4 (s.reg CAB_ACCFILL_CELLS a)) ++
    (List.range 48).flatMap fun d => leBytes 4 (s.reg SLP_CH_I_MA d + 2 ^ 16 * s.reg SLP_CH_VOUT_MV d)
  padTo 4088 (head ++ s.countedBytes (fun _ => true) true ++ fills) ++ leBytes 8 s.epoch

/-- The mirror of a snapshot in a user image's data area, or its skip (R417) (DEDUCED, log entry 48). -/
def State.mirror (s : State) (head : List Byte) : State :=
  if !s.flag PMC_MIRROR_VALID then s
  else
    let k := s.reg PMC_MIRROR_SLOT
    let off := s.reg PMC_MIRROR_OFFSET * 4096
    match SMap.find s.bnc.images k with
    | some im =>
      if 32 ≤ k ∧ s.reg BNC_SLOT_STATE_STATE k = slotLoaded ∧ 4096 + off ≤ im.dataLen then
        let body := head ++ s.countedBytes (fun c => s.flag PMC_CTR_UREAD c) (s.flag PMC_PERM_TD_USER) ++ leBytes 8 s.epoch
        (s.sbWrite (im.dataBase + off) body).bump PMC_MIRRORS
      else (s.bump PMC_SKIPS).raise PMC_EVENT_MIRROR_SKIP
    | none => (s.bump PMC_SKIPS).raise PMC_EVENT_MIRROR_SKIP

/-- PMC_CMD OP 1 acts: every counter and PMC_TD return to 0 (R414). -/
def State.clearDueCounters (s : State) : State :=
  if !s.pmc.clearDue then s
  else
    let s := (List.range 176).foldl (fun s c => s.setReg PMC_CTR_VALUE c 0) s
    let s := (List.range 5).foldl (fun s i => s.setReg PMC_TD_SLOTS i 0) s
    { s with pmc := { s.pmc with clearDue := false } }.raise PMC_EVENT_CLEARED

/-- Action 1 of a boundary: the snapshot, its mirror; a clear that waits acts after it (R36, R414, R416, R417). -/
def State.snapshot (s : State) : State :=
  let head := s.snapshotHead
  let slot := s.epoch % 8192
  let s' := s.sbWrite (snapshotBase + 4096 * slot) (s.snapshotBytes head)
  let s' := ((s'.mirror head).bump PMC_SNAPSHOTS).setReg PMC_RING_HEAD_EPOCH 0 s.epoch
  s'.clearDueCounters

/-! ### Lines and working cycles (R28, R31, R73, R105, R151, R309) -/

/-- What every line start does: the next line begins where the last one ended, and policers gain its length (R28, R219).
The line event of a line that is a boundary counts after the snapshot (R19, R416) (DEDUCED, log entry 32). -/
def State.startLine (s : State) (cycle line : Nat) : State :=
  let t := s.lineEnd
  let s := s.advanceTo t
  let s := ({ s with rtu := { s.rtu with cycle := cycle, line := line } }.beginLine t)
  let s := s.schedulerLine
  if s.atBoundary then s else s.countEverywhere 0x41

/-- A line may start: lines run, and the boundary of the line that ends has run (R28, R36)
(DESIGN CHOICE, log entry 84). -/
def State.mayStartLine (s : State) : Bool := s.linesRun && !s.boundaryOwed

/-- LINE_START within a working cycle (R28) (DESIGN CHOICE, log entry 84). -/
def State.nextLine (s : State) : State :=
  if s.mayStartLine ∧ s.rtu.line < 4095 then (s.startLine s.rtu.cycle (s.rtu.line + 1)).planFlush else s

/-- A reservation at a working cycle's start: its life ends, or its balance is filled up with a capped carry (R151, R153)
(DEDUCED, log entry 47). -/
def Reservation.refill (r : Reservation) (cycle : Nat) : Reservation :=
  if r.ended then r
  else if r.cycles ≠ 0 ∧ r.start + r.cycles ≤ cycle then { r with ended := true }
  else if r.covers cycle then { r with balance := r.bytes + min r.balance (r.bytes / 4) }
  else r

/-- Every reservation at a working cycle's start. -/
def State.refillReservations (s : State) : State :=
  let rsv := s.cmd.rsv.mapVal fun _ r => r.refill s.rtu.cycle
  { s with cmd := { s.cmd with rsv := rsv } }.countRsv

/-- What counts per working cycle begins anew, and commands that met Namespace Not Ready are submitted again (R240, R270,
R307, R309). -/
def State.renewCycle (s : State) : State :=
  let drawer (w : Drawer) : Drawer := { w with ctoCount := 0, pend := w.pend ++ w.nnr, nnr := [] }
  let drawers := s.drv.drawers.mapVal fun _ w => drawer w
  let sets := s.par.sets.mapVal fun _ t => { t with repairs := [] }
  let s := { s with drv := { s.drv with drawers := drawers }, par := { s.par with sets := sets } }
  s.clearMismatches.pumpAll

/-- The active tells its standby the time once a working cycle (R338). -/
def State.tellTime (s : State) : State := if s.runs bHNG ∧ s.isActive ∧ s.hng.copying then s.sendTime else s

/-- WORKING_CYCLE_START (R31): the line count wraps (DESIGN CHOICE, log entry 84). RTU_HOLD_CYCLES counts each working
cycle whose start finds HOLDOVER (R34) (DESIGN CHOICE, log entry 98). -/
def State.nextCycle (s : State) : State :=
  if s.mayStartLine ∧ s.rtu.line = 4095 then
    let s := s.startLine (s.rtu.cycle + 1) 0
    let s := if s.reg RTU_STATUS_STATE = rtuHoldover then s.bump RTU_HOLD_CYCLES else s
    let s := s.refillReservations.renewCycle
    ((s.sendKeepalives.probeRetired).tellTime.settle).planFlush
  else s

/-! ### The epoch boundary (R36) -/

/-- Action 8 (R150, R153): the plan of the new epoch takes the active reservations, none of whose share is used. -/
def State.planReservations (s : State) : State :=
  let rsv := s.cmd.rsv.mapVal fun _ r => { r with inPlan := s.rsvActive r, used := 0 }
  { s with cmd := { s.cmd with rsv := rsv } }

/-- EVENT to the connection of MEP_EVT_CONN while it is OPEN, once an epoch at most (R386, R387)
(DEDUCED, log entry 86). -/
def State.sendEvents (s : State) : State :=
  if s.mep.due = 0 ∨ s.reg MEP_EVT_CONN_CONN = 0 then s
  else
    match s.findConn (s.reg MEP_EVT_CONN_CONN) with
    | none => s
    | some (ci, c) =>
      if c.state ≠ cOPEN then s
      else
        let s' := s.sendPkt {
          typ := .mgmt, ci := some ci, port := c.lport,
          pkt := { conn := c.id, code := 0x90, msgid := 0xFFFF, plen := 8, payload := beBytes 8 s.mep.due } }
        { s' with mep := { s'.mep with due := 0 } }

/-- TOP_RSTCAUSE.PRESERVED clears at the first boundary after replay (R426). -/
def State.endPreserved (s : State) : State :=
  if s.runs bLDG ∧ s.isActive then s.setFlag TOP_RSTCAUSE_PRESERVED 0 false else s

/-- Actions 1 and 2, and what belongs with the seal: the snapshot, the events of this boundary, pairing, the seal, the
dirty map, the batch, ledger drives (R36, R259, R260, R262, R265) (DEDUCED, log entry 86). -/
def State.boundarySeal (s : State) : State :=
  let s := ((s.snapshot).countEverywhere 0x40).countEverywhere 0x41
  let s := s.pairBoundary.sealRecords s.epoch
  (s.ageDirty.appendBatch s.epoch).designateBoth

/-- Actions 3 to 6: the switch, what an ACTIVATE does, releases, shapers, gates (R36, R142, R224, R227, R400)
(DEDUCED, log entry 86). -/
def State.boundarySwitch (s : State) : State :=
  let s := s.switchAll.activateBoundary
  let s := (s.releaseSealed.sendKnown).settleRevoking
  s.refreshShapers.swapGates

/-- Actions 7 to 9: rebuild budgets, the plan, the state copy (R36, R150, R276, R340) (DEDUCED, log entry 86). -/
def State.boundaryCopy (s : State) : State :=
  let s := s.rebuildBoundary.planReservations
  let (swap, s) := s.swapBoundary
  s.sendCopy swap

/-- EPOCH_BOUNDARY (R36): the count rises, then the nine actions in their order (DESIGN CHOICE, log entry 84)
(DEDUCED, log entry 86). -/
def State.epochBoundary (s : State) : State :=
  if !s.boundaryOwed then s
  else
    let s := { s with rtu := { s.rtu with boundaryDone := true } }
    let s := s.setReg RTU_EPOCH_COUNT_COUNT 0 (s.epoch + 1)
    let s := s.boundarySeal.boundarySwitch.boundaryCopy
    let s := (s.countLeases.endPreserved).sendEvents
    (s.pumpAll.settle).planFlush

end Sys2Proof.Machine
end

