-- ==== Sys2Proof/Machine/Gate.lean ====
section
/-! DEFINITION. The gate of every command: what is held in reset, and the boundary that comes before it (R19, R432). -/

namespace Sys2Proof.Machine

/-- A command acts at once: the device is not held in reset and no epoch boundary is owed (R19, R432). -/
def State.takes (s : State) : Bool := !s.held && !s.boundaryOwed

/-- A command's effect `f`: none where `ok` says that its operands name nothing the part has
(DESIGN CHOICE, log entry 90), none while the device is held in reset (R432, DESIGN CHOICE, log entry 16). -/
def commandAtOnce (ok : Bool) (s : State) (f : State → State) : Host.Outcome State Fault Refusal :=
  .next ((if ok && !s.held then f s else s).keepQueue s)

/-- As `commandAtOnce`, behind an epoch boundary that is owed: what happens at the instant of a boundary belongs to the
epoch that begins there, so the boundary's actions come first (R19, R36, R37) (DESIGN CHOICE, log entry 84). -/
def commandIf (ok : Bool) (s : State) (f : State → State) : Host.Outcome State Fault Refusal :=
  commandAtOnce ok s fun s => f s.epochBoundary

/-- As `commandAtOnce`, for the resets and their ends, which act while the device is held
(DESIGN CHOICE, log entry 16). -/
def commandAlwaysIf (ok : Bool) (s : State) (f : State → State) : Host.Outcome State Fault Refusal :=
  .next ((if ok then f s else s).keepQueue s)

/-- `commandIf` for a command `i`: its operands are checked by WellFormed. -/
def command (i : Instr) (s : State) (f : State → State) : Host.Outcome State Fault Refusal := commandIf i.wellFormed s f

end Sys2Proof.Machine
end

