-- ==== Sys2Proof/Machine/RowsBench.lean ====
section
/-! DEFINITION. The rows of the Benches: handlers, images and Beykor instructions: one meaning per row, each over the shared operations of its family. -/

namespace Sys2Proof.Machine

open Sys2Proof.Reg

/-! ### Handlers -/

/-- COMMAND_DISPATCH (R160). -/
def execCommandDispatch (frame thread : Nat) (s : State) : Host.Outcome State Fault Refusal :=
  command (.commandDispatch frame thread) s fun s => (s.startCommand frame thread).settle

/-- COMMAND_RESUME (R159). -/
def execCommandResume (frame thread : Nat) (cached : Bool) (s : State) : Host.Outcome State Fault Refusal :=
  command (.commandResume frame thread cached) s fun s => (s.resumeCommand frame thread cached).settle

/-- REQUEST_COMPLETE (R187). -/
def execRequestComplete (owner ticket : Nat) (s : State) : Host.Outcome State Fault Refusal :=
  command (.requestComplete owner ticket) s fun s => (s.completeRequest owner ticket).settle

/-- GRANT_TIMEOUT (R134). -/
def execGrantTimeout (grant : Nat) (s : State) : Host.Outcome State Fault Refusal :=
  command (.grantTimeout grant) s fun s => (s.grantExpires grant).settle

/-- USER_WALL_TIMEOUT (R166). -/
def execUserWallTimeout (frame : Nat) (s : State) : Host.Outcome State Fault Refusal :=
  command (.userWallTimeout frame) s fun s => (s.wallExpires frame).settle

/-! ### Images -/

/-- IMAGE_LOAD (R172). -/
def execImageLoad (p : Path) (slot : Nat) (s : State) : Host.Outcome State Fault Refusal :=
  command (.imageLoad p slot) s fun s => s.viaWrite p BNC_LOAD_CMD_OP.addr fun s => s.loadCmd p slot (·.loadStart slot)

/-- IMAGE_LOAD_DONE (R172). -/
def execImageLoadDone (s : State) : Host.Outcome State Fault Refusal := command .imageLoadDone s State.loadDone

/-- IMAGE_UNLOAD (R164). -/
def execImageUnload (p : Path) (slot : Nat) (s : State) : Host.Outcome State Fault Refusal :=
  command (.imageUnload p slot) s fun s => s.viaWrite p BNC_LOAD_CMD_OP.addr fun s => s.loadCmd p slot (·.unload slot)

/-! ### BeykorAlu -/

/-- ADD (R177). -/
def execAdd (t rd ra rb : Nat) (s : State) : Host.Outcome State Fault Refusal :=
  command (.add t rd ra rb) s (·.runAlu .add t rd ra rb)

/-- SUB (R177). -/
def execSub (t rd ra rb : Nat) (s : State) : Host.Outcome State Fault Refusal :=
  command (.sub t rd ra rb) s (·.runAlu .sub t rd ra rb)

/-- AND (R177). -/
def execAnd (t rd ra rb : Nat) (s : State) : Host.Outcome State Fault Refusal :=
  command (.and t rd ra rb) s (·.runAlu .and t rd ra rb)

/-- OR (R177). -/
def execOr (t rd ra rb : Nat) (s : State) : Host.Outcome State Fault Refusal :=
  command (.or t rd ra rb) s (·.runAlu .or t rd ra rb)

/-- XOR (R177). -/
def execXor (t rd ra rb : Nat) (s : State) : Host.Outcome State Fault Refusal :=
  command (.xor t rd ra rb) s (·.runAlu .xor t rd ra rb)

/-- ANDN (R177). -/
def execAndn (t rd ra rb : Nat) (s : State) : Host.Outcome State Fault Refusal :=
  command (.andn t rd ra rb) s (·.runAlu .andn t rd ra rb)

/-- SHL (R177). -/
def execShl (t rd ra rb : Nat) (s : State) : Host.Outcome State Fault Refusal :=
  command (.shl t rd ra rb) s (·.runAlu .shl t rd ra rb)

/-- SHR (R177). -/
def execShr (t rd ra rb : Nat) (s : State) : Host.Outcome State Fault Refusal :=
  command (.shr t rd ra rb) s (·.runAlu .shr t rd ra rb)

/-- SAR (R177). -/
def execSar (t rd ra rb : Nat) (s : State) : Host.Outcome State Fault Refusal :=
  command (.sar t rd ra rb) s (·.runAlu .sar t rd ra rb)

/-- MUL (R177). -/
def execMul (t rd ra rb : Nat) (s : State) : Host.Outcome State Fault Refusal :=
  command (.mul t rd ra rb) s (·.runAlu .mul t rd ra rb)

/-- MULHU (R177). -/
def execMulhu (t rd ra rb : Nat) (s : State) : Host.Outcome State Fault Refusal :=
  command (.mulhu t rd ra rb) s (·.runAlu .mulhu t rd ra rb)

/-- SEQ (R177). -/
def execSeq (t rd ra rb : Nat) (s : State) : Host.Outcome State Fault Refusal :=
  command (.seq t rd ra rb) s (·.runAlu .seq t rd ra rb)

/-- SNE (R177). -/
def execSne (t rd ra rb : Nat) (s : State) : Host.Outcome State Fault Refusal :=
  command (.sne t rd ra rb) s (·.runAlu .sne t rd ra rb)

/-- SLT (R177). -/
def execSlt (t rd ra rb : Nat) (s : State) : Host.Outcome State Fault Refusal :=
  command (.slt t rd ra rb) s (·.runAlu .slt t rd ra rb)

/-- SLTU (R177). -/
def execSltu (t rd ra rb : Nat) (s : State) : Host.Outcome State Fault Refusal :=
  command (.sltu t rd ra rb) s (·.runAlu .sltu t rd ra rb)

/-- SEL (R177). -/
def execSel (t rd ra rb : Nat) (s : State) : Host.Outcome State Fault Refusal :=
  command (.sel t rd ra rb) s (·.runAlu .sel t rd ra rb)

/-- CLZ (R177). -/
def execClz (t rd ra : Nat) (s : State) : Host.Outcome State Fault Refusal :=
  command (.clz t rd ra) s (·.runAlu .clz t rd ra 0)

/-- POPC (R177). -/
def execPopc (t rd ra : Nat) (s : State) : Host.Outcome State Fault Refusal :=
  command (.popc t rd ra) s (·.runAlu .popc t rd ra 0)

/-- ADDI (R178). -/
def execAddi (t rd ra : Nat) (imm : BitVec 16) (s : State) : Host.Outcome State Fault Refusal :=
  command (.addi t rd ra imm) s (·.runImm .addi t rd ra imm)

/-- ANDI (R178). -/
def execAndi (t rd ra : Nat) (imm : BitVec 16) (s : State) : Host.Outcome State Fault Refusal :=
  command (.andi t rd ra imm) s (·.runImm .andi t rd ra imm)

/-- ORI (R178). -/
def execOri (t rd ra : Nat) (imm : BitVec 16) (s : State) : Host.Outcome State Fault Refusal :=
  command (.ori t rd ra imm) s (·.runImm .ori t rd ra imm)

/-- XORI (R178). -/
def execXori (t rd ra : Nat) (imm : BitVec 16) (s : State) : Host.Outcome State Fault Refusal :=
  command (.xori t rd ra imm) s (·.runImm .xori t rd ra imm)

/-- SHLI (R178). -/
def execShli (t rd ra : Nat) (imm : BitVec 16) (s : State) : Host.Outcome State Fault Refusal :=
  command (.shli t rd ra imm) s (·.runImm .shli t rd ra imm)

/-- SHRI (R178). -/
def execShri (t rd ra : Nat) (imm : BitVec 16) (s : State) : Host.Outcome State Fault Refusal :=
  command (.shri t rd ra imm) s (·.runImm .shri t rd ra imm)

/-- SARI (R178). -/
def execSari (t rd ra : Nat) (imm : BitVec 16) (s : State) : Host.Outcome State Fault Refusal :=
  command (.sari t rd ra imm) s (·.runImm .sari t rd ra imm)

/-- SEQI (R178). -/
def execSeqi (t rd ra : Nat) (imm : BitVec 16) (s : State) : Host.Outcome State Fault Refusal :=
  command (.seqi t rd ra imm) s (·.runImm .seqi t rd ra imm)

/-- SLTI (R178). -/
def execSlti (t rd ra : Nat) (imm : BitVec 16) (s : State) : Host.Outcome State Fault Refusal :=
  command (.slti t rd ra imm) s (·.runImm .slti t rd ra imm)

/-- SLTIU (R178). -/
def execSltiu (t rd ra : Nat) (imm : BitVec 16) (s : State) : Host.Outcome State Fault Refusal :=
  command (.sltiu t rd ra imm) s (·.runImm .sltiu t rd ra imm)

/-- SETH (R178). -/
def execSeth (t p rd ra : Nat) (imm : BitVec 16) (s : State) : Host.Outcome State Fault Refusal :=
  command (.seth t p rd ra imm) s (·.runImm (sethOp p) t rd ra imm)

/-! ### BeykorFlow -/

/-- LOAD (R180, R181). -/
def execLoad (t rt ra sp w : Nat) (off : BitVec 12) (s : State) : Host.Outcome State Fault Refusal :=
  command (.load t rt ra sp w off) s (·.runLoad t rt ra sp w off)

/-- LOADS (R180, R181). -/
def execLoads (t rt ra sp w : Nat) (off : BitVec 12) (s : State) : Host.Outcome State Fault Refusal :=
  command (.loads t rt ra sp w off) s (·.runLoads t rt ra sp w off)

/-- STORE (R180, R181). -/
def execStore (t rt ra sp w : Nat) (off : BitVec 12) (s : State) : Host.Outcome State Fault Refusal :=
  command (.store t rt ra sp w off) s (·.runStore t rt ra sp w off)

/-- AADD (R182). -/
def execAadd (t rt ra : Nat) (off : BitVec 12) (s : State) : Host.Outcome State Fault Refusal :=
  command (.aadd t rt ra off) s (·.runAadd t rt ra off)

/-- BZ (R179). -/
def execBz (t ra : Nat) (disp : BitVec 20) (s : State) : Host.Outcome State Fault Refusal :=
  command (.bz t ra disp) s (·.runBranch .bz t ra disp (· == 0))

/-- BNZ (R179). -/
def execBnz (t ra : Nat) (disp : BitVec 20) (s : State) : Host.Outcome State Fault Refusal :=
  command (.bnz t ra disp) s (·.runBranch .bnz t ra disp (· != 0))

/-- JAL (R179). -/
def execJal (t ra : Nat) (disp : BitVec 20) (s : State) : Host.Outcome State Fault Refusal :=
  command (.jal t ra disp) s (·.runJal t ra disp)

/-- JALR (R179). -/
def execJalr (t rd ra : Nat) (s : State) : Host.Outcome State Fault Refusal :=
  command (.jalr t rd ra) s (·.runJalr t rd ra)

/-- WAIT (R159, R183). -/
def execWait (t rd ra : Nat) (s : State) : Host.Outcome State Fault Refusal :=
  command (.wait t rd ra) s (·.runWait t rd ra)

/-- PARK (R159, R183). -/
def execPark (t ra : Nat) (s : State) : Host.Outcome State Fault Refusal :=
  command (.park t ra) s fun s => (s.runPark t ra).settle

/-- DROP (R183, R184). -/
def execDrop (t ra : Nat) (s : State) : Host.Outcome State Fault Refusal :=
  command (.drop t ra) s (·.runDrop t ra)

/-- END (R183). -/
def execEndThread (t : Nat) (s : State) : Host.Outcome State Fault Refusal :=
  command (.endThread t) s (·.runEnd t)

/-- RDTIME (R183). -/
def execRdtime (t rd : Nat) (s : State) : Host.Outcome State Fault Refusal :=
  command (.rdtime t rd) s (·.runRdtime t rd)

/-- RDC (R161, R183). -/
def execRdc (t rd n : Nat) (s : State) : Host.Outcome State Fault Refusal :=
  command (.rdc t rd n) s (·.runRdc t rd n)

/-- MFENCE (R182). -/
def execMfence (t : Nat) (s : State) : Host.Outcome State Fault Refusal :=
  command (.mfence t) s (·.runMfence t)

/-- ERET (R192). -/
def execEret (t : Nat) (s : State) : Host.Outcome State Fault Refusal :=
  command (.eret t) s (·.runEret t)

/-- WFI (R192). -/
def execWfi (t : Nat) (s : State) : Host.Outcome State Fault Refusal :=
  command (.wfi t) s (·.runWfi t)

/-- CSRR (R192). -/
def execCsrr (t rd imm : Nat) (s : State) : Host.Outcome State Fault Refusal :=
  command (.csrr t rd imm) s (·.runCsrr t rd imm)

/-- CSRW (R192). -/
def execCsrw (t ra imm : Nat) (s : State) : Host.Outcome State Fault Refusal :=
  command (.csrw t ra imm) s (·.runCsrw t ra imm)

/-- BUREAU_INTERRUPT (R192). -/
def execBureauInterrupt (t : Nat) (s : State) : Host.Outcome State Fault Refusal :=
  command (.bureauInterrupt t) s (·.interrupt t)

/-- BUREAU_TIMER (R192). -/
def execBureauTimer (t : Nat) (s : State) : Host.Outcome State Fault Refusal :=
  command (.bureauTimer t) s (·.timerPending t)

/-! ### BeykorReq -/

/-- XREQ_CELLS (R187, R195). -/
def execXreqCells (t rd ra rb : Nat) (s : State) : Host.Outcome State Fault Refusal :=
  command (.xreqCells t rd ra rb) s fun s => s.runXreq t rd ra rb 1 (parseCells (s.blockAt t ra))

/-- XREQ_RELEASE (R187). -/
def execXreqRelease (t rd ra rb : Nat) (s : State) : Host.Outcome State Fault Refusal :=
  command (.xreqRelease t rd ra rb) s fun s => s.runXreq t rd ra rb 2 (parseRelease (s.blockAt t ra))

/-- XREQ_EMIT_XRDY (R188, R203). -/
def execXreqEmitXrdy (t rd ra rb : Nat) (s : State) : Host.Outcome State Fault Refusal :=
  command (.xreqEmitXrdy t rd ra rb) s fun s => s.runXreq t rd ra rb 3 (parseEmit (s.blockAt t ra))

/-- XREQ_EMIT_DATA (R115, R188). -/
def execXreqEmitData (t rd ra rb : Nat) (s : State) : Host.Outcome State Fault Refusal :=
  command (.xreqEmitData t rd ra rb) s fun s => s.runXreq t rd ra rb 3 (parseEmit (s.blockAt t ra))

/-- XREQ_EMIT_CMPL (R168, R188). -/
def execXreqEmitCmpl (t rd ra rb : Nat) (s : State) : Host.Outcome State Fault Refusal :=
  command (.xreqEmitCmpl t rd ra rb) s fun s => s.runXreq t rd ra rb 3 (parseEmit (s.blockAt t ra))

/-- XREQ_EMIT_CTRL (R188). -/
def execXreqEmitCtrl (t rd ra rb : Nat) (s : State) : Host.Outcome State Fault Refusal :=
  command (.xreqEmitCtrl t rd ra rb) s fun s => s.runXreq t rd ra rb 3 (parseEmit (s.blockAt t ra))

/-- XREQ_EMIT_MGMT (R188). -/
def execXreqEmitMgmt (t rd ra rb : Nat) (s : State) : Host.Outcome State Fault Refusal :=
  command (.xreqEmitMgmt t rd ra rb) s fun s => s.runXreq t rd ra rb 3 (parseEmit (s.blockAt t ra))

/-- XREQ_CIPHER_ENCRYPT (R188, R239). -/
def execXreqCipherEncrypt (t rd ra rb : Nat) (s : State) : Host.Outcome State Fault Refusal :=
  command (.xreqCipherEncrypt t rd ra rb) s fun s => s.runXreq t rd ra rb 4 (parseCipher (s.blockAt t ra))

/-- XREQ_CIPHER_DECRYPT (R188, R239). -/
def execXreqCipherDecrypt (t rd ra rb : Nat) (s : State) : Host.Outcome State Fault Refusal :=
  command (.xreqCipherDecrypt t rd ra rb) s fun s => s.runXreq t rd ra rb 4 (parseCipher (s.blockAt t ra))

/-- XREQ_PARITY_GEN (R188). -/
def execXreqParityGen (t rd ra rb : Nat) (s : State) : Host.Outcome State Fault Refusal :=
  command (.xreqParityGen t rd ra rb) s fun s => s.runXreq t rd ra rb 5 (parseParity (s.blockAt t ra))

/-- XREQ_PARITY_UPDATE (R188). -/
def execXreqParityUpdate (t rd ra rb : Nat) (s : State) : Host.Outcome State Fault Refusal :=
  command (.xreqParityUpdate t rd ra rb) s fun s => s.runXreq t rd ra rb 5 (parseParity (s.blockAt t ra))

/-- XREQ_PARITY_RECON (R188, R253). -/
def execXreqParityRecon (t rd ra rb : Nat) (s : State) : Host.Outcome State Fault Refusal :=
  command (.xreqParityRecon t rd ra rb) s fun s => s.runXreq t rd ra rb 5 (parseParity (s.blockAt t ra))

/-- XREQ_PARITY_COMPARE (R188). -/
def execXreqParityCompare (t rd ra rb : Nat) (s : State) : Host.Outcome State Fault Refusal :=
  command (.xreqParityCompare t rd ra rb) s fun s => s.runXreq t rd ra rb 5 (parseParity (s.blockAt t ra))

/-- XREQ_LEDGER (R189, R258). -/
def execXreqLedger (t rd ra rb : Nat) (s : State) : Host.Outcome State Fault Refusal :=
  command (.xreqLedger t rd ra rb) s fun s => s.runXreq t rd ra rb 6 (parseLedger (s.blockAt t ra))

/-- XREQ_DRIVE_READ (R187, R188). -/
def execXreqDriveRead (t rd ra rb : Nat) (s : State) : Host.Outcome State Fault Refusal :=
  command (.xreqDriveRead t rd ra rb) s fun s => s.runXreq t rd ra rb 7 (parseDrive (s.blockAt t ra))

/-- XREQ_DRIVE_WRITE (R188, R189). -/
def execXreqDriveWrite (t rd ra rb : Nat) (s : State) : Host.Outcome State Fault Refusal :=
  command (.xreqDriveWrite t rd ra rb) s fun s => s.runXreq t rd ra rb 7 (parseDrive (s.blockAt t ra))

/-- XREQ_DRIVE_FLUSH (R187, R188). -/
def execXreqDriveFlush (t rd ra rb : Nat) (s : State) : Host.Outcome State Fault Refusal :=
  command (.xreqDriveFlush t rd ra rb) s fun s => s.runXreq t rd ra rb 7 (parseDrive (s.blockAt t ra))

/-- XREQ_DRIVE_DEALLOCATE (R187, R188). -/
def execXreqDriveDeallocate (t rd ra rb : Nat) (s : State) : Host.Outcome State Fault Refusal :=
  command (.xreqDriveDeallocate t rd ra rb) s fun s => s.runXreq t rd ra rb 7 (parseDrive (s.blockAt t ra))

/-- XREQ_TRACK (R187). -/
def execXreqTrack (t rd ra rb : Nat) (s : State) : Host.Outcome State Fault Refusal :=
  command (.xreqTrack t rd ra rb) s fun s => s.runXreq t rd ra rb 8 (parseTrack (s.blockAt t ra))

/-- XREQ_CLEAR (R187). -/
def execXreqClear (t rd ra rb : Nat) (s : State) : Host.Outcome State Fault Refusal :=
  command (.xreqClear t rd ra rb) s fun s => s.runXreq t rd ra rb 9 parseClear

/-- XREQ_DRAW (R151, R187). -/
def execXreqDraw (t rd ra rb : Nat) (s : State) : Host.Outcome State Fault Refusal :=
  command (.xreqDraw t rd ra rb) s fun s => s.runXreq t rd ra rb 10 (parseDraw (s.blockAt t ra) (s.blockAt t rb))

/-- XREQ_MARK (R169, R187). -/
def execXreqMark (t rd ra rb : Nat) (s : State) : Host.Outcome State Fault Refusal :=
  command (.xreqMark t rd ra rb) s fun s => s.runXreq t rd ra rb 11 parseMark

/-- XREQ_RCHECK (R115, R187). -/
def execXreqRcheck (t rd ra rb : Nat) (s : State) : Host.Outcome State Fault Refusal :=
  command (.xreqRcheck t rd ra rb) s fun s => s.runXreq t rd ra rb 12 (parseRcheck (s.blockAt t ra))

/-- XREQ_FILLED (R134, R187). -/
def execXreqFilled (t rd ra rb : Nat) (s : State) : Host.Outcome State Fault Refusal :=
  command (.xreqFilled t rd ra rb) s fun s => s.runXreq t rd ra rb 13 (parseFilled (s.blockAt t ra))

end Sys2Proof.Machine
end

