-- ==== Sys2Proof/Machine/SideboardErr.lean ====
section
/-! DEFINITION. Uncorrectable Sideboard errors and each requester's action (R318). -/

namespace Sys2Proof.Machine

open Sys2Proof.Reg

/-- LDG, reading a record: the first copy's error makes it read the twin; the twin's makes the record's row a resync
(R264, R315) (DEDUCED, log entry 88). -/
def State.ueLedger (s : State) (addr : Nat) : State :=
  if addr % 512 < 256 then s
  else
    match SMap.find s.ldg.recs ((addr - ledgerBase) / 512) with
    | some r =>
      let y : Resync := { set := r.set, row := r.row, boff := 0, count := s.setSb r.set, ofOpen := true }
      { s with par := { s.par with resync := s.par.resync ++ [y] } }
    | none => s

/-- CTX: the connection of a context is torn down, the region of an entry becomes REVOKING
(DEDUCED, log entry 88). -/
def State.ueContext (s : State) (addr : Nat) : State :=
  if contextBase ≤ addr ∧ addr < contextBase + 0x4000000 then s.teardown (addr / 256 % 2 ^ 18) (some 4)
  else if regionBase ≤ addr ∧ addr < regionBase + 0x1000000 then s.revokeRegion (addr / 64 % 2 ^ 18)
  else s

/-- SPL: every command that holds the group of the extent being returned ends with INTERNAL_FAULT, DETAIL 0x0D01
(DEDUCED, log entry 88). -/
def State.ueSpill (s : State) (addr : Nat) : State :=
  let place := (addr - s.reg CAB_SPILL_BASE_ADDR) / 65536
  let hit := s.cab.groups.filter fun e => e.2.spilled.any fun x => x.place == place
  hit.foldl (fun s e =>
    match e.2.owner with
    | some f => s.failData f 0x0020 0x0D01 0
    | none => s) s

/-- STG: the piece of the set is discarded and issued again (DEDUCED, log entry 88). -/
def State.ueStaging (s : State) (k : Nat) : State :=
  match (s.setSt k).piece with
  | some _ => (s.pieceOver k).issuePiece k
  | none => s

/-- EVR: the record of a SEQ is lost from the overflow area, and a LOSS record with cause 3 says so (R407, R418)
(DEDUCED, log entry 88). -/
def State.ueOverflow (s : State) (seq : Nat) : State :=
  if s.evr.overflow.any fun r => r.seq == seq then
    let s := { s with evr := { s.evr with overflow := s.evr.overflow.filter fun r => r.seq != seq } }
    let s := (s.bump EVR_LOST).raise EVR_EVENT_LOST
    s.record 0x02 2 bEVR (leBytes 4 seq ++ leBytes 4 1 ++ [3])
  else s

/-- PMC: the snapshot is lost; the LOSS record's first SEQ and count, which no lost record gives, are open (R418)
(DEDUCED, log entry 88). -/
def State.ueSnapshot (s : State) : State :=
  let (v, s) := s.freeBits 64
  (s.raise PMC_EVENT_SNAP_LOST).record 0x02 2 bEVR (leBytes 8 v ++ [4])

/-- The requester's row of R318; `owner` is the thread of a Bench, the frame of a resume, the set of a piece, the SEQ of a
record. HNG has no row (DEDUCED, log entry 88). -/
def State.ueAction (s : State) (req addr owner : Nat) : State :=
  if req = reqBNC then (if owner < 512 ∧ (s.thread owner).frame.isSome then s.benchFault owner 0x0D01 0 else s)
  else if req = reqFRM then s.faultCommand owner 0x0D01 (((s.frame owner).map (·.resumePc)).getD 0) 0
  else if req = reqLDG then s.ueLedger addr
  else if req = reqCTX then s.ueContext addr
  else if req = reqSPL then s.ueSpill addr
  else if req = reqSTG then s.ueStaging owner
  else if req = reqMEP then { s with out := { s.out with bar2 := none } }
  else if req = reqEVR then s.ueOverflow owner
  else if req = reqPMC then s.ueSnapshot
  else s

/-- An uncorrectable error: counted, addressed, raised, recorded, then the requester acts (R318). -/
def State.sideboardError (s : State) (req addr owner : Nat) : State :=
  let s := ((s.bump SBD_UE 0 (burstAttr req)).setReg SBD_UE_ADDR_ADDR 0 addr).setReg SBD_UE_ADDR_REQ 0 req
  let s := (s.raise SBD_EVENT_UE).record 0x70 2 bSBD (leBytes 8 addr ++ [b8 req])
  (s.ueAction req addr owner).settle

end Sys2Proof.Machine
end

