-- ==== Sys2Proof/Machine/RowsDrive.lean ====
section
/-! DEFINITION. The rows of the drives, the Sideboard, parity and slot power: one meaning per row, each over the shared operations of its family. -/

namespace Sys2Proof.Machine

open Sys2Proof.Reg

/-! ### Drawers -/

/-- IO_TIMEOUT (R307). -/
def execIoTimeout (d sq cid : Nat) (s : State) : Host.Outcome State Fault Refusal :=
  command (.ioTimeout d sq cid) s fun s => (s.timeOut d sq cid).settle

/-- CONTEXT_QUARANTINE_END (R308). -/
def execContextQuarantineEnd (d sq cid : Nat) (s : State) : Host.Outcome State Fault Refusal :=
  command (.contextQuarantineEnd d sq cid) s fun s => (s.quarantineEnd d sq cid).settle

/-- ADMIN_TIMEOUT (R307). -/
def execAdminTimeout (d : Nat) (s : State) : Host.Outcome State Fault Refusal :=
  command (.adminTimeout d) s fun s => (s.adminTimeout d).settle

/-- PCIE_COMPLETION_TIMEOUT (R307). -/
def execPcieCompletionTimeout (d : Nat) (s : State) : Host.Outcome State Fault Refusal :=
  command (.pcieCompletionTimeout d) s fun s => (s.pcieTimeout d).settle

/-- PRSNT_ASSERT (R300). -/
def execPrsntAssert (d : Nat) (s : State) : Host.Outcome State Fault Refusal :=
  commandIf (decide (d < 48)) s (·.presenceSeen d)

/-- PRESENCE_DEBOUNCE_END (R300). -/
def execPresenceDebounceEnd (d : Nat) (s : State) : Host.Outcome State Fault Refusal :=
  command (.presenceDebounceEnd d) s (·.debounced d)

/-- PRESENCE_LOST (R300). -/
def execPresenceLost (d : Nat) (s : State) : Host.Outcome State Fault Refusal :=
  command (.presenceLost d) s fun s => (s.presenceGone d).settle

/-- PERST_DELAY_END (R300). -/
def execPerstDelayEnd (d : Nat) (s : State) : Host.Outcome State Fault Refusal :=
  command (.perstDelayEnd d) s (·.perstDelayEnd d)

/-- DL_ACTIVE (R300). -/
def execDlActive (d width speed : Nat) (flit : Bool) (s : State) : Host.Outcome State Fault Refusal :=
  command (.dlActive d width speed flit) s (·.linkActive d width speed flit)

/-- INIT_DELAY_END (R300). -/
def execInitDelayEnd (d : Nat) (s : State) : Host.Outcome State Fault Refusal :=
  command (.initDelayEnd d) s (·.initStart d)

/-- TRAINING_TIMEOUT (R300). -/
def execTrainingTimeout (d : Nat) (s : State) : Host.Outcome State Fault Refusal :=
  command (.trainingTimeout d) s (·.trainTimeout d)

/-- DRIVE_REGISTER_ACCESS_DONE (R297). -/
def execDriveRegisterAccessDone (d : Nat) (v : DriveFacts) (s : State) : Host.Outcome State Fault Refusal :=
  command (.driveRegisterAccessDone d v) s fun s => (s.admitDrive d v).settle

/-- CSTS_RDY_TIMEOUT (R297). -/
def execCstsRdyTimeout (d : Nat) (s : State) : Host.Outcome State Fault Refusal :=
  commandIf (decide (d < 48)) s fun s => (s.readyTimeout d).settle

/-- DRIVE_LINK_DOWN (R300). -/
def execDriveLinkDown (d : Nat) (cfs : Bool) (s : State) : Host.Outcome State Fault Refusal :=
  command (.driveLinkDown d cfs) s fun s => (s.linkDown d cfs).settle

/-- DRAWER_RESET_DONE (R310). -/
def execDrawerResetDone (d : Nat) (ok : Bool) (s : State) : Host.Outcome State Fault Refusal :=
  command (.drawerResetDone d ok) s fun s => (s.resetDone d ok).settle

/-- PERST_ASSERT_END (R300). -/
def execPerstAssertEnd (d : Nat) (s : State) : Host.Outcome State Fault Refusal :=
  commandIf (decide (d < 48)) s (·.perstAsserted d)

/-- DRAWER_POWER_ON (R300). -/
def execDrawerPowerOn (p : Path) (d : Nat) (s : State) : Host.Outcome State Fault Refusal :=
  command (.drawerPowerOn p d) s fun s => s.viaWrite p (drvCmdAddr d) (·.drvPowerOn d)

/-- DRAWER_POWER_OFF (R301). -/
def execDrawerPowerOff (p : Path) (d : Nat) (s : State) : Host.Outcome State Fault Refusal :=
  command (.drawerPowerOff p d) s fun s => s.viaWrite p (drvCmdAddr d) fun s => (s.drvPowerOff d).settle

/-- DRAWER_CONTROLLER_RESET (R300). -/
def execDrawerControllerReset (p : Path) (d : Nat) (s : State) : Host.Outcome State Fault Refusal :=
  command (.drawerControllerReset p d) s fun s => s.viaWrite p (drvCmdAddr d) fun s => (s.drvReset d).settle

/-- DRAWER_READMIT (R300). -/
def execDrawerReadmit (p : Path) (d : Nat) (s : State) : Host.Outcome State Fault Refusal :=
  command (.drawerReadmit p d) s fun s => s.viaWrite p (drvCmdAddr d) (·.drvReadmit d)

/-- DRV_START (R313). -/
def execDrvStart (p : Path) (s : State) : Host.Outcome State Fault Refusal :=
  command (.drvStart p) s fun s => s.viaWrite p DRV_GCMD_START.addr (·.drvDoStart p)

/-- DRV_STOP (R313). -/
def execDrvStop (p : Path) (s : State) : Host.Outcome State Fault Refusal :=
  command (.drvStop p) s fun s => s.viaWrite p DRV_GCMD_STOP.addr State.drvDoStop

/-- ASYNC_EVENT (R309). -/
def execAsyncEvent (d warning : Nat) (s : State) : Host.Outcome State Fault Refusal :=
  command (.asyncEvent d warning) s fun s => (s.driveWarning d warning).settle

/-- DRIVE_AER_MESSAGE (R295): the error is logged in the event recorder. -/
def execDriveAerMessage (d unc cor : Nat) (hdr : List Byte) (s : State) : Host.Outcome State Fault Refusal :=
  command (.driveAerMessage d unc cor hdr) s fun s => s.record 0x51 2 bDRV (aerBody d unc cor hdr)

/-- CQ_HEAD_DOORBELL_DELAY (R304). -/
def execCqHeadDoorbellDelay (d sq : Nat) (s : State) : Host.Outcome State Fault Refusal :=
  commandIf (decide (d < 48) && decide (sq < 16)) s (·.cqDoorbell d sq)

/-! ### DriveDone -/

/-- NVME_COMPLETION (R304). -/
def execNvmeCompletion (d sq cid : Nat) (status : NvmeStatus) (s : State) : Host.Outcome State Fault Refusal :=
  command (.nvmeCompletion d sq cid status) s fun s => ((s.nvmeCompletion d sq cid status).pumpAll).settle

/-! ### Rebuild -/

/-- RB_TARGET (R272). -/
def execRbTarget (p : Path) (set pos drawer : Nat) (s : State) : Host.Outcome State Fault Refusal :=
  command (.rbTarget p set pos drawer) s fun s => s.viaWrite p PAR_RB_CMD_OP.addr (·.rbTarget set pos drawer)

/-- RB_RESHAPE (R285). -/
def execRbReshape (p : Path) (set newn : Nat) (s : State) : Host.Outcome State Fault Refusal :=
  command (.rbReshape p set newn) s fun s => s.viaWrite p PAR_RB_CMD_OP.addr (·.rbReshape set newn)

/-- RB_REVIVE (R284). -/
def execRbRevive (p : Path) (set drawer : Nat) (s : State) : Host.Outcome State Fault Refusal :=
  command (.rbRevive p set drawer) s fun s => s.viaWrite p PAR_RB_CMD_OP.addr (·.rbRevive set drawer)

/-- RB_PAUSE (R294). -/
def execRbPause (p : Path) (set : Nat) (s : State) : Host.Outcome State Fault Refusal :=
  command (.rbPause p set) s fun s => s.viaWrite p PAR_RB_CMD_OP.addr (·.rbPause set)

/-- RB_RESUME (R294). -/
def execRbResume (p : Path) (set : Nat) (s : State) : Host.Outcome State Fault Refusal :=
  command (.rbResume p set) s fun s => s.viaWrite p PAR_RB_CMD_OP.addr (·.rbResume set)

/-- PAR_START (R268). -/
def execParStart (p : Path) (s : State) : Host.Outcome State Fault Refusal :=
  command (.parStart p) s fun s => s.viaWrite p PAR_CMD_START.addr (·.parDoStart p)

/-- PAR_STOP (R268). -/
def execParStop (p : Path) (s : State) : Host.Outcome State Fault Refusal :=
  command (.parStop p) s fun s => s.viaWrite p PAR_CMD_STOP.addr State.parDoStop

/-! ### LedgerRows -/

/-- LDG_START (R53). -/
def execLdgStart (p : Path) (s : State) : Host.Outcome State Fault Refusal :=
  command (.ldgStart p) s fun s => s.viaWrite p LDG_CMD_START.addr (·.ldgDoStart p)

/-- LDG_STOP (R269). -/
def execLdgStop (p : Path) (s : State) : Host.Outcome State Fault Refusal :=
  command (.ldgStop p) s fun s => s.viaWrite p LDG_CMD_STOP.addr State.ldgDoStop

/-- GENERATION_RESTORE_DONE (R53). -/
def execGenerationRestoreDone (slots : RestoreRead) (s : State) : Host.Outcome State Fault Refusal :=
  command (.generationRestoreDone slots) s (·.restoreDone slots.slots slots.peer)

/-- GENERATION_AREA_WRITE_DONE (R51). -/
def execGenerationAreaWriteDone (drawer : Nat) (record ok : Bool) (s : State) : Host.Outcome State Fault Refusal :=
  command (.generationAreaWriteDone drawer record ok) s fun s => (s.areaWritten drawer record ok).settle

/-- LEDGER_BATCH_DONE (R262). -/
def execLedgerBatchDone (drawer : Nat) (ok : Bool) (s : State) : Host.Outcome State Fault Refusal :=
  command (.ledgerBatchDone drawer ok) s fun s => (s.ringBatchDone drawer ok).pumpAll.settle

/-- RESYNC_PIECE_DONE (R264). -/
def execResyncPieceDone (set row off count : Nat) (disagree : Bool) (s : State) : Host.Outcome State Fault Refusal :=
  command (.resyncPieceDone set row off count disagree) s fun s => (s.resyncDone set row off count disagree).settle

/-- REBUILD_PIECE_DONE (R275). -/
def execRebuildPieceDone (set : Nat) (s : State) : Host.Outcome State Fault Refusal :=
  command (.rebuildPieceDone set) s fun s => (s.pieceDone set).settle

/-- RESHAPE_ROW_DONE (R288). -/
def execReshapeRowDone (set : Nat) (s : State) : Host.Outcome State Fault Refusal :=
  command (.reshapeRowDone set) s fun s => (s.reshapeRowDone set).settle

/-- RESHAPE_STAGING_DONE (R287). -/
def execReshapeStagingDone (set : Nat) (s : State) : Host.Outcome State Fault Refusal :=
  command (.reshapeStagingDone set) s (·.stagingDone set)

/-- REPAIR_WRITEBACK_DONE (R273). -/
def execRepairWritebackDone (set pos block : Nat) (ok : Bool) (s : State) : Host.Outcome State Fault Refusal :=
  command (.repairWritebackDone set pos block ok) s fun s => (s.repairWritten set pos block ok).settle

/-! ### Sideboard -/

/-- ARBITER_GRANT (R320). -/
def execArbiterGrant (arb : Nat) (s : State) : Host.Outcome State Fault Refusal :=
  command (.arbiterGrant arb) s (·.arbitrate arb)

/-- SEAT_MASK (R322). -/
def execSeatMask (arb seat : Nat) (s : State) : Host.Outcome State Fault Refusal :=
  command (.seatMask arb seat) s (·.maskSeat arb seat)

/-- SEAT_UNMASK (R322). -/
def execSeatUnmask (arb seat : Nat) (s : State) : Host.Outcome State Fault Refusal :=
  command (.seatUnmask arb seat) s (·.unmaskSeat arb seat)

/-- SBD_START (R331). -/
def execSbdStart (p : Path) (s : State) : Host.Outcome State Fault Refusal :=
  command (.sbdStart p) s fun s => s.viaWrite p SBD_CMD_START.addr (·.sbdDoStart p)

/-- SBD_STOP (R331). -/
def execSbdStop (p : Path) (s : State) : Host.Outcome State Fault Refusal :=
  command (.sbdStop p) s fun s => s.viaWrite p SBD_CMD_STOP.addr State.sbdDoStop

/-- BAR2_READ (R316). -/
def execBar2Read (off len : Nat) (s : State) : Host.Outcome State Fault Refusal :=
  command (.bar2Read off len) s (·.bar2Read off len)

/-- BAR2_WRITE (R316). -/
def execBar2Write (off : Nat) (data : List Byte) (s : State) : Host.Outcome State Fault Refusal :=
  command (.bar2Write off data) s (·.bar2Write off data)

/-- LOCK_ACQUIRE (R326). -/
def execLockAcquire (who : LockOwner) (n : Nat) (s : State) : Host.Outcome State Fault Refusal :=
  command (.lockAcquire who n) s fun s => s.viaLock who (lockCmdAddr n) (·.acquireLock who n)

/-- LOCK_RELEASE (R327). -/
def execLockRelease (who : LockOwner) (n gen : Nat) (s : State) : Host.Outcome State Fault Refusal :=
  command (.lockRelease who n gen) s fun s => s.viaLock who (lockCmdAddr n) (·.releaseLock who n gen)

/-- LOCK_RENEW (R327). -/
def execLockRenew (who : LockOwner) (n gen : Nat) (s : State) : Host.Outcome State Fault Refusal :=
  command (.lockRenew who n gen) s fun s => s.viaLock who (lockCmdAddr n) (·.renewLock who n gen)

/-- LOCK_CLEAN (R327). -/
def execLockClean (who : LockOwner) (n gen : Nat) (s : State) : Host.Outcome State Fault Refusal :=
  command (.lockClean who n gen) s fun s => s.viaLock who (lockCmdAddr n) (·.cleanLock who n gen)

/-- LOCK_STATE_READ (R325): a load of the window at +0x20; nothing but the answer changes. -/
def execLockStateRead (who : LockOwner) (n : Nat) (s : State) : Host.Outcome State Fault Refusal :=
  command (.lockStateRead who n) s fun s =>
    { s with out := { s.out with lockResult := SMap.put who.kind (s.lockWord n) s.out.lockResult } }

/-- LOCK_FORCE (R333). -/
def execLockForce (p : Path) (n : Nat) (s : State) : Host.Outcome State Fault Refusal :=
  command (.lockForce p n) s fun s => s.viaWrite p (lockCmdAddr n) (·.forceLock p n)

/-- LOCK_LEASE_EXPIRY (R329). -/
def execLockLeaseExpiry (n : Nat) (s : State) : Host.Outcome State Fault Refusal :=
  command (.lockLeaseExpiry n) s (·.expireLease n)

/-! ### SideboardErr -/

/-- SIDEBOARD_UE (R318). -/
def execSideboardUe (requester addr owner : Nat) (s : State) : Host.Outcome State Fault Refusal :=
  command (.sideboardUe requester addr owner) s (·.sideboardError requester addr owner)

/-! ### Slots -/

/-- SLOT_ON_COMMAND (R361). -/
def execSlotOnCommand (d : Nat) (s : State) : Host.Outcome State Fault Refusal :=
  commandIf (decide (d < 48)) s (·.slotOn d)

/-- SLOT_OFF_COMMAND (R361). -/
def execSlotOffCommand (d : Nat) (s : State) : Host.Outcome State Fault Refusal :=
  commandIf (decide (d < 48)) s (·.slotOff d)

/-- START_PHASE_END (R361). -/
def execStartPhaseEnd (d : Nat) (s : State) : Host.Outcome State Fault Refusal :=
  commandIf (decide (d < 48)) s (·.startPhaseEnd d)

/-- RAMP_COMPLETE (R361). -/
def execRampComplete (d : Nat) (s : State) : Host.Outcome State Fault Refusal :=
  commandIf (decide (d < 48)) s (·.rampComplete d)

/-- LIMITING_START (R364). -/
def execLimitingStart (d : Nat) (s : State) : Host.Outcome State Fault Refusal :=
  commandIf (decide (d < 48)) s (·.limitingStart d)

/-- LIMITING_END (R364). -/
def execLimitingEnd (d : Nat) (s : State) : Host.Outcome State Fault Refusal :=
  commandIf (decide (d < 48)) s (·.endLimiting d)

/-- POWER_GOOD_DEBOUNCE_END (R365). -/
def execPowerGoodDebounceEnd (d : Nat) (s : State) : Host.Outcome State Fault Refusal :=
  commandIf (decide (d < 48)) s (·.pgAsserts d)

/-- POWER_GOOD_FAIL (R365). -/
def execPowerGoodFail (d : Nat) (s : State) : Host.Outcome State Fault Refusal :=
  commandIf (decide (d < 48)) s (·.dropPg d)

/-- RETRY_DELAY_END (R366). -/
def execRetryDelayEnd (d : Nat) (s : State) : Host.Outcome State Fault Refusal :=
  commandIf (decide (d < 48)) s (·.retryStart d)

/-- RETRY_COUNT_CLEAR (R361). -/
def execRetryCountClear (d : Nat) (s : State) : Host.Outcome State Fault Refusal :=
  commandIf (decide (d < 48)) s (·.retriesClear d)

/-- CONTROL_LINK_SILENT (R11). -/
def execControlLinkSilent (s : State) : Host.Outcome State Fault Refusal :=
  command .controlLinkSilent s (·.setLinkSilent true)

/-! ### Power -/

/-- FAST_TRIP (R363). -/
def execFastTrip (d : Nat) (s : State) : Host.Outcome State Fault Refusal :=
  commandIf (decide (d < 48)) s (·.fastTrip d)

/-- FAULT_TIMER_EXPIRY (R364). -/
def execFaultTimerExpiry (d : Nat) (s : State) : Host.Outcome State Fault Refusal :=
  commandIf (decide (d < 48)) s (·.timerExpires d)

/-- CONTROL_LINK_RECOVER (R11). -/
def execControlLinkRecover (s : State) : Host.Outcome State Fault Refusal :=
  command .controlLinkRecover s State.powerLinkRecovers

/-- FEED_OVERCURRENT (R369). -/
def execFeedOvercurrent (f : Nat) (s : State) : Host.Outcome State Fault Refusal :=
  commandIf (decide (f < 2)) s (·.feedFault f 0)

/-- FEED_REVERSE_CURRENT (R369). -/
def execFeedReverseCurrent (f : Nat) (s : State) : Host.Outcome State Fault Refusal :=
  commandIf (decide (f < 2)) s (·.feedFault f 1)

/-- ADC_SAMPLE (R372). -/
def execAdcSample (bus : Nat) (slots feeds : List (Nat × Nat × Nat)) (s : State) : Host.Outcome State Fault Refusal :=
  commandIf true s (·.adcSample bus slots feeds)

/-- SLP_START (R376). -/
def execSlpStart (p : Path) (s : State) : Host.Outcome State Fault Refusal :=
  commandIf true s fun s => s.viaWrite p SLP_CMD_START.addr (·.slpDoStart p)

/-- SLP_STOP (R376). -/
def execSlpStop (p : Path) (s : State) : Host.Outcome State Fault Refusal :=
  commandIf true s fun s => s.viaWrite p SLP_CMD_STOP.addr State.slpDoStop

end Sys2Proof.Machine
end

