-- ==== Sys2Proof/Machine/Receive.lean ====
section
/-! DEFINITION. Receiving: the checks of an arriving packet in their order, sequenced delivery, DATA into grants, ACK and
NAK, FLUSH and PROBE, setup, and the packets that wait for a context (R59 to R92, R95 to R107, R112, R113, R201, R205, R206).
-/

namespace Sys2Proof.Machine

open Sys2Proof.Reg

/-! ### Acknowledgement at the sender (R81, R84 to R87) -/

/-- Every completion of the connection has been sent and acknowledged, and no capsule waits. -/
def State.allCompleted (s : State) (ci : Nat) (c : Conn) : Bool :=
  (s.cmd.inbox.all fun d => d.conn != c.id) &&
    (s.cmd.frames.all fun e => e.2.conn != c.id || (e.2.comp.map (·.sent)).getD false) &&
    (s.nlt.txq.all fun o => o.ci != some ci || o.typ != PktType.cmpl) &&
    c.tx.retained.all fun r => r.out.typ != PktType.cmpl

/-- The device sends CLOSED once every CMPL of a connection the host closes has been acknowledged (R107)
(DEDUCED, log entry 59). -/
def State.maybeClosed (s : State) (ci : Nat) : State :=
  let c := s.conn ci
  let queued := s.nlt.txq.any fun o => o.ci == some ci && o.typ == PktType.ctrl && o.pkt.code == 8
  if c.state = cCLOSING ∧ c.closeCsn.isSome ∧ c.closedPsn.isNone ∧ !queued ∧ s.allCompleted ci c then s.sendCtrl ci 8 [] false
  else s

/-- The cells that an acknowledged DATA packet was sent from are freed once nothing else uses them (R207). -/
def State.freeSent (s : State) (r : Retained) : State :=
  match r.out.group with
  | none => s
  | some g =>
    let ps := s.pins.filter fun p => p.1 == g
    let (c0, n) := cellSpan r.out.goff r.out.pkt.plen
    (((List.range n).map (· + c0)).filter fun c => !pinned ps g c).foldl (fun s c => s.freeRun g c 1) s

/-- Retained packets that satisfy `p` are acknowledged: their copies go, their regions' counts drop, their cells are free
(R81, R115, R207); with the device's CLOSE its connection is CLOSING (R104). -/
def State.ackPackets (s : State) (ci : Nat) (p : Retained → Bool) : State :=
  let c := s.conn ci
  let gone := c.tx.retained.filter p
  let psns := gone.map (·.out.pkt.psn)
  let kept := c.tx.retained.filter fun r => !p r
  let una := match kept with
    | r :: _ => r.out.pkt.psn
    | [] => c.tx.next
  let s := s.updConn ci fun c => { c with tx := { c.tx with retained := kept, una := una } }
  let s := s.dropOut fun o => o.ci == some ci && o.retx && psns.contains o.pkt.psn
  let s := gone.foldl (fun s r => match r.out.region with
    | some i => s.leaveRegion i
    | none => s) s
  let s := gone.foldl (fun s r => s.freeSent r) s
  let closing := gone.any fun r => r.out.typ == PktType.ctrl && r.out.pkt.code == 7
  let s := if closing ∧ (s.conn ci).state = cOPEN then s.setConnState ci cCLOSING else s
  let closed := match c.closedPsn with
    | some x => psns.contains x
    | none => false
  let s := if closed then s.endClose ci else s.maybeClosed ci
  if gone.any fun r => r.out.typ == PktType.ctrl && r.out.pkt.code == 0x0A then s.settleRevoking else s

/-- A packet that an ACK shows missing, with one received REORDER or more above it, is sent again once (R86). -/
def State.fastRetransmit (s : State) (ci base bm : Nat) : State :=
  let c := s.conn ci
  let lost (r : Retained) : Bool :=
    !r.fast && !r.due && decide (serialDist base r.out.pkt.psn < 256) && decide (r.sends < 1 + s.retryMax c.lport) &&
      decide (serialDist base r.out.pkt.psn + s.reorder c.lport ≤ bm.log2)
  if bm = 0 then s
  else (c.tx.retained.filter lost).foldl (fun s r =>
    let s := s.updConn ci fun c => { c with tx := { c.tx with retained := c.tx.retained.map fun x =>
      if x.out.pkt.psn = r.out.pkt.psn then { x with fast := true, due := true } else x } }
    { s with nlt := { s.nlt with txq := insertRetx { r.out with retx := true } s.nlt.txq } }.bump NLT_RETX_FAST c.lport c.attr) s

/-- An ACK (R81, R82, R86): one with a lower base than the one held, or a base beyond the next PSN, is ignored; so is one
whose payload is not 40 bytes, without a count (DESIGN CHOICE, log entry 100). -/
def State.onAck (s : State) (ci : Nat) (m : RxMeta) (k : Packet) : State :=
  let c := s.conn ci
  let d := serialDist c.tx.next k.psn
  if k.payload.length ≠ 40 ∨ 2 ^ 31 ≤ serialDist c.tx.ackBase k.psn then s
  else if 0 < d ∧ d < 2 ^ 31 then s.bump NLT_DROP_HDR m.lport c.attr
  else
    let bm := leNat (k.payload.take 32) / 2 * 2
    let ce := beNat ((k.payload.drop 32).take 4)
    let s := s.updConn ci fun c => { c with tx := { c.tx with ackBase := k.psn, ceLatest := ce } }
    let got (r : Retained) : Bool :=
      let d := serialDist k.psn r.out.pkt.psn
      decide (2 ^ 31 ≤ d) || bitOf bm d
    (s.ackPackets ci got).fastRetransmit ci k.psn bm

/-- The status and DETAIL of a NAK reason (R84). -/
def nakStatus (reason : Nat) : Option (Nat × Nat) :=
  match reason with
  | 1 => some (0x0007, 0)
  | 2 | 4 => some (0x0006, 2)
  | 3 => some (0x0005, 0)
  | 5 => some (0x0004, 2)
  | _ => none

/-- The message of a NAKed DATA packet stops and takes the status of the reason (R84). -/
def State.failMessage (s : State) (r : Retained) (reason : Nat) : State :=
  match r.out.typ, r.out.owner, nakStatus reason with
  | .data, some f, some (st, dt) =>
    match s.frame f with
    | some c =>
      if c.msgid ≠ r.out.pkt.msgid ∨ c.conn ≠ r.out.pkt.conn then s
      else
        let s := s.stopData f st
        s.updFrame f fun c => match c.work.nak with
          | some _ => c
          | none => { c with work := { c.work with nak := some st, nakDetail := dt } }
    | none => s
  | _, _, _ => s

/-- A NAK (R81, R84, R106): its PSN counts as received; reason 0x07 tears the connection down without a RESET. -/
def State.onNak (s : State) (ci : Nat) (m : RxMeta) (k : Packet) : State :=
  let s := s.bump NLT_NAK_RX m.lport (s.conn ci).attr
  if k.code = 7 then s.closeConn ci none
  else
    let hit := (s.conn ci).tx.retained.find? fun r => r.out.pkt.psn == k.psn
    let s := match hit with
      | some r => s.failMessage r k.code
      | none => s
    s.ackPackets ci fun r => r.out.pkt.psn == k.psn

/-! ### Sequenced delivery (R71, R103, R104, R107) -/

/-- The message a packet belongs to has a tag that is in use with another incarnation (R90). -/
def State.staleTag (s : State) (id msgid : Nat) : Bool :=
  let other (v : Nat) : Bool := v % 65536 == msgid % 65536 && v != msgid
  s.tagHeld id other ||
    s.cmd.inbox.any fun d => d.conn == id &&
      (other d.msgid || capField d.capsule 0 1 == opABORT && other (abortTarget d.capsule))

/-- A CMD is delivered to the dispatcher: its capsule keeps one cell (R71, R90, R207) (DEDUCED, log entry 83). -/
def State.deliverCmd (s : State) (ci csn : Nat) (h : HeldPkt) : State :=
  let c := s.conn ci
  let s := s.dropHeld h.rx h.pkt
  if s.staleTag c.id h.pkt.msgid then (s.bump NLT_DUP h.rx.lport (s.conn ci).attr).sendAck ci (Packet.entropy h.pkt)
  else
    let acc := accountOf h.rx.lport h.rx.pcp
    let d : Delivered := { conn := c.id, msgid := h.pkt.msgid, csn := csn, colour := h.colour, acc := some acc,
                           capsule := padTo 64 h.pkt.payload }
    let s := s.hold (some acc) 1
    { s with cmd := { s.cmd with inbox := s.cmd.inbox ++ [d] } }

/-- READY: the connection becomes OPEN (R103, R104). -/
def State.onReady (s : State) (ci : Nat) : State :=
  if (s.conn ci).state = cSETUP then
    ((s.setConnState ci cOPEN).updConn ci fun c => { c with opened := s.refTime }).bump CTX_SETUPS 0 (s.conn ci).attr
  else s

/-- CLOSE from the host: CLOSING; CLOSED follows when nothing is left to acknowledge (R104, R107)
(DEDUCED, log entry 59). -/
def State.onClose (s : State) (ci csn : Nat) : State :=
  let st := (s.conn ci).state
  if st = cOPEN ∨ st = cCLOSING then
    let s := if st = cOPEN then s.setConnState ci cCLOSING else s
    (s.updConn ci fun c => { c with closeCsn := some csn }).maybeClosed ci
  else s

/-- CLOSED from the host: acknowledged, it ends the connection (R104) (DEDUCED, log entry 59). -/
def State.onClosed (s : State) (ci ent : Nat) : State :=
  let c := s.conn ci
  if c.state = cCLOSING ∨ (c.state = cOPEN ∧ c.closeSent) then
    ((if c.state = cOPEN then s.setConnState ci cCLOSING else s).endClose ci).sendAck ci ent
  else s

/-- A CTRL packet is delivered in CSN order; KEEPALIVE has no effect of its own (R97). -/
def State.deliverCtrl (s : State) (ci csn : Nat) (k : Packet) : State :=
  if k.code = 4 then s.onReady ci
  else if k.code = 7 then s.onClose ci csn
  else if k.code = 8 then s.onClosed ci (Packet.entropy k)
  else s

/-- One sequenced packet is delivered; a CMD or MGMT packet whose tag is in use with another incarnation is discarded
(R90). -/
def State.deliverOne (s : State) (ci csn : Nat) (h : HeldPkt) : State :=
  match h.typ with
  | .cmd => s.deliverCmd ci csn h
  | .ctrl => (s.dropHeld h.rx h.pkt).deliverCtrl ci csn h.pkt
  | .mgmt =>
    let s := s.dropHeld h.rx h.pkt
    if s.staleTag (s.conn ci).id h.pkt.msgid then (s.bump NLT_DUP h.rx.lport (s.conn ci).attr).sendAck ci (Packet.entropy h.pkt)
    else s.mgmtRequest ci h.pkt
  | _ => s

/-- The Bureau hands over in an ACTIVATE: its requests wait until the new one runs (R400). -/
def State.handingOver (s : State) : Bool :=
  match s.fwu.job with
  | some j => j.op == 3 && j.result == 0 && decide (1 ≤ j.stage)
  | none => false

/-- A packet whose turn has come waits for the Bureau (R71, R400). -/
def State.waitsBureau (s : State) (h : Option HeldPkt) : Bool :=
  s.handingOver && match h with
    | some h => h.typ == .ctrl || h.typ == .mgmt
    | none => false

/-- Delivery goes on while the next CSN is there (R71), but for what waits on an ACTIVATE (R400). -/
def State.deliverHeld (ci : Nat) : Nat → State → State
  | 0, s => s
  | n + 1, s =>
    let c := s.conn ci
    if !c.known then s
    else
      match SMap.find c.rx.held c.rx.csn with
      | none => s
      | some h =>
        if s.waitsBureau h then s
        else
          let csn := c.rx.csn
          let s := s.updConn ci fun c => { c with rx := { c.rx with
            csn := (csn + 1) % 2 ^ 32, held := SMap.del csn c.rx.held } }
          deliverHeld ci n (match h with
            | some h => s.deliverOne ci csn h
            | none => s)

/-- What waited for the Bureau is delivered on every connection (R71, R400). -/
def State.deliverAll (s : State) : State :=
  s.ctx.conns.foldl (fun s e => s.deliverHeld e.1 (s.conn e.1).rx.held.length) s

/-- A sequenced packet that passed every check (R71): a CSN delivered or held already is a protocol error; RESET acts on
arrival; any other waits for its turn. -/
def State.sequenced (s : State) (ci : Nat) (m : RxMeta) (t : PktType) (k : Packet) (colour : Nat) : State :=
  let c := s.conn ci
  let csn := k.offset % 2 ^ 32
  if 2 ^ 31 ≤ serialDist c.rx.csn csn ∨ (SMap.find c.rx.held csn).isSome then s.closeConn ci (some 4)
  else if t = .ctrl ∧ k.code = 9 then s.closeConn ci none
  else
    let s := s.hold (some (accountOf m.lport m.pcp)) (cellsOf k.plen)
    let h : HeldPkt := { typ := t, rx := m, pkt := k, colour := colour }
    let s := s.updConn ci fun c => { c with rx := { c.rx with held := SMap.put csn (some h) c.rx.held } }
    s.deliverHeld ci (c.rx.held.length + 1)

/-! ### DATA (R74 to R76, R78) -/

/-- The NAK reason of a DATA packet, by the DATA rows of R78 in order; a host region is no place for data to the device
(DEDUCED, log entry 51). -/
def State.dataNak (s : State) (c : Conn) (k : Packet) : Option Nat :=
  match s.grantOf k.key with
  | some (_, g) =>
    if g.conn ≠ c.id then some 2
    else if g.total < k.offset + k.plen then some 3
    else if !g.isOpen ∨ g.msgid ≠ k.msgid ∨ k.offset < g.coff ∨ g.coff + g.len < k.offset + k.plen then some 5
    else none
  | none =>
    match s.regionOf k.key with
    | some (_, r) => if r.state = 2 then some 1 else some 4
    | none => if s.oldGrant k.key then some 5 else some 2

/-- The 4 KiB blocks of the command's data that a DATA packet carries whole. -/
def wholeBlocks (k : Packet) : List Nat :=
  let b := (4095 + k.offset) / 4096
  (List.range ((k.offset + k.plen) / 4096 - b)).map (· + b)

/-- Blocks of a group have been received through a grant (R187). -/
def State.gotBlocks (s : State) (k : Nat) (bs : List Nat) : State :=
  match SMap.find s.cab.groups k with
  | some g => s.setGroup k { g with got := bs ++ g.got }
  | none => s

/-- A DATA payload is placed; the grant closes when every byte has come (R74, R134). -/
def State.placeData (s : State) (k : Packet) : State :=
  match s.grantOf k.key with
  | none => s
  | some (i, g) =>
    let s := s.groupWrite g.group (g.goff + (k.offset - g.coff)) k.payload .grant
    let new := (wholeBlocks k).filter fun b => !g.got.contains b
    let s := s.gotBlocks g.group (new.map fun b => b + g.goff / 4096 - g.coff / 4096)
    let g := { g with got := g.got ++ new, lastCycle := s.rtu.cycle }
    s.setGrant i { g with isOpen := !g.full }

/-! ### What a packet does once it has passed (R70 to R73, R81 to R83, R88, R105) -/

/-- A packet of the connection was received (R105, R109). -/
def State.heard (s : State) (ci : Nat) (t : PktType) (k : Packet) : State :=
  s.updConn ci fun c => { c with
    lastRxCycle := s.rtu.cycle, lastRxEpoch := s.epoch,
    rx := { c.rx with unseq := if t.takesPsn then c.rx.unseq else max c.rx.unseq k.offset } }

/-- A PSN is received for the first time, with its CE mark (R81, R83) (DEDUCED, log entry 29). -/
def State.markReceived (s : State) (ci : Nat) (m : RxMeta) (k : Packet) (mark : Bool) : State :=
  let ce := m.ce || mark
  let s := s.updConn ci fun c => { c with rx := { c.rx.receive k.psn with ce := (c.rx.ce + Bool.nat ce) % 2 ^ 32 } }
  if ce then s.bump NLT_CE_RX m.lport (s.conn ci).attr else s

/-- An ACK leaves at ACKREQ or after COALESCE packets; otherwise the delay of the oldest arrival runs (R82). -/
def State.ackArrival (s : State) (ci : Nat) (k : Packet) : State :=
  let s := s.updConn ci fun c => { c with rx := { c.rx with sinceAck := c.rx.sinceAck + 1 } }
  let c := s.conn ci
  if Packet.has k flagAckReq ∨ s.coalesce c.lport ≤ c.rx.sinceAck then s.sendAck ci (Packet.entropy k)
  else s.updConn ci fun c => { c with rx := { c.rx with
    ackEnt := if c.rx.oldest.isNone then Packet.entropy k else c.rx.ackEnt, oldest := some (c.rx.oldest.getD s.ns) } }

/-- A duplicate is answered by an ACK at once where it has ACKREQ, else unless one left within DELAY (R70, R82). -/
def State.answerDup (s : State) (ci : Nat) (m : RxMeta) (k : Packet) : State :=
  let s := s.bump NLT_DUP m.lport (s.conn ci).attr
  let c := s.conn ci
  let recent : Bool := match c.rx.lastAck with
    | some t => decide (s.ns < t + s.ackDelay c.lport)
    | none => false
  if recent ∧ !Packet.has k flagAckReq then s else s.sendAck ci (Packet.entropy k)

/-- A PROBE: a request is answered on the same value with its TIMESTAMP; a reply makes its value active again and gives
the round trip, in ns at the present length of a line (R73). -/
def State.onProbe (s : State) (ci : Nat) (k : Packet) : State :=
  let stamp := timestampEntry 256 k.ext
  let e := Packet.entropy k
  if k.code = 0 then s.sendProbe ci e 1 (stamp.getD [])
  else if k.code = 1 then
    let rtt := match stamp with
      | some x => some ((s.refTime - beNat ((x.drop 2).take 8)) * s.reg RTU_LINE_LEN_LEN / 2 ^ 20 % 2 ^ 32)
      | none => none
    s.updConn ci fun c => { c with tx := { c.tx with
      retired := if bitOf c.tx.retired e then c.tx.retired - 2 ^ e else c.tx.retired,
      rtt := rtt.getD c.tx.rtt } }
  else s

/-- A packet that passed every check acts by its type. -/
def State.actOn (s : State) (ci : Nat) (m : RxMeta) (t : PktType) (k : Packet) (colour : Nat) : State :=
  match t with
  | .cmd | .ctrl | .mgmt => s.sequenced ci m t k colour
  | .data => s.placeData k
  | .ack => s.onAck ci m k
  | .nak => s.onNak ci m k
  | .probe => s.onProbe ci k
  | .flush => s.updConn ci fun c => { c with rx := { c.rx with flushes := c.rx.flushes ++ [(k.psn, k)] } }
  | .flushed | .xrdy | .cmpl => s

/-- A packet whose tag is in use with another incarnation is discarded; one that took a PSN is received and answered by an
ACK (R90) (DEDUCED, log entry 101). -/
def State.discardStale (s : State) (ci : Nat) (m : RxMeta) (t : PktType) (k : Packet) : State :=
  let s := s.bump NLT_DUP m.lport (s.conn ci).attr
  if t.takesPsn then
    ((s.updConn ci fun c => { c with rx := c.rx.receive k.psn }).answerFlushes ci).sendAck ci (Packet.entropy k)
  else s

/-- The last row of R78. -/
def State.acceptPkt (s : State) (ci : Nat) (m : RxMeta) (t : PktType) (k : Packet) (info : RxInfo) : State :=
  let s := s.heard ci t k
  if info.stale then s.discardStale ci m t k
  else if t.takesPsn then
    let s := (s.markReceived ci m k info.mark).actOn ci m t k info.colour
    if (s.conn ci).known then (s.answerFlushes ci).ackArrival ci k else s
  else s.actOn ci m t k info.colour

/-- A NAK for a DATA packet: its write ends, its PSN counts as received, and its arrival towards the next ACK (R81, R82, R84,
R136) (DEDUCED, log entry 29). -/
def State.nakData (s : State) (ci reason : Nat) (k : Packet) : State :=
  let s := match nakStatus reason with
    | some (st, dt) => s.failWrite k.conn k.msgid st dt
    | none => s
  (((s.sendNak ci reason k).updConn ci fun c => { c with rx := c.rx.receive k.psn }).answerFlushes ci).ackArrival ci k

/-! ### The checks (R59, R61, R78, R79, R201, R206, R213, R217, R220) -/

/-- The ingress decision of RED (R213): whether the packet is dropped, and whether it is marked; `granted` for DATA that lies
in its grant. -/
def State.ingressRed (s : State) (m : RxMeta) (t : PktType) (k : Packet) (granted : Bool) (colour : Nat) :
    Bool × Bool × State :=
  if !t.takesPsn then (false, false, s)
  else
    let own := accountOf m.lport m.pcp
    let acc := if granted then
        (((s.grantOf k.key).bind fun g => SMap.find s.cab.groups g.2.group).bind (·.acc)).getD own
      else own
    let (h, s) := s.redDecide m.lport acc false colour
    match h with
    | .pass => (false, false, s)
    | .mark => (false, true, s.bump CAB_RED_MARK_IN 0 (accountAttr (some acc)))
    | .drop =>
      if granted then (false, true, s.bump CAB_RED_MARK_IN 0 (accountAttr (some acc)))
      else (true, false, s.bump CAB_RED_DROP 0 (accountAttr (some acc)))

/-- The bytes that a DATA packet with a bad trailer placed in its grant are open (R76, R206): free values. -/
def State.spoilData (s : State) (t : PktType) (k : Packet) : State :=
  match s.grantOf k.key with
  | none => s
  | some (_, g) =>
    if t = .data then
      let (bs, s) := s.freeBytes k.payload.length
      let a := cellKey g.group (g.goff + (k.offset - g.coff))
      { s with cab := { s.cab with cellMem := Mem.writeAll a bs s.cab.cellMem } }
    else s

/-- The cells that the payload of an arriving packet takes outside a grant: those of a sequenced packet, and the holding cells
of a packet of a GCM connection (R199, R205). -/
def heldCells (t : PktType) (k : Packet) (gcm granted : Bool) : Nat :=
  if gcm ∨ (t.takesPsn ∧ !granted) then cellsOf k.plen else 0

/-- A payload lands in such cells, charged to the arriving port. -/
def State.landPayload (s : State) (m : RxMeta) (n : Nat) : State := if n = 0 then s else s.hold (some (accountOf m.lport m.pcp)) n

/-- They are given back. -/
def State.liftPayload (s : State) (m : RxMeta) (n : Nat) : State := if n = 0 then s else s.unhold (some (accountOf m.lport m.pcp)) n

/-- The packet's payload is there, in `cells` of the arriving port: the trailer is checked; on a GCM connection the packet goes
to a pair, otherwise it has passed (R78, R79, R206, R238). -/
def State.checkTail (s : State) (ci : Nat) (m : RxMeta) (t : PktType) (k : Packet) (info : RxInfo) (cells : Nat) : State :=
  let c := s.conn ci
  if info.nak.isNone ∧ k.crc ≠ trailer t k then
    (((if c.gcm ∨ info.stale then s else s.spoilData t k).liftPayload m cells).bump NLT_DROP_CRC m.lport c.attr).tailBad c.attr
  else if c.gcm then
    let i : CphItem := .gcmRx t m k c.keyslot info
    let (s, ok) := s.queueItem i
    if ok then s else ((s.liftPayload m cells).noPair i).tailBad c.attr
  else (s.liftPayload m cells).acceptPkt ci m t k info

/-- Whether the tag of a packet of this type is checked at its acceptance (R90): CMD and MGMT are checked as they are
delivered, and CTRL, ACK and PROBE belong to no message (DEDUCED, log entry 101). -/
def PktType.staleChecked : PktType → Bool
  | .data | .nak | .flush | .flushed => true
  | _ => false

/-- Admission: the DATA rows, then room, RED's decision at the account's cells as at lookup, the cells as the payload lands,
and the policer's decision; either makes the tail bad (R78, R79, R201, R205, R206, R212, R213, R220); `parked` where the payload already had its cells. -/
def State.admitPkt (s : State) (ci : Nat) (m : RxMeta) (t : PktType) (k : Packet) (parked : Bool) (colour : Nat) : State :=
  let c := s.conn ci
  let stale := t.staleChecked && s.staleTag c.id k.msgid
  let nak := if t = .data ∧ !stale then s.dataNak c k else none
  match nak, c.gcm with
  | some r, false => s.nakData ci r k
  | _, _ =>
    let granted := t == PktType.data && nak.isNone && !stale
    let cells := heldCells t k c.gcm granted
    if !parked ∧ 0 < cells ∧ !s.arrivalFits (accountOf m.lport m.pcp) cells then s.limitDrop (accountOf m.lport m.pcp)
    else
      let pol := t.takesPsn && !granted && colour == 2 && s.flag SCH_SUB_RED_DROP c.sub
      let (drop, mark, s) := s.ingressRed m t k granted colour
      let s := s.landPayload m cells
      if drop ∨ pol then ((if pol then s.policerDrop c.attr else s).liftPayload m cells).tailBad c.attr
      else s.checkTail ci m t k { nak := nak, mark := mark, colour := colour, stale := stale } cells

/-- From the TAG row on (R78): the packet is metered as its subscriber is known (R217) (DEDUCED, log entry 32). -/
def State.fromTag (s : State) (ci : Nat) (m : RxMeta) (t : PktType) (k : Packet) (parked : Bool) : State :=
  let c := s.conn ci
  let (colour, s) := if t.takesPsn then s.meter c.attr c.sub m (Packet.length k) else (0, s)
  if Packet.has k flagTag ≠ c.gcm then s.bump NLT_DROP_GCM m.lport c.attr
  else
    match if t.takesPsn then c.rx.psnPlace k.psn else .fresh with
    | .dup => s.answerDup ci m k
    | .above => s.bump NLT_DROP_WINDOW m.lport c.attr
    | .fresh => s.admitPkt ci m t k parked colour

/-- The rows that need the connection (R78, R112). -/
def State.lookup (s : State) (m : RxMeta) (t : PktType) (k : Packet) : State :=
  match s.findConn k.conn with
  | none => s.nakUnknown m k
  | some (ci, c) =>
    if !c.known then s.nakUnknown m k
    else if c.cache = .cached ∧ !s.hasParked ci then ((s.bump CTX_HITS 0 c.attr).touchConn ci).fromTag ci m t k false
    else s.parkPacket m t k ci

/-- A CTRL subtype the host may send on its kind of connection ID (R97). -/
def ctrlLegal (k : Packet) : Bool :=
  if k.conn = 0 then k.code == 1 else [4, 5, 7, 8, 9].contains k.code

/-- The length of the frame a packet arrived in, destination MAC through FCS (R61). -/
def frameLength (m : RxMeta) (k : Packet) : Nat := wireBytes (Packet.length k) m.v6 m.tagged - 20

/-- The first rows of R78, for a packet that reaches a running port of a part that serves, in a frame that the MAC accepts
(R61): the handler of what passes is `f`. -/
def State.preChecks (s : State) (m : RxMeta) (t : PktType) (k : Packet) (f : State → State) : State :=
  if !s.portRuns m.lport ∨ (!s.inRecovery ∧ s.pair = pairFENCED) ∨ macLimit < frameLength m k then s
  else if m.dport ≠ s.reg NLT_UDP_DPORT m.lport ∨ !s.flag (if m.v6 then NLT_UDP_V6 else NLT_UDP_V4) m.lport then s
  else
    let a := s.pktAttr m k.conn
    let s := s.bump NLT_RX_PKTS m.lport a
    if !s.isActive ∧ !s.inRecovery then s.bump NLT_DROP_HDR m.lport a
    else if m.frag ∨ !headerLegal t k ∨ (t = .ctrl ∧ !ctrlLegal k) ∨ k.hchk ≠ headCheck t k then
      s.bump NLT_DROP_HDR m.lport a
    else f s

/-! ### Setup (R97 to R102) -/

/-- The fields of a CONNECT_REQ (R99). -/
def reqField (k : Packet) (o n : Nat) : Nat := beNat ((k.payload.drop o).take n)

/-- An answer on connection ID 0, to the UDP port that the request names (R98). -/
def State.setupReply (s : State) (m : RxMeta) (k : Packet) (code : Nat) (body : List Byte) : State :=
  s.sendPkt { typ := .ctrl, port := m.lport, asked := some { m with sport := reqField k 4 2 },
              pkt := { code := code, msgid := k.msgid, plen := body.length, payload := body } }

/-- CONNECT_REJ (R102). -/
def State.reject (s : State) (m : RxMeta) (k : Packet) (reason : Nat) : State :=
  (s.setupReply m k 3 [b8 reason, 0, 0, 0]).bump CTX_REJECTS 0 { cls := some m.pcp }

/-- A reserved field of a CONNECT_REQ is not 0, or E_REQ is out of range (R99, R102). -/
def reqIllegal (k : Packet) : Bool :=
  decide (reqField k 2 1 = 0) || decide (64 < reqField k 2 1) || decide (4 ≤ reqField k 3 1) ||
    decide (4096 ≤ reqField k 0 2) || reqField k 6 2 != 0 || reqField k 12 4 != 0 || reqField k 32 16 != 0

/-- The subscriber may connect: enabled, with a setup key; in recovery only subscriber 0 (R102, R397). -/
def State.mayConnect (s : State) (sub : Nat) : Option (List Byte) :=
  if s.inRecovery ∨ s.flag SCH_SUB_EN sub then s.setupKey sub else none

/-- Requests accepted within the last SETUP cycles (R102). -/
def State.recentAccepted (s : State) : List Accepted :=
  s.ctx.accepted.filter fun a => decide (s.rtu.cycle ≤ a.cycle + s.setupCycles)

/-- The answer to an accepted request that came with this nonce within SETUP cycles (R102). -/
def State.repeated (s : State) (sub : Nat) (nonce : List Byte) : Option (List Byte) :=
  (s.recentAccepted.find? fun a => a.sub == sub && a.nonce == nonce).map (·.body)

/-- An accepted request is kept for SETUP cycles. -/
def State.keepAccepted (s : State) (c : Conn) (body : List Byte) : State :=
  let a : Accepted := { sub := c.sub, nonce := c.hostNonce, body := body, cycle := s.rtu.cycle }
  { s with ctx := { s.ctx with accepted := s.recentAccepted ++ [a] } }

/-- The ID of a new connection at index `ci` (R95). -/
def State.newConnId (s : State) (ci : Nat) : Nat :=
  let id := 2 ^ 18 * SMap.get 0 s.ctx.reuse ci + ci
  if id = 0 then 2 ^ 18 else id

/-- A new connection in state SETUP, its context in the cache where there is room (R95, R100 to R102, R109, R110)
(DESIGN CHOICE, log entry 27). -/
def State.makeConn (s : State) (m : RxMeta) (k : Packet) (ci : Nat) (slot : Option Nat) : Conn × State :=
  let (psn, s) := s.freeBits 32
  let (tok, s) := s.freeBits 27
  let (unseq, s) := s.freeBits 64
  let (nonce, s) := s.drbgBytes 16
  let psnH := reqField k 8 4
  let base : Conn := {
    id := s.newConnId ci, state := cSETUP, gcm := slot.isSome,
    data8k := s.flag NLT_XPORT_DATA8K m.lport && bitOf (reqField k 3 1) 1, v6 := m.v6, sub := reqField k 0 2,
    e := min (reqField k 2 1) (s.entMax m.lport), lport := m.lport, peerUdp := reqField k 4 2, vid := m.vid, pcp := m.pcp,
    tagged := m.tagged, keyslot := slot.getD 0, peerIp := m.src, nexthop := m.smac,
    hostNonce := (k.payload.drop 16).take 16, devNonce := nonce,
    tx := { next := psn, una := psn, ackBase := psn, unseq := unseq, rate := s.portRate m.lport, tokens := tok, tokAt := s.ns },
    rx := { base := psnH }, dirty := true, lru := s.ctx.clock, sinceCycle := s.rtu.cycle, lastRxCycle := s.rtu.cycle,
    lastRxEpoch := s.epoch, keepCycle := s.rtu.cycle }
  let (room, s) := s.makeRoom { cls := some m.pcp } (s.waitingFetches + 1)
  let s := { s with ctx := { s.ctx with conns := SMap.put ci base s.ctx.conns, clock := s.ctx.clock + 1 } }
  let s := match slot with
    | some x => s.setKeySlot x { kind := 2, key := padTo 64 (s.deriveKey base) }
    | none => s
  (base, if room then s.countCache else s.setCache ci .home)

/-- CONNECT_ACC for a new connection (R100). -/
def State.accBody (s : State) (key : List Byte) (c : Conn) : List Byte :=
  let body := c.accHead c.tx.next ++ s.linkParams c.lport ++ padTo 16 c.devNonce ++ List.replicate 24 0
  body ++ padTo 16 (Config.cmac key body)

/-- The last rows of R102: room for a connection, and for its key. -/
def State.acceptConn (s : State) (m : RxMeta) (k : Packet) (key : List Byte) : State :=
  let gcm := bitOf (reqField k 3 1) 0
  let openGcm := (s.ctx.conns.filter fun e => e.2.gcm && e.2.known).length
  let ci := lowestFree 0 (s.ctx.conns.map (·.1))
  if 262144 ≤ ci then s.reject m k 4
  else if gcm ∧ (s.reg CTX_GCM_LIMIT_LIMIT ≤ openGcm ∨ s.freeSlot.isNone) then s.reject m k 5
  else
    let (c, s) := s.makeConn m k ci (if gcm then s.freeSlot else none)
    let body := s.accBody key c
    ((s.keepAccepted c body).updConn ci fun c => { c with acc := body }).setupReply m k 2 body

/-- A CONNECT_REQ is answered by the first row of R102 that holds. -/
def State.connect (s : State) (m : RxMeta) (k : Packet) : State :=
  match s.mayConnect (reqField k 0 2 % 4096) with
  | none => s.reject m k 1
  | some key =>
    if k.payload.length ≠ 64 ∨ k.payload.drop 48 ≠ padTo 16 (Config.cmac key (k.payload.take 48)) then s.bump CTX_REJECTS 0 { cls := some m.pcp }
    else if reqIllegal k then s.reject m k 2
    else if !bitOf (reqField k 3 1) 0 ∧ (s.inRecovery ∨ s.flag NLT_XPORT_GCM_REQ m.lport) then s.reject m k 3
    else
      match s.repeated (reqField k 0 2) ((k.payload.drop 16).take 16) with
      | some body => s.setupReply m k 2 body
      | none => s.acceptConn m k key

/-! ### A packet arrives -/

/-- An arriving packet of type `t` (R78); a CTRL packet on connection ID 0 goes to setup, its payload in cells of the arriving
port while it is looked at (R98, R199, R201, R206). -/
def State.arrive (s : State) (m : RxMeta) (t : PktType) (k : Packet) : State :=
  (s.preChecks m t k fun s =>
    if t = .ctrl ∧ k.conn = 0 then
      if !s.arrivalFits (accountOf m.lport m.pcp) (cellsOf k.plen) then s.limitDrop (accountOf m.lport m.pcp)
      else
        let s := (s.landPayload m (cellsOf k.plen)).liftPayload m (cellsOf k.plen)
        if k.crc ≠ trailer t k then
          (s.bump NLT_DROP_CRC m.lport { cls := some m.pcp }).tailBad { cls := some m.pcp }
        else s.connect m k
    else s.lookup m t k).settle

/-! ### A context fetch ends (R112, R113) -/

/-- The packets of a context that wait, oldest first in each park. -/
def State.parkedOf (s : State) (ci : Nat) : List Parked := s.nlt.parks.flatMap fun e => e.2.filter (·.ci == ci)

/-- The parks without the packets of a context. -/
def State.unparkAll (s : State) (ci : Nat) : State :=
  s.nlt.parks.foldl (fun s e => s.setPark e.1 (e.2.filter (·.ci != ci))) s

/-- One parked packet resumes: its cells go back, then it is checked from the TAG row on, or its connection is unknown
(DEDUCED, log entry 38). -/
def State.resumeParked (s : State) (x : Parked) : State :=
  let s := s.dropHeld x.rx x.pkt
  match s.findConn x.pkt.conn with
  | some (ci, c) => if c.known ∧ ci = x.ci then s.fromTag ci x.rx x.typ x.pkt true else s.nakUnknown x.rx x.pkt
  | none => s.nakUnknown x.rx x.pkt

/-- The fetch of a connection's context ends: the context is cached, its parked packets resume in order. -/
def State.fetchDone (s : State) (id : Nat) : State :=
  let ci := id % 2 ^ 18
  if (s.conn ci).cache = .fetching then
    let s := (s.setCache ci .cached).touchConn ci
    let xs := s.parkedOf ci
    let s := xs.foldl (fun s x => s.resumeParked x) (s.unparkAll ci)
    s.startFetches
  else s

/-- Packets parked for a context that is gone are packets of an unknown connection, and fetches that waited may start (R113). -/
def State.resumeLost (s : State) : State :=
  let gone := s.awaited.filter fun ci => (SMap.find s.ctx.conns ci).isNone
  if gone = [] then s
  else (gone.foldl (fun s ci => (s.parkedOf ci).foldl (fun s x => s.resumeParked x) (s.unparkAll ci)) s).startFetches

/-! ### Address resolution (R351) -/

/-- An ARP request or a Neighbor Solicitation for an address of a port: an active part's running port answers it. -/
def State.answerAddress (s : State) (port target : Nat) (v6 : Bool) : State :=
  let a := if v6 then s.reg NLT_ADDR6_ADDR port else s.reg NLT_ADDR4_ADDR port
  if (s.isActive ∨ s.inRecovery) ∧ s.portRuns port ∧ target ≠ 0 ∧ a = target then
    { s with nlt := { s.nlt with arpOut := SMap.put (2 * port + Bool.nat v6) (a, v6) s.nlt.arpOut } }
  else s

end Sys2Proof.Machine
end

