-- ==== Sys2Proof/Machine/CipherItem.lean ====
section
/-! DEFINITION. The end of a cipher item on its pair: the pair check, what a passed item does, and what a mismatch leads to
(R79, R80, R237 to R240, R454). -/

namespace Sys2Proof.Machine

open Sys2Proof.Reg

/-! ### Items that passed -/

/-- The output of an XTS item is written over its cell; a unit of zero ciphertext reads as zeros (R239, R454). -/
def State.xtsWrite (s : State) (enc : Bool) (slot unit cell group goff : Nat) (zero : Bool) : State :=
  let data := s.groupRead group goff 256
  let out := if zero then List.replicate 256 0
    else padTo 256 (Config.xts enc (s.keySlot slot).key unit cell data)
  s.groupWrite group goff out (if enc then .encrypt else .decrypt)

/-- A received packet's tag is compared (R78 to R80): the packet is placed in plain, its NAK is sent, or its tail is bad. -/
def State.gcmReceived (s : State) (m : RxMeta) (t : PktType) (k : Packet) (info : RxInfo) : State :=
  let s := s.dropHeld m k
  match s.findConn k.conn with
  | none => s
  | some (ci, c) =>
    if !c.known then s
    else
      let key := s.connKey c
      let iv := gcmIv t k false (c.rx.wrapOf k.psn)
      let plain := padTo k.payload.length (Config.gcmCrypt key iv k.payload)
      if padTo 16 (Config.gcmTag key iv (gcmAad t k) plain) ≠ k.tag then
        ((s.bump NLT_DROP_GCM m.lport c.attr).raise NLT_EVENT_GCM_FAIL m.lport).tailBad c.attr
      else if t.takesPsn ∧ c.rx.psnPlace k.psn ≠ .fresh then s.answerDup ci m k
      else
        match info.nak with
        | some r => s.nakData ci r k
        | none => s.acceptPkt ci m t { k with payload := plain } info

/-- An item passed its check. -/
def State.itemPassed (s : State) (i : CphItem) : State :=
  match i with
  | .xts o t enc slot unit cell group goff zero =>
    ((s.bump CPH_ITEMS_XTS 0 (i.attr s)).xtsWrite enc slot unit cell group goff zero).cipherItemEnded o t
  | .gcmRx t m k _ info => (s.bump CPH_ITEMS_GCM 0 (i.attr s)).gcmReceived m t k info
  | .gcmTx f w k => ((s.dropSent f).bump CPH_ITEMS_GCM 0 (i.attr s)).onWire (s.sealFrame f w k)

/-! ### A mismatch (R240) -/

/-- An item is lost because no pair is left. -/
def State.itemLost (s : State) (i : CphItem) : State :=
  match i with
  | .xts o t .. => s.answer o t 0x0020 0x0C03 0
  | .gcmRx _ m k _ _ => (s.dropHeld m k).tailBad (s.pktAttr m k.conn)
  | .gcmTx f _ _ => (s.dropSent f).packetLeft f.out

/-- An item has left the engine: a connection's key slot that outlived its connection for the item is erased (R236,
R246). -/
def State.itemOver (s : State) (i : CphItem) : State :=
  match i with
  | .xts .. => s
  | i => s.releaseSlot i.slot

/-- Put an item on another pair, or lose it. -/
def State.moveItem (s : State) (ps : List Nat) (i : CphItem) (front : Bool) : State :=
  let (s, ok) := s.placeItem ps i front
  if ok then s else ((s.noPair i).itemLost i).itemOver i

/-- An item that failed its check: XTS and transmit items go to another pair, or back to the failing one where it is the last
in service; a received packet's tail is bad. -/
def State.itemFailed (s : State) (p : Nat) (i : CphItem) : State :=
  match i with
  | .gcmRx _ m k _ _ => (s.dropHeld m k).tailBad (s.pktAttr m k.conn)
  | i =>
    let others := s.pairsInService.filter (· != p)
    s.moveItem (if others = [] then s.pairsInService else others) i true

/-- A pair is quarantined: its items move to the others in their order. -/
def State.quarantinePair (s : State) (p : Nat) : State :=
  let items := s.pairQueue p
  let s := ((s.setReg CPH_PAIR_STATE_STATE p pairQuarantined).setPairQueue p []).countPairs
  let s := (s.raise CPH_EVENT_QUARANTINE).cphRecord p 2 (s.reg CPH_PAIR_STATE_COUNT p) 0 0
  items.foldl (fun s i => s.moveItem s.pairsInService i.item false) s

/-- A mismatch on pair `p`: counted, recorded; the second within a working cycle quarantines the pair. -/
def State.pairMismatch (s : State) (p : Nat) (i : CphItem) : State :=
  let n := s.reg CPH_PAIR_STATE_COUNT p + 1
  let s := ((s.setReg CPH_PAIR_STATE_COUNT p n).bump CPH_MISMATCHES 0 (i.attr s)).raise CPH_EVENT_MISMATCH
  let s := s.cphRecord p 1 n i.code i.slot
  if 2 ≤ n then (s.quarantinePair p).itemFailed p i
  else s.itemFailed p i

/-- The item at the head of a pair's queue ends (DESIGN CHOICE, log entry 26). -/
def State.itemEnds (s : State) (p : Nat) (agree : Bool) : State :=
  match s.pairQueue p with
  | [] => s
  | x :: rest =>
    let i := x.item
    let s := (s.setPairQueue p rest).bumpBy CPH_DUMMY_ROUNDS 0 x.dummies (i.attr s)
    (if agree then s.itemPassed i else s.pairMismatch p i).itemOver i

end Sys2Proof.Machine
end

