-- ==== Sys2Proof/Machine/RowsNet.lean ====
section
/-! DEFINITION. The rows of the network: packets, ports, scheduling, cipher items, host commands: one meaning per row, each over the shared operations of its family. -/

namespace Sys2Proof.Machine

open Sys2Proof.Reg

/-! ### Receive -/

/-- RX_CMD (R71). -/
def execRxCmd (m : RxMeta) (k : Packet) (s : State) : Host.Outcome State Fault Refusal :=
  command (.rxCmd m k) s (·.arrive m .cmd k)

/-- RX_DATA (R74). -/
def execRxData (m : RxMeta) (k : Packet) (s : State) : Host.Outcome State Fault Refusal :=
  command (.rxData m k) s (·.arrive m .data k)

/-- RX_ACK (R81). -/
def execRxAck (m : RxMeta) (k : Packet) (s : State) : Host.Outcome State Fault Refusal :=
  command (.rxAck m k) s (·.arrive m .ack k)

/-- RX_NAK (R84). -/
def execRxNak (m : RxMeta) (k : Packet) (s : State) : Host.Outcome State Fault Refusal :=
  command (.rxNak m k) s (·.arrive m .nak k)

/-- RX_FLUSH (R88). -/
def execRxFlush (m : RxMeta) (k : Packet) (s : State) : Host.Outcome State Fault Refusal :=
  command (.rxFlush m k) s (·.arrive m .flush k)

/-- RX_FLUSHED (R88): the device sends no FLUSH of its own, so it is received and nothing waits for it. -/
def execRxFlushed (m : RxMeta) (k : Packet) (s : State) : Host.Outcome State Fault Refusal :=
  command (.rxFlushed m k) s (·.arrive m .flushed k)

/-- RX_PROBE_REQUEST (R73). -/
def execRxProbeRequest (m : RxMeta) (k : Packet) (s : State) : Host.Outcome State Fault Refusal :=
  command (.rxProbeRequest m k) s (·.arrive m .probe k)

/-- RX_PROBE_REPLY (R73). -/
def execRxProbeReply (m : RxMeta) (k : Packet) (s : State) : Host.Outcome State Fault Refusal :=
  command (.rxProbeReply m k) s (·.arrive m .probe k)

/-- CONNECT_REQ (R102). -/
def execConnectReq (m : RxMeta) (k : Packet) (s : State) : Host.Outcome State Fault Refusal :=
  command (.connectReq m k) s (·.arrive m .ctrl k)

/-- CTRL_READY (R103). -/
def execCtrlReady (m : RxMeta) (k : Packet) (s : State) : Host.Outcome State Fault Refusal :=
  command (.ctrlReady m k) s (·.arrive m .ctrl k)

/-- CTRL_KEEPALIVE (R105). -/
def execCtrlKeepalive (m : RxMeta) (k : Packet) (s : State) : Host.Outcome State Fault Refusal :=
  command (.ctrlKeepalive m k) s (·.arrive m .ctrl k)

/-- CTRL_CLOSE (R107). -/
def execCtrlClose (m : RxMeta) (k : Packet) (s : State) : Host.Outcome State Fault Refusal :=
  command (.ctrlClose m k) s (·.arrive m .ctrl k)

/-- CTRL_CLOSED (R104). -/
def execCtrlClosed (m : RxMeta) (k : Packet) (s : State) : Host.Outcome State Fault Refusal :=
  command (.ctrlClosed m k) s (·.arrive m .ctrl k)

/-- CTRL_RESET (R106). -/
def execCtrlReset (m : RxMeta) (k : Packet) (s : State) : Host.Outcome State Fault Refusal :=
  command (.ctrlReset m k) s (·.arrive m .ctrl k)

/-- MGMT_REG_READ (R387). -/
def execMgmtRegRead (m : RxMeta) (k : Packet) (s : State) : Host.Outcome State Fault Refusal :=
  command (.mgmtRegRead m k) s (·.arrive m .mgmt k)

/-- MGMT_REG_WRITE (R387). -/
def execMgmtRegWrite (m : RxMeta) (k : Packet) (s : State) : Host.Outcome State Fault Refusal :=
  command (.mgmtRegWrite m k) s (·.arrive m .mgmt k)

/-- MGMT_AREA_WRITE (R387). -/
def execMgmtAreaWrite (m : RxMeta) (k : Packet) (s : State) : Host.Outcome State Fault Refusal :=
  command (.mgmtAreaWrite m k) s (·.arrive m .mgmt k)

/-- CONTEXT_FETCH_DONE (R112). -/
def execContextFetchDone (conn : Nat) (s : State) : Host.Outcome State Fault Refusal :=
  command (.contextFetchDone conn) s fun s => (s.fetchDone conn).settle

/-- ARP_OR_NEIGHBOR_SOLICITATION (R351). -/
def execArpOrNeighborSolicitation (lport target : Nat) (v6 : Bool) (s : State) : Host.Outcome State Fault Refusal :=
  commandIf (decide (lport < 32)) s (·.answerAddress lport target v6)

/-! ### Transmit -/

/-- TRANSMIT_OPPORTUNITY (R222). -/
def execTransmitOpportunity (lport : Nat) (s : State) : Host.Outcome State Fault Refusal :=
  command (.transmitOpportunity lport) s fun s => (s.transmitOne lport).settle

/-- ACK_DELAY_EXPIRY (R82). -/
def execAckDelayExpiry (conn : Nat) (s : State) : Host.Outcome State Fault Refusal :=
  command (.ackDelayExpiry conn) s (·.ackDelayOver conn)

/-- RETRANSMIT_TIMEOUT (R85). -/
def execRetransmitTimeout (conn : Nat) (s : State) : Host.Outcome State Fault Refusal :=
  command (.retransmitTimeout conn) s fun s => (s.retransmitAll conn).settle

/-- RATE_INTERVAL_END (R91). -/
def execRateIntervalEnd (conn : Nat) (s : State) : Host.Outcome State Fault Refusal :=
  command (.rateIntervalEnd conn) s (·.rateEnd conn)

/-! ### Scheduler -/

/-- GATE_ENTRY (R226). -/
def execGateEntry (lport entry : Nat) (s : State) : Host.Outcome State Fault Refusal :=
  command (.gateEntry lport entry) s fun s => (s.gateActs lport entry).syncPorts

/-- SCH_START (R230). -/
def execSchStart (p : Path) (s : State) : Host.Outcome State Fault Refusal :=
  command (.schStart p) s fun s => s.viaWrite p SCH_CMD_START.addr (·.schDoStart p)

/-- SCH_STOP (R230). -/
def execSchStop (p : Path) (s : State) : Host.Outcome State Fault Refusal :=
  command (.schStop p) s fun s => s.viaWrite p SCH_CMD_STOP.addr State.schDoStop

/-! ### Ports -/

/-- PORT_FLUSH_DONE (R214). -/
def execPortFlushDone (lport : Nat) (s : State) : Host.Outcome State Fault Refusal :=
  command (.portFlushDone lport) s (·.flushDone lport)

/-- LINK_FAULT (R214). -/
def execLinkFault (lport : Nat) (s : State) : Host.Outcome State Fault Refusal :=
  command (.linkFault lport) s (·.linkFaulty lport)

/-- LINK_RECOVER (R214). -/
def execLinkRecover (lport : Nat) (s : State) : Host.Outcome State Fault Refusal :=
  command (.linkRecover lport) s (·.linkRecovers lport)

/-- PORT_DOWN (R214). -/
def execPortDown (lport : Nat) (s : State) : Host.Outcome State Fault Refusal :=
  command (.portDown lport) s (·.holdExpires lport)

/-- NLT_START (R94). -/
def execNltStart (p : Path) (lport : Nat) (s : State) : Host.Outcome State Fault Refusal :=
  command (.nltStart p lport) s fun s => s.viaWrite p (nltCmdAddr lport) (·.nltDoStart p lport)

/-- NLT_STOP (R94). -/
def execNltStop (p : Path) (lport : Nat) (s : State) : Host.Outcome State Fault Refusal :=
  command (.nltStop p lport) s fun s => s.viaWrite p (nltCmdAddr lport) (·.nltDoStop p lport)

/-- PARAMS_SEND (R108). -/
def execParamsSend (lport : Nat) (s : State) : Host.Outcome State Fault Refusal :=
  command (.paramsSend lport) s (·.sendParams lport)

/-- SETUP_TIMEOUT (R104). -/
def execSetupTimeout (conn : Nat) (s : State) : Host.Outcome State Fault Refusal :=
  command (.setupTimeout conn) s (·.setupExpires conn)

/-- QUARANTINE_END (R104). -/
def execQuarantineEnd (conn : Nat) (s : State) : Host.Outcome State Fault Refusal :=
  command (.quarantineEnd conn) s fun s => (s.quarantineOver conn).resumeLost

/-- LIVENESS_EXPIRY (R105). -/
def execLivenessExpiry (conn : Nat) (s : State) : Host.Outcome State Fault Refusal :=
  command (.livenessExpiry conn) s (·.livenessOver conn)

/-- CTX_TEARDOWN (R106, R118). -/
def execCtxTeardown (p : Path) (conn : Nat) (s : State) : Host.Outcome State Fault Refusal :=
  command (.ctxTeardown p conn) s fun s => s.viaWrite p CTX_CMD_OP.addr (·.ctxTeardown conn)

/-- CTX_PIN (R111). -/
def execCtxPin (p : Path) (conn : Nat) (s : State) : Host.Outcome State Fault Refusal :=
  command (.ctxPin p conn) s fun s => s.viaWrite p CTX_CMD_OP.addr (·.ctxPin conn)

/-- CTX_UNPIN (R111). -/
def execCtxUnpin (p : Path) (conn : Nat) (s : State) : Host.Outcome State Fault Refusal :=
  command (.ctxUnpin p conn) s fun s => s.viaWrite p CTX_CMD_OP.addr (·.ctxUnpin conn)

/-- CTX_CLOSE (R107). -/
def execCtxClose (p : Path) (conn : Nat) (s : State) : Host.Outcome State Fault Refusal :=
  command (.ctxClose p conn) s fun s => s.viaWrite p CTX_CMD_OP.addr (·.ctxClose conn)

/-- CONTEXT_WRITEBACK_DONE (R110). -/
def execContextWritebackDone (conn : Nat) (s : State) : Host.Outcome State Fault Refusal :=
  command (.contextWritebackDone conn) s (·.writebackDone conn)

/-! ### Spill -/

/-- CAB_START (R216). -/
def execCabStart (p : Path) (s : State) : Host.Outcome State Fault Refusal :=
  command (.cabStart p) s fun s => s.viaWrite p CAB_CMD_START.addr (·.cabDoStart p)

/-- CAB_STOP (R216). -/
def execCabStop (p : Path) (s : State) : Host.Outcome State Fault Refusal :=
  command (.cabStop p) s fun s => s.viaWrite p CAB_CMD_STOP.addr State.cabDoStop

/-- APERTURE_READ (R198). -/
def execApertureRead (drawer addr len : Nat) (s : State) : Host.Outcome State Fault Refusal :=
  command (.apertureRead drawer addr len) s (·.apertureGet addr len)

/-- APERTURE_WRITE (R198). -/
def execApertureWrite (drawer addr : Nat) (data : List Byte) (s : State) : Host.Outcome State Fault Refusal :=
  command (.apertureWrite drawer addr data) s (·.apertureWrite addr data)

/-- PRP_LIST_READ (R306). -/
def execPrpListRead (drawer addr : Nat) (s : State) : Host.Outcome State Fault Refusal :=
  command (.prpListRead drawer addr) s (·.prpGet addr)

/-- SPILL_EXTENT_DONE (R208). -/
def execSpillExtentDone (group first count : Nat) (s : State) : Host.Outcome State Fault Refusal :=
  command (.spillExtentDone group first count) s fun s => (s.spillExtent group first count).settle

/-- SPILL_RETURN_DONE (R210). -/
def execSpillReturnDone (group first : Nat) (s : State) : Host.Outcome State Fault Refusal :=
  command (.spillReturnDone group first) s fun s => (s.spillReturn group first).settle

/-! ### HostOps -/

/-- READ (R124). -/
def execRead (conn : Nat) (s : State) : Host.Outcome State Fault Refusal :=
  command (.read conn) s fun s => (s.takeCapsule conn (· == opREAD)).settle

/-- WRITE (R15, R124). -/
def execWrite (conn : Nat) (s : State) : Host.Outcome State Fault Refusal :=
  command (.write conn) s fun s => (s.takeCapsule conn (· == opWRITE)).settle

/-- CMD_FLUSH (R129). -/
def execCmdFlush (conn : Nat) (s : State) : Host.Outcome State Fault Refusal :=
  command (.cmdFlush conn) s fun s => (s.takeCapsule conn (· == opFLUSH)).settle

/-- WRITE_ZEROES (R128). -/
def execWriteZeroes (conn : Nat) (s : State) : Host.Outcome State Fault Refusal :=
  command (.writeZeroes conn) s fun s => (s.takeCapsule conn (· == opWRITE_ZEROES)).settle

/-- DEALLOCATE (R128). -/
def execDeallocate (conn : Nat) (s : State) : Host.Outcome State Fault Refusal :=
  command (.deallocate conn) s fun s => (s.takeCapsule conn (· == opDEALLOCATE)).settle

/-- COMPARE_WRITE (R127). -/
def execCompareWrite (conn : Nat) (s : State) : Host.Outcome State Fault Refusal :=
  command (.compareWrite conn) s fun s => (s.takeCapsule conn (· == opCOMPARE_WRITE)).settle

/-- ABORT (R146). -/
def execAbort (conn : Nat) (s : State) : Host.Outcome State Fault Refusal :=
  command (.abort conn) s fun s => (s.takeCapsule conn (· == opABORT)).settle

/-- REGION_REGISTER (R114). -/
def execRegionRegister (conn : Nat) (s : State) : Host.Outcome State Fault Refusal :=
  command (.regionRegister conn) s fun s => (s.takeCapsule conn (· == opREGION_REGISTER)).settle

/-- REGION_REVOKE (R116). -/
def execRegionRevoke (conn : Nat) (s : State) : Host.Outcome State Fault Refusal :=
  command (.regionRevoke conn) s fun s => (s.takeCapsule conn (· == opREGION_REVOKE)).settle

/-- CYCLE_RESERVE (R149). -/
def execCycleReserve (conn : Nat) (s : State) : Host.Outcome State Fault Refusal :=
  command (.cycleReserve conn) s fun s => (s.takeCapsule conn (· == opCYCLE_RESERVE)).settle

/-- CYCLE_RELEASE (R153). -/
def execCycleRelease (conn : Nat) (s : State) : Host.Outcome State Fault Refusal :=
  command (.cycleRelease conn) s fun s => (s.takeCapsule conn (· == opCYCLE_RELEASE)).settle

/-- IDENTIFY (R125). -/
def execIdentify (conn : Nat) (s : State) : Host.Outcome State Fault Refusal :=
  command (.identify conn) s fun s => (s.takeCapsule conn (· == opIDENTIFY)).settle

/-- LOG_READ (R126). -/
def execLogRead (conn : Nat) (s : State) : Host.Outcome State Fault Refusal :=
  command (.logRead conn) s fun s => (s.takeCapsule conn (· == opLOG_READ)).settle

/-- KEEPALIVE (R124). -/
def execCmdKeepalive (conn : Nat) (s : State) : Host.Outcome State Fault Refusal :=
  command (.cmdKeepalive conn) s fun s => (s.takeCapsule conn (· == opKEEPALIVE)).settle

/-- A user opcode (R168). -/
def execUserCommand (conn : Nat) (s : State) : Host.Outcome State Fault Refusal :=
  command (.userCommand conn) s fun s => (s.takeCapsule conn isUserOp).settle

/-! ### Cipher -/

/-- KEY_IMPORT_PLAIN (R235). -/
def execKeyImportPlain (p : Path) (slot kind : Nat) (s : State) : Host.Outcome State Fault Refusal :=
  command (.keyImportPlain p slot kind) s fun s => s.viaWrite p CPH_KEY_CMD_OP.addr (·.keyStart p 1 kind slot)

/-- KEY_IMPORT_KEK (R235). -/
def execKeyImportKek (p : Path) (slot kind : Nat) (s : State) : Host.Outcome State Fault Refusal :=
  command (.keyImportKek p slot kind) s fun s => s.viaWrite p CPH_KEY_CMD_OP.addr (·.keyStart p 2 kind slot)

/-- KEY_IMPORT_BLOB (R235). -/
def execKeyImportBlob (p : Path) (slot kind : Nat) (s : State) : Host.Outcome State Fault Refusal :=
  command (.keyImportBlob p slot kind) s fun s => s.viaWrite p CPH_KEY_CMD_OP.addr (·.keyStart p 3 kind slot)

/-- KEY_EXPORT (R235). -/
def execKeyExport (p : Path) (slot : Nat) (s : State) : Host.Outcome State Fault Refusal :=
  command (.keyExport p slot) s fun s => s.viaWrite p CPH_KEY_CMD_OP.addr (·.keyStart p 4 0 slot)

/-- KEY_ERASE (R235). -/
def execKeyErase (p : Path) (slot : Nat) (s : State) : Host.Outcome State Fault Refusal :=
  command (.keyErase p slot) s fun s => s.viaWrite p CPH_KEY_CMD_OP.addr (·.keyStart p 5 0 slot)

/-- KEY_OP_DONE (R235). -/
def execKeyOpDone (s : State) : Host.Outcome State Fault Refusal := command .keyOpDone s State.keyDone

/-- PAIR_TEST (R241). -/
def execPairTest (p : Path) (pair : Nat) (s : State) : Host.Outcome State Fault Refusal :=
  command (.pairTest p pair) s fun s => s.viaWrite p CPH_PAIR_CMD_OP.addr (·.pairTestStart pair)

/-- PAIR_TEST_DONE (R241). -/
def execPairTestDone (pair : Nat) (pass : Bool) (s : State) : Host.Outcome State Fault Refusal :=
  command (.pairTestDone pair pass) s (·.pairTestEnd pair pass)

/-- ENTROPY_HEALTH_FAIL (R245). -/
def execEntropyHealthFail (s : State) : Host.Outcome State Fault Refusal := command .entropyHealthFail s State.entropyFail

/-- ENTROPY_SOURCE_RECOVER (R245): the source has passed its start-up tests. -/
def execEntropySourceRecover (s : State) : Host.Outcome State Fault Refusal :=
  command .entropySourceRecover s State.entropyRecovers

/-! ### CipherItem -/

/-- CIPHER_ITEM_DONE (R239). -/
def execCipherItemDone (pair : Nat) (agree : Bool) (s : State) : Host.Outcome State Fault Refusal :=
  command (.cipherItemDone pair agree) s fun s => (s.itemEnds pair agree).settle

end Sys2Proof.Machine
end

