-- ==== Sys2Proof/Machine/RowsShelf.lean ====
section
/-! DEFINITION. The rows of the pair, the endpoint, firmware and the recorder: one meaning per row, each over the shared operations of its family. -/

namespace Sys2Proof.Machine

open Sys2Proof.Reg

/-! ### Hng -/

/-- HNG_START (R353). -/
def execHngStart (p : Path) (s : State) : Host.Outcome State Fault Refusal :=
  command (.hngStart p) s fun s => s.viaWrite p HNG_CMD_OP.addr fun s => (s.hngDoStart p).settle

/-- HNG_STOP (R359). -/
def execHngStop (p : Path) (s : State) : Host.Outcome State Fault Refusal :=
  command (.hngStop p) s fun s => s.viaWrite p HNG_CMD_OP.addr State.hngDoStop

/-- ROLE_SWAP (R354). -/
def execRoleSwap (p : Path) (s : State) : Host.Outcome State Fault Refusal :=
  command (.roleSwap p) s fun s => s.viaWrite p HNG_CMD_OP.addr State.hngSwap

/-- REJOIN (R347, R349). -/
def execRejoin (p : Path) (s : State) : Host.Outcome State Fault Refusal :=
  command (.rejoin p) s fun s => s.viaWrite p HNG_CMD_OP.addr fun s => s.hngRejoin.settle

/-- DETACH (R347). -/
def execDetach (p : Path) (s : State) : Host.Outcome State Fault Refusal :=
  command (.detach p) s fun s => s.viaWrite p HNG_CMD_OP.addr State.hngDetach

/-- HINGE_COPY (R341). -/
def execHingeCopy (h : HingeHdr) (sections : List CopySection) (s : State) : Host.Outcome State Fault Refusal :=
  command (.hingeCopy h sections) s fun s => s.hingeReceive h (sections.map sectionBytes).flatten.length (·.copyArrives sections)

/-- HINGE_COPY_END (R341). -/
def execHingeCopyEnd (h : HingeHdr) (counts : List Nat) (crc : Nat) (s : State) : Host.Outcome State Fault Refusal :=
  command (.hingeCopyEnd h counts crc) s fun s => s.hingeReceive h 68 (·.copyEndArrives h crc)

/-- HINGE_CONFIRM (R261). -/
def execHingeConfirm (h : HingeHdr) (epoch crc result : Nat) (s : State) : Host.Outcome State Fault Refusal :=
  command (.hingeConfirm h epoch crc result) s fun s => (s.hingeReceive h 13 (·.confirmArrives epoch result)).pumpAll.settle

/-- HINGE_ACK (R339). -/
def execHingeAck (h : HingeHdr) (seq : Nat) (s : State) : Host.Outcome State Fault Refusal :=
  command (.hingeAck h seq) s fun s => s.hingeReceiveControl h fun s => ((s.ackRecorder seq).hingeAcked seq).planFlush

/-- HINGE_NAK (R339). -/
def execHingeNak (h : HingeHdr) (seq : Nat) (s : State) : Host.Outcome State Fault Refusal :=
  command (.hingeNak h seq) s fun s => s.hingeReceiveControl h (·.hingeResend seq)

/-- HINGE_SYNC (R352). -/
def execHingeSync (h : HingeHdr) (sections : List CopySection) (s : State) : Host.Outcome State Fault Refusal :=
  command (.hingeSync h sections) s fun s => s.hingeReceive h (sections.map sectionBytes).flatten.length (·.syncArrives h sections)

/-- HINGE_TIME (R352). -/
def execHingeTime (h : HingeHdr) (time epoch flight : Nat) (s : State) : Host.Outcome State Fault Refusal :=
  command (.hingeTime h time epoch flight) s fun s => s.hingeReceive h 16 (·.timeArrives h time epoch flight)

/-- HINGE_RECORDER (R411). -/
def execHingeRecorder (h : HingeHdr) (data : List Byte) (s : State) : Host.Outcome State Fault Refusal :=
  command (.hingeRecorder h data) s fun s => s.hingeReceive h data.length (·.peerExtent data)

/-- HINGE_RESEND_TIMEOUT (R339). -/
def execHingeResendTimeout (s : State) : Host.Outcome State Fault Refusal := command .hingeResendTimeout s State.resendDue

/-- HINGE_ACK_TIMER (R339). -/
def execHingeAckTimer (s : State) : Host.Outcome State Fault Refusal := command .hingeAckTimer s State.ackDue

/-- HINGE_LINK_DOWN (R336). -/
def execHingeLinkDown (lanes : Nat) (s : State) : Host.Outcome State Fault Refusal :=
  command (.hingeLinkDown lanes) s fun s => (s.lanesFail lanes).settle

/-- HINGE_LINK_UP (R336). -/
def execHingeLinkUp (lanes : Nat) (s : State) : Host.Outcome State Fault Refusal :=
  commandIf (decide (lanes ≤ 8)) s (·.lanesTrain lanes)

/-- TETHER_FRAME (R344). -/
def execTetherFrame (pair : Nat) (f : TetherFrame) (s : State) : Host.Outcome State Fault Refusal :=
  commandIf (decide (pair < 2)) s fun s => (s.tetherArrives pair f).settle

/-- TETHER_SEND (R344). -/
def execTetherSend (s : State) : Host.Outcome State Fault Refusal := command .tetherSend s State.tetherTick

/-- TETHER_SILENT (R346). -/
def execTetherSilent (s : State) : Host.Outcome State Fault Refusal :=
  command .tetherSilent s fun s => s.tetherFalls.settle

/-- COPY_END_MISSED (R346). -/
def execCopyEndMissed (s : State) : Host.Outcome State Fault Refusal :=
  command .copyEndMissed s fun s => s.copyEndMiss.settle

/-- WDOG epochs without a feed: CORE_OK clears (R345) (DESIGN CHOICE, log entry 85). -/
def execWatchdogLapse (s : State) : Host.Outcome State Fault Refusal :=
  command .watchdogLapse s fun s => { s with hng := { s.hng with coreOk := false } }

/-- CONTEST_TIMEOUT (R348). -/
def execContestTimeout (drawer : Nat) (s : State) : Host.Outcome State Fault Refusal :=
  commandIf (decide (drawer < 48)) s fun s =>
    if s.hng.contesting then (s.contestTimesOut drawer).pumpAll.settle else s

/-- START_DEFER_END (R353). -/
def execStartDeferEnd (s : State) : Host.Outcome State Fault Refusal :=
  command .startDeferEnd s fun s => s.deferEnds.settle

/-- ANNOUNCE_REPEAT (R350). -/
def execAnnounceRepeat (s : State) : Host.Outcome State Fault Refusal := command .announceRepeat s State.announceAgain

/-- POWER_FAIL_WARNING (R355). -/
def execPowerFailWarning (s : State) : Host.Outcome State Fault Refusal :=
  command .powerFailWarning s fun s => s.powerFails.settle

/-- PFW_RELEASE (R409). -/
def execPfwRelease (s : State) : Host.Outcome State Fault Refusal := command .pfwRelease s State.powerReturns

/-! ### Mep -/

/-- VECTOR_ACK (R382). -/
def execVectorAck (p : Path) (mask : Nat) (s : State) : Host.Outcome State Fault Refusal :=
  commandIf true s fun s => s.viaWrite p MEP_VEC_ACK_ACK.addr (·.ackVectors mask)

/-- MSIX_MASK_CLEAR (R382). -/
def execMsixMaskClear (p : Path) (v : Nat) (s : State) : Host.Outcome State Fault Refusal :=
  commandIf (decide (v < 64)) s fun s =>
    s.viaWrite p (MSIX_TABLE_ADDR.addr + 16 * v + 12) (·.setMsixMask v false)

/-- MSIX_ENABLE (R382). -/
def execMsixEnable (s : State) : Host.Outcome State Fault Refusal :=
  command .msixEnable s fun s => (s.setFlag MEP_LINK_MSIX 0 true).sendPending

/-- POWER_STATE_WRITE (R379). -/
def execPowerStateWrite (d3 : Bool) (s : State) : Host.Outcome State Fault Refusal :=
  commandIf true s fun s => { s with mep := { s.mep with d3 := d3 } }.sendPending

/-- DMA_START (R383). -/
def execDmaStart (p : Path) (ch ctl : Nat) (s : State) : Host.Outcome State Fault Refusal :=
  commandIf (decide (ch < 4) && decide (ctl < 8)) s fun s => s.viaWrite p (MEP_DMA_HOST.addr + 0x20 * ch + 0x14) (·.dmaStart ch ctl)

/-- DMA_DONE (R383). -/
def execDmaDone (ch : Nat) (ok : Bool) (data : List Byte) (s : State) : Host.Outcome State Fault Refusal :=
  commandIf (decide (ch < 4)) s (·.dmaDone ch ok data)

/-- ATS_INVALIDATE (R384). -/
def execAtsInvalidate (addr size tag : Nat) (s : State) : Host.Outcome State Fault Refusal :=
  commandIf true s (·.invalidate addr size tag)

/-- ATS_ENABLE_CLEAR (R384). -/
def execAtsEnableClear (s : State) : Host.Outcome State Fault Refusal :=
  command .atsEnableClear s fun s => { s with mep := { s.mep with atsOn := false, ats := [] } }

/-- BME_CLEAR (R383). -/
def execBmeClear (s : State) : Host.Outcome State Fault Refusal := command .bmeClear s State.bmeClear

/-- BME_SET (R383). -/
def execBmeSet (s : State) : Host.Outcome State Fault Refusal :=
  command .bmeSet s fun s => (s.setFlag MEP_LINK_BME 0 true).sendPending

/-- FUNCTION_LEVEL_RESET (R383). -/
def execFunctionLevelReset (s : State) : Host.Outcome State Fault Refusal := command .functionLevelReset s State.flrStart

/-- FLR_COMPLETE (R383). -/
def execFlrComplete (s : State) : Host.Outcome State Fault Refusal := command .flrComplete s State.flrDone

/-- MEP_PERST (R378). -/
def execMepPerst (s : State) : Host.Outcome State Fault Refusal := command .mepPerst s State.mepPerst

/-- CFG_READY_SET (R378). -/
def execCfgReadySet (p : Path) (s : State) : Host.Outcome State Fault Refusal :=
  commandIf true s fun s => s.viaWrite p MEP_CTRL_CFG_READY.addr State.setCfgReady

/-- MEP_LINK_DOWN (R388). -/
def execMepLinkDown (s : State) : Host.Outcome State Fault Refusal :=
  command .mepLinkDown s State.mepLinkLeaves

/-- MEP_LINK_UP (R378). -/
def execMepLinkUp (width : Nat) (top : Bool) (s : State) : Host.Outcome State Fault Refusal :=
  commandIf (decide (width ≤ 4)) s (·.mepLinkUp width top)

/-- L1_IDLE_EXPIRY (R381). -/
def execL1IdleExpiry (s : State) : Host.Outcome State Fault Refusal := command .l1IdleExpiry s State.enterL1

/-- ENDPOINT_AER_ERROR (R388). -/
def execEndpointAerError (unc cor : Nat) (hdr : List Byte) (s : State) : Host.Outcome State Fault Refusal :=
  commandIf true s (·.endpointAer unc cor hdr)

/-! ### Fwu -/

/-- BOOT (R394). -/
def execBoot (s : State) : Host.Outcome State Fault Refusal := commandAlwaysIf true s State.boot

/-- FW_VERIFY (R398). -/
def execFwVerify (p : Path) (s : State) : Host.Outcome State Fault Refusal :=
  commandIf true s fun s => s.viaWrite p FWU_CMD_OP.addr (·.fwuStart 1)
/-- FW_PROGRAM (R399). -/
def execFwProgram (p : Path) (s : State) : Host.Outcome State Fault Refusal :=
  commandIf true s fun s => s.viaWrite p FWU_CMD_OP.addr (·.fwuStart 2)
/-- FW_ACTIVATE (R400). -/
def execFwActivate (p : Path) (s : State) : Host.Outcome State Fault Refusal :=
  commandIf true s fun s => s.viaWrite p FWU_CMD_OP.addr (·.fwuStart 3)
/-- FW_COMMIT_SVN (R392). -/
def execFwCommitSvn (p : Path) (s : State) : Host.Outcome State Fault Refusal :=
  commandIf true s fun s => s.viaWrite p FWU_CMD_OP.addr (·.fwuStart 4)
/-- FW_WRITE_RECOVERY (R397). -/
def execFwWriteRecovery (p : Path) (s : State) : Host.Outcome State Fault Refusal :=
  commandIf true s fun s => s.viaWrite p FWU_CMD_OP.addr (·.fwuStart 5)
/-- FW_CLEAR_STAGING (R398). -/
def execFwClearStaging (p : Path) (s : State) : Host.Outcome State Fault Refusal :=
  commandIf true s fun s => s.viaWrite p FWU_CMD_OP.addr (·.fwuStart 6)

/-- FW_OP_DONE (R398); an ACTIVATE that ends lets the requests that waited act (R400). -/
def execFwOpDone (mismatch : Bool) (s : State) : Host.Outcome State Fault Refusal :=
  commandIf true s fun s =>
    let t := s.fwuDone mismatch
    if s.handingOver && !t.handingOver then t.deliverAll.settle else t

/-- BLK_DATA_WRITE (R396). -/
def execBlkDataWrite (p : Path) (idx val : Nat) (s : State) : Host.Outcome State Fault Refusal :=
  commandIf (decide (idx < 1024) && decide (val < 2 ^ 32)) s fun s => s.viaWrite p (FWU_BLK_DATA_DATA.addr + 4 * idx) (·.blkData p idx val)

/-- DBG_UNLOCK (R401). -/
def execDbgUnlock (p : Path) (s : State) : Host.Outcome State Fault Refusal :=
  commandIf true s fun s => s.viaWrite p FWU_DBG_CMD_OP.addr State.unlock

/-- DBG_LOCK (R401). -/
def execDbgLock (p : Path) (s : State) : Host.Outcome State Fault Refusal :=
  commandIf true s fun s => s.viaWrite p FWU_DBG_CMD_OP.addr State.lock

/-! ### Recorder -/

/-- EXTENT_COMMITTED (R410). -/
def execExtentCommitted (drawer : Nat) (ok : Bool) (s : State) : Host.Outcome State Fault Refusal :=
  commandIf (decide (drawer < 48)) s fun s => (s.extentCommitted drawer ok).settle

/-- EVR_FLUSH (R409). -/
def execEvrFlush (p : Path) (s : State) : Host.Outcome State Fault Refusal :=
  commandIf true s fun s => s.viaWrite p EVR_CMD_OP.addr (·.startFlush 3)

/-- EVR_POST (R419). -/
def execEvrPost (p : Path) (s : State) : Host.Outcome State Fault Refusal :=
  commandIf true s fun s => s.viaWrite p EVR_POST_GO.addr (·.post p)

/-- EVR_WINDOW_READ (R408). -/
def execEvrWindowRead (p : Path) (idx : Nat) (s : State) : Host.Outcome State Fault Refusal :=
  commandIf (decide (idx < 1024)) s fun s => s.viaRead p (EVR_WINDOW_DATA.addr + 4 * idx) (·.windowRead p idx)

/-- EVR_CUR_WRITE (R408). -/
def execEvrCurWrite (p : Path) (seq : Nat) (s : State) : Host.Outcome State Fault Refusal :=
  commandIf true s fun s => s.viaWrite p EVR_CUR_SEQ.addr (·.moveCursor p seq)

/-- PMC_CLEAR (R414). -/
def execPmcClear (p : Path) (s : State) : Host.Outcome State Fault Refusal :=
  commandIf true s fun s => s.viaWrite p PMC_CMD_OP.addr State.pmcClear

end Sys2Proof.Machine
end

