-- ==== Sys2Proof/Machine/Commit.lean ====
section
/-! DEFINITION. The commit check: rules 0x01 to 0x0C over the pending copy, in order, then the seal or the rejection
(R30, R45 to R48, R200, R225, R226, R236, R251, R323, R452). -/

namespace Sys2Proof.Machine

open Sys2Proof.Reg

/-- The machine as the pending generation would have it: every class-L value read from the pending copy, all else as it
stands (R44). -/
def State.committed (s : State) : State := { s with regs := { s.regs with cur := s.regs.pend } }

/-- The first of `l` for which `bad` holds. -/
def firstBad (l : List Nat) (bad : Nat → Bool) : Option Nat := l.find? bad

/-- Instances of a bit-31 VALID field that are set in a generation whose VALID bits reset to 0. -/
def State.validOf (g : State) (f : Field) (count : Nat) : List Nat :=
  g.regs.cur.filterMap fun e => if e.2 = 1 then instanceOfKey f count e.1 else none

/-- 0x01: K and the epoch it gives (R30). -/
def checkEpoch (s g : State) : Option Nat :=
  let k := g.reg RTU_EPOCH_K
  if k ≤ 10 ∧ epochInRange s.checkPeriod s.rtuM s.rtuD k then none else some 0

/-- 0x02: SPLIT of every 800G port, and its running instances (R94) (DEDUCED, log entry 87). -/
def checkSplit (g : State) : Option Nat :=
  (List.range 8).findSome? fun p =>
    if g.split (4 * p) = 3 then some p
    else firstBad ((List.range 4).map (· + 4 * p)) fun i => g.portRuns i && !g.portInUse i

/-- Cells that the limits may give out: 655,360 less the acting spill reserve, which is U (R200, R202). -/
def State.usable (s : State) : Nat := s.cabUsable

/-- 0x03: the limits of every port, and of the system account (R200). -/
def checkLimits (g : State) : Option Nat :=
  let classes (p : Nat) : Nat := ((List.range 8).map fun c => g.reg CAB_CLASSLIM_CELLS (8 * p + c)).sum
  match firstBad (List.range 32) fun p => decide (g.usable < g.reg CAB_PORTLIM_CELLS p) || decide (g.usable < classes p) with
  | some p => some p
  | none => if g.usable < g.reg CAB_SYSLIM_CELLS then some 32 else none

/-- The ports with an account that names profile `f` (R199). -/
def State.profilePorts (g : State) (f : Nat) : List Nat :=
  (List.range 32).filter fun p => (List.range 8).any fun c =>
    g.reg CAB_CLASSLIM_PROF_IN (8 * p + c) == f || g.reg CAB_CLASSLIM_PROF_OUT (8 * p + c) == f

/-- 0x04: RED profiles by 3 × profile + colour, then the global profile by colour (R212). -/
def checkRed (g : State) : Option Nat :=
  let red (i : Nat) : Bool :=
    let ports := g.profilePorts (i / 3)
    let hi := g.reg CAB_RED_MAX i
    let tooHigh := if ports = [] then decide (g.usable < hi) else ports.any fun p => decide (g.reg CAB_PORTLIM_CELLS p < hi)
    decide (hi ≤ g.reg CAB_RED_MIN i) || decide (65536 < g.reg CAB_RED_PMAX i) || tooHigh
  let gred (c : Nat) : Bool :=
    decide (g.reg CAB_GRED_MAX c ≤ g.reg CAB_GRED_MIN c) || decide (g.usable < g.reg CAB_GRED_MAX c) ||
      decide (65536 < g.reg CAB_GRED_PMAX c)
  match firstBad (List.range 48) red with
  | some i => some i
  | none => (firstBad (List.range 3) gred).map (· + 48)

/-- A shaper's rate as its children see it: an off shaper counts at its parent's (R225). -/
def effective (rate parent : Nat) : Nat := if rate = 0 then parent else rate

/-- The rate of a port's shaper as its services see it. -/
def State.portShaper (g : State) (p : Nat) : Nat := effective (g.reg SCH_PORT_RATE p) (g.portRate p)

/-- 0x05: weights and shaper rates of ports, services and subscribers (R225) (DEDUCED, log entry 87). -/
def checkShapers (g : State) : Option Nat :=
  let port (p : Nat) : Bool := decide (g.portRate p < g.reg SCH_PORT_RATE p)
  let svc (n : Nat) : Bool :=
    (decide (n % 8 ≤ 5) && g.flag SCH_SVC_EN n && g.reg SCH_SVC_WEIGHT n == 0) ||
      decide (g.portShaper (n / 8) < g.reg SCH_SVC_RATE n)
  let top := ((List.range 32).filter g.portInUse).foldl (fun m p => max m (g.portShaper p)) 0
  let sub (u : Nat) : Bool :=
    (g.flag SCH_SUB_EN u && g.reg SCH_SUB_WEIGHT u == 0) || decide (top < g.reg SCH_SUB_RATE u)
  match firstBad (List.range 32) port with
  | some p => some p
  | none =>
    match firstBad (List.range 256) svc with
    | some n => some (0x0100 + n)
    | none => (firstBad (List.range 4096) sub).map (· + 0x1000)

/-- 0x06: the lines of a gate list's entries in use ascend strictly and lie below 4,096 (R226). -/
def checkGates (g : State) : Option Nat :=
  let line (p e : Nat) : Nat := g.reg SCH_GATE_LIST_LINE (256 * p + e)
  firstBad (List.range 32) fun p => (List.range (g.gateCount p)).any fun e =>
    decide (4096 ≤ line p e) || (e != 0 && decide (line p e ≤ line p (e - 1)))

/-- 0x07: a bound opcode names a LOADED slot of its own kind (R163). -/
def checkHandlers (g : State) : Option Nat :=
  firstBad (List.range 256) fun o => g.flag BNC_HANDLER_VALID o &&
    let k := g.reg BNC_HANDLER_SLOT o
    (g.reg BNC_SLOT_STATE_STATE k != 2 || decide (k < 32) == isUserOp o)

/-- A set exists in the pending generation (R251). -/
def setMayStand (s g : State) (k : Nat) : Bool :=
  let ks := changedKeys s.regs.cur g.regs.cur
  let same := !changedIn ks (0x2000100 + 0x10 * k) (0x2000110 + 0x10 * k) &&
    !changedIn ks (0x2000200 + 0x80 * k) (0x2000280 + 0x80 * k)
  g.setExists k && (same || !s.flag PAR_SET_EN k)

/-- A volume's placement breaks R251: its set, its base, its end, or an overlap. -/
def volBroken (s g : State) (vs : List Nat) (v : Nat) : Bool :=
  let k := g.volSet v
  let lo := g.volBase v
  let hi := lo + g.volSize v
  let meets (w : Nat) : Bool := w != v && g.volSet w == k && decide (g.volBase w < hi) && decide (lo < g.volBase w + g.volSize w)
  !setMayStand s g k || lo % 16 != 0 || decide (g.setRows k * g.setN k * g.setSb k < hi) || vs.any meets

/-- 0x08: key bindings, volumes and volume bindings (R236, R251, R452). -/
def checkBindings (s g : State) : Option Nat :=
  let vols := g.validOf PAR_VOL_VALID 16384
  let binds := g.validOf CMD_VOLBIND_VALID 32768
  let name (i : Nat) : Nat × Nat := (g.reg CMD_VOLBIND_SUB i, g.reg CMD_VOLBIND_VOLUME i)
  let badBind (i : Nat) : Bool := !vols.contains (name i).2 || binds.any fun j => decide (j < i) && name j == name i
  match firstBad (g.validOf CPH_VOLKEY_VALID 16384) fun v => (g.keySlot (g.reg CPH_VOLKEY_SLOT v)).kind != 1 with
  | some v => some v
  | none =>
    match firstBad (g.validOf CPH_SUBKEY_VALID 4096) fun u => (g.keySlot (g.reg CPH_SUBKEY_SLOT u)).kind != 3 with
    | some u => some (0x4000 + u)
    | none =>
      match firstBad vols (volBroken s g vols) with
      | some v => some v
      | none => (firstBad binds badBind).map (· + 0x8000)

/-- 0x09: each requester of an arbiter holds exactly one seat, every other seat is empty (R319, R323). -/
def checkSeats (g : State) : Option Nat :=
  firstBad (List.range 3) fun a =>
    let seats := (List.range 16).map fun k => g.reg ARB_SEAT_REQ (16 * a + k)
    let codes := List.range (if a = 2 then 7 else 12)
    (codes.any fun c => (seats.filter (· == c)).length != 1) || seats.any fun x => x != 0x1F && !codes.contains x

/-- 0x0A: the ledger drives: the named ones while LDG is stopped, else the active ones (R265)
(DEDUCED, log entry 87). -/
def checkLedger (s : State) : Option Nat :=
  if s.runs bLDG then
    let a := s.reg LDG_ACTIVE_A
    let b := s.reg LDG_ACTIVE_B
    let bad (d : Nat) : Bool := d != 0x3F && !s.flag DRV_STATE_PRESENT d
    if bad a then some a else if bad b then some b else if a = b ∧ a ≠ 0x3F then some b else none
  else
    let a := s.reg LDG_DRIVES_A
    let b := s.reg LDG_DRIVES_B
    if 47 < a then some a else if 47 < b ∨ a = b then some b else none

/-- 0x0B: the shares of the admitted reservations under the committed values stay within the cap in every epoch from now
on; it checks a commit that changes CMD_RSV_WR, CMD_RSV_RD or K (R149) (DEDUCED, log entry 87). -/
def checkPlan (s g : State) : Option Nat :=
  let ks := changedKeys s.regs.cur g.regs.cur
  if changedIn ks RTU_EPOCH_K.addr (RTU_EPOCH_K.addr + 4) ∨ changedIn ks CMD_RSV_WR_BW.addr (CMD_RSV_WR_BW.addr + 0x40) then
    let cycles := s.rtu.cycle :: (s.cmd.rsv.map (·.2.start)).filter (s.rtu.cycle < ·)
    firstBad (List.range 16) fun i =>
      let isRead := i % 2 == 1
      cycles.any fun c => decide (g.rsvCap (i / 2) isRead < g.admittedIn (i / 2) isRead c)
  else none

/-- 0x0C: BAR0 or MGMT keeps write permission to the CFG block. -/
def checkPaths (g : State) : Option Nat :=
  if (List.range 2).any fun i => bitOf (g.reg CFG_PATH_WR_ALLOW i) bCFG then none else some 0

/-- The first rule the pending copy breaks, and the instance that broke it (R48). -/
def State.commitCheck (s : State) : Option (Nat × Nat) :=
  let g := s.committed
  [(0x01, fun _ => checkEpoch s g), (0x02, fun _ => checkSplit g), (0x03, fun _ => checkLimits g), (0x04, fun _ => checkRed g),
   (0x05, fun _ => checkShapers g), (0x06, fun _ => checkGates g), (0x07, fun _ => checkHandlers g),
   (0x08, fun _ => checkBindings s g), (0x09, fun _ => checkSeats g), (0x0A, fun _ => checkLedger s),
   (0x0B, fun _ => checkPlan s g), (0x0C, fun (_ : Unit) => checkPaths g)].findSome? fun r => (r.2 ()).map fun i => (r.1, i)

/-- The commit check ends: the pending copy is sealed under its number, or the commit is rejected whole (R45 to R47). -/
def State.commitEnds (s : State) : State :=
  match s.cfg.checking with
  | none => s
  | some n =>
    let res := s.commitCheck
    let s := { s with cfg := { s.cfg with checking := none } }.setFlag CFG_STATUS_CHECKING 0 false
    match res with
    | some (rule, i) => (s.commitResult s.cfg.checkPath 1 rule i).logErr 0x06 s.cfg.checkPath CFG_COMMIT_GEN.addr rule
    | none =>
      let s := (s.commitResult s.cfg.checkPath 0 0 0).setFlag CFG_STATUS_SEALED 0 true
      ((s.setReg CFG_GEN_PENDING_GEN 0 n).switchIfUnsync.gatesFollow).settle

end Sys2Proof.Machine
end

