-- ==== Sys2Proof/Machine/RowsTime.lean ====
section
/-! DEFINITION. The rows of the clock, the register space, configuration and resets: one meaning per row, each over the shared operations of its family. -/

namespace Sys2Proof.Machine

open Sys2Proof.Reg

/-! ### Rtu -/

/-- RTU_START (R31). -/
def execRtuStart (p : Path) (s : State) : Host.Outcome State Fault Refusal :=
  command (.rtuStart p) s fun s => s.viaWrite p RTU_CMD_START.addr (·.rtuDoStart p)

/-- RTU_STOP (R37). -/
def execRtuStop (p : Path) (s : State) : Host.Outcome State Fault Refusal :=
  command (.rtuStop p) s fun s => s.viaWrite p RTU_CMD_STOP.addr (·.rtuDoStop p)

/-- REFERENCE_EDGE (R32). -/
def execReferenceEdge (t : RefEdge) (s : State) : Host.Outcome State Fault Refusal :=
  command (.referenceEdge t) s fun s => s.firstSchedulerLine (s.referenceEdgeAt t.time t.falling)

/-- PTP_VIRTUAL_EDGE (R23). -/
def execPtpVirtualEdge (n : Nat) (s : State) : Host.Outcome State Fault Refusal :=
  command (.ptpVirtualEdge n) s fun s => s.firstSchedulerLine (s.ptpEdge n)

/-- PTP_EVENT_MESSAGE (R25). -/
def execPtpEventMessage (lport master selected : Nat) (m : PtpMsg) (s : State) : Host.Outcome State Fault Refusal :=
  command (.ptpEventMessage lport master selected m) s (·.ptpMessage lport master selected m)

/-- PTP_REFERENCE_LOSS (R33). -/
def execPtpReferenceLoss (s : State) : Host.Outcome State Fault Refusal :=
  command .ptpReferenceLoss s State.ptpLost

/-- MISSED_EDGE (R33). -/
def execMissedEdge (s : State) : Host.Outcome State Fault Refusal := command .missedEdge s State.missEdge

/-! ### Boundary -/

/-- LINE_START (R28). -/
def execLineStart (s : State) : Host.Outcome State Fault Refusal := command .lineStart s State.nextLine

/-- WORKING_CYCLE_START (R31). -/
def execWorkingCycleStart (s : State) : Host.Outcome State Fault Refusal := command .workingCycleStart s State.nextCycle

/-- EPOCH_BOUNDARY (R36). -/
def execEpochBoundary (s : State) : Host.Outcome State Fault Refusal :=
  commandAtOnce Instr.epochBoundary.wellFormed s State.epochBoundary

/-! ### RegAccess -/

/-- REGISTER_WRITE (R40); `width` is in bytes. -/
def execRegisterWrite (p : Path) (addr width val : Nat) (s : State) : Host.Outcome State Fault Refusal :=
  command (.registerWrite p addr width val) s fun s => (s.regWrite p (pathOwner p) addr width val).2

/-- W1C_WRITE (R6, R8). -/
def execW1cWrite (p : Path) (addr val coincident : Nat) (s : State) : Host.Outcome State Fault Refusal :=
  command (.w1cWrite p addr val coincident) s (·.w1cWrite p addr val coincident)

/-- RC_READ (R6, R8). -/
def execRcRead (p : Path) (addr coincident : Nat) (s : State) : Host.Outcome State Fault Refusal :=
  command (.rcRead p addr coincident) s (·.rcRead p addr coincident)

/-- LOW_WORD_READ (R38). -/
def execLowWordRead (p : Path) (addr : Nat) (s : State) : Host.Outcome State Fault Refusal :=
  command (.lowWordRead p addr) s (·.readAnswer p addr)

/-! ### Cfg -/

/-- CFG_COMMIT (R44). -/
def execCfgCommit (p : Path) (gen : Nat) (s : State) : Host.Outcome State Fault Refusal :=
  command (.cfgCommit p gen) s fun s => s.viaWrite p CFG_COMMIT_GEN.addr (·.commitStart p gen)

/-- CFG_ROLLBACK (R49). -/
def execCfgRollback (p : Path) (s : State) : Host.Outcome State Fault Refusal :=
  command (.cfgRollback p) s fun s => s.viaWrite p CFG_CTRL_ROLLBACK.addr (·.rollback p)

/-- CFG_DISCARD (R49). -/
def execCfgDiscard (p : Path) (s : State) : Host.Outcome State Fault Refusal :=
  command (.cfgDiscard p) s fun s => s.viaWrite p CFG_CTRL_DISCARD.addr (·.discard p)

/-- CFG_VIEW_WRITE (R41): the instance's view changes for that path's next class-L read. -/
def execCfgViewWrite (p : Path) (inst view : Nat) (s : State) : Host.Outcome State Fault Refusal :=
  command (.cfgViewWrite p inst view) s fun s =>
    s.viaWrite p (CFG_VIEW_VIEW.addr + 4 * inst) (·.setReg CFG_VIEW_VIEW inst view)

/-- ERRLOG_POP (R54). -/
def execErrlogPop (p : Path) (s : State) : Host.Outcome State Fault Refusal :=
  command (.errlogPop p) s fun s => s.viaWrite p CFG_ERRLOG_POP_POP.addr State.popErr

/-! ### Commit -/

/-- COMMIT_CHECK_DONE (R45, R46). -/
def execCommitCheckDone (s : State) : Host.Outcome State Fault Refusal := command .commitCheckDone s State.commitEnds

/-! ### Top -/

/-- BLOCK_RESET (R427). -/
def execBlockReset (p : Path) (block : Nat) (s : State) : Host.Outcome State Fault Refusal :=
  commandIf (decide (block < 32)) s fun s => s.viaWrite p TOP_BLKRST_BLOCK.addr (·.blockReset block)

/-- BLOCK_RESET_DONE (R428). -/
def execBlockResetDone (s : State) : Host.Outcome State Fault Refusal := commandIf true s State.blockResetEnds

/-- DBG_RESET (R328). -/
def execDbgReset (s : State) : Host.Outcome State Fault Refusal := commandIf true s (·.abandonOwner .jtag)

/-- THERMAL_WARNING (R446); in a reset a sensor at its trip value still trips (R448). -/
def execThermalWarning (sensor temp : Nat) (s : State) : Host.Outcome State Fault Refusal :=
  let ok := decide (sensor < 8) && decide (temp < 2 ^ 16)
  if s.held then commandAlwaysIf ok s fun s => if s.trips sensor temp then s.trip else s
  else commandIf ok s (·.sensorReads sensor temp)

/-- CLOCK_LOSS (R444). -/
def execClockLoss (clk : Nat) (s : State) : Host.Outcome State Fault Refusal :=
  commandAlwaysIf (decide (clk < 5)) s (·.clockLost clk)

/-- CLOCK_RETURN (R444). -/
def execClockReturn (clk : Nat) (s : State) : Host.Outcome State Fault Refusal :=
  commandAlwaysIf (decide (clk < 5)) s (·.clockReturns clk)

/-! ### Reset -/

/-- POWER_ON_RESET (R422). -/
def execPowerOnReset (s : State) : Host.Outcome State Fault Refusal := commandAlwaysIf true s State.powerOn

/-- WARM_RESET (R423). -/
def execWarmReset (s : State) : Host.Outcome State Fault Refusal := commandAlwaysIf true s (·.warmReset 0)

/-- SHELF_RESET (R426). -/
def execShelfReset (s : State) : Host.Outcome State Fault Refusal := commandAlwaysIf true s (·.shelfReset 0)

/-- SELF_REFRESH_DONE (R426). -/
def execSelfRefreshDone (s : State) : Host.Outcome State Fault Refusal := commandAlwaysIf true s State.selfRefreshed

/-- THERMAL_TRIP (R447). -/
def execThermalTrip (s : State) : Host.Outcome State Fault Refusal := commandAlwaysIf true s State.trip

/-- WARM_RESET_CMD (R423). -/
def execWarmResetCmd (p : Path) (key : Nat) (s : State) : Host.Outcome State Fault Refusal :=
  commandIf (decide (key < 2 ^ 16)) s fun s => s.viaWrite p TOP_RESET_OP.addr (·.topReset key (·.warmReset 1))

/-- SHELF_RESET_CMD (R423). -/
def execShelfResetCmd (p : Path) (key : Nat) (s : State) : Host.Outcome State Fault Refusal :=
  commandIf (decide (key < 2 ^ 16)) s fun s => s.viaWrite p TOP_RESET_OP.addr (·.topReset key (·.shelfReset 1))

end Sys2Proof.Machine
end

