-- ==== Sys2Proof/Machine/Dispatch.lean ====
section
/-! DEFINITION. Which meaning each command has. -/

namespace Sys2Proof.Machine

/-- The effect of a command on everything but the queue. -/
def exec (i : Instr) (s : State) : Host.Outcome State Fault Refusal :=
  match i with
  | .registerWrite p addr width val => Sys2Proof.Machine.execRegisterWrite p addr width val s
  | .w1cWrite p addr val coincident => Sys2Proof.Machine.execW1cWrite p addr val coincident s
  | .rcRead p addr coincident => Sys2Proof.Machine.execRcRead p addr coincident s
  | .lowWordRead p addr => Sys2Proof.Machine.execLowWordRead p addr s
  | .rtuStart p => Sys2Proof.Machine.execRtuStart p s
  | .rtuStop p => Sys2Proof.Machine.execRtuStop p s
  | .referenceEdge t => Sys2Proof.Machine.execReferenceEdge t s
  | .ptpVirtualEdge n => Sys2Proof.Machine.execPtpVirtualEdge n s
  | .ptpEventMessage lport master selected m => Sys2Proof.Machine.execPtpEventMessage lport master selected m s
  | .ptpReferenceLoss => Sys2Proof.Machine.execPtpReferenceLoss s
  | .missedEdge => Sys2Proof.Machine.execMissedEdge s
  | .lineStart => Sys2Proof.Machine.execLineStart s
  | .workingCycleStart => Sys2Proof.Machine.execWorkingCycleStart s
  | .epochBoundary => Sys2Proof.Machine.execEpochBoundary s
  | .cfgCommit p gen => Sys2Proof.Machine.execCfgCommit p gen s
  | .commitCheckDone => Sys2Proof.Machine.execCommitCheckDone s
  | .cfgRollback p => Sys2Proof.Machine.execCfgRollback p s
  | .cfgDiscard p => Sys2Proof.Machine.execCfgDiscard p s
  | .cfgViewWrite p inst view => Sys2Proof.Machine.execCfgViewWrite p inst view s
  | .errlogPop p => Sys2Proof.Machine.execErrlogPop p s
  | .generationAreaWriteDone drawer record ok => Sys2Proof.Machine.execGenerationAreaWriteDone drawer record ok s
  | .generationRestoreDone slots => Sys2Proof.Machine.execGenerationRestoreDone slots s
  | .rxCmd m k => Sys2Proof.Machine.execRxCmd m k s
  | .rxData m k => Sys2Proof.Machine.execRxData m k s
  | .rxAck m k => Sys2Proof.Machine.execRxAck m k s
  | .rxNak m k => Sys2Proof.Machine.execRxNak m k s
  | .rxFlush m k => Sys2Proof.Machine.execRxFlush m k s
  | .rxFlushed m k => Sys2Proof.Machine.execRxFlushed m k s
  | .rxProbeRequest m k => Sys2Proof.Machine.execRxProbeRequest m k s
  | .rxProbeReply m k => Sys2Proof.Machine.execRxProbeReply m k s
  | .connectReq m k => Sys2Proof.Machine.execConnectReq m k s
  | .ctrlReady m k => Sys2Proof.Machine.execCtrlReady m k s
  | .ctrlKeepalive m k => Sys2Proof.Machine.execCtrlKeepalive m k s
  | .ctrlClose m k => Sys2Proof.Machine.execCtrlClose m k s
  | .ctrlClosed m k => Sys2Proof.Machine.execCtrlClosed m k s
  | .ctrlReset m k => Sys2Proof.Machine.execCtrlReset m k s
  | .mgmtRegRead m k => Sys2Proof.Machine.execMgmtRegRead m k s
  | .mgmtRegWrite m k => Sys2Proof.Machine.execMgmtRegWrite m k s
  | .mgmtAreaWrite m k => Sys2Proof.Machine.execMgmtAreaWrite m k s
  | .ackDelayExpiry conn => Sys2Proof.Machine.execAckDelayExpiry conn s
  | .retransmitTimeout conn => Sys2Proof.Machine.execRetransmitTimeout conn s
  | .rateIntervalEnd conn => Sys2Proof.Machine.execRateIntervalEnd conn s
  | .transmitOpportunity lport => Sys2Proof.Machine.execTransmitOpportunity lport s
  | .nltStart p lport => Sys2Proof.Machine.execNltStart p lport s
  | .nltStop p lport => Sys2Proof.Machine.execNltStop p lport s
  | .linkFault lport => Sys2Proof.Machine.execLinkFault lport s
  | .linkRecover lport => Sys2Proof.Machine.execLinkRecover lport s
  | .portDown lport => Sys2Proof.Machine.execPortDown lport s
  | .portFlushDone lport => Sys2Proof.Machine.execPortFlushDone lport s
  | .setupTimeout conn => Sys2Proof.Machine.execSetupTimeout conn s
  | .quarantineEnd conn => Sys2Proof.Machine.execQuarantineEnd conn s
  | .livenessExpiry conn => Sys2Proof.Machine.execLivenessExpiry conn s
  | .paramsSend lport => Sys2Proof.Machine.execParamsSend lport s
  | .contextFetchDone conn => Sys2Proof.Machine.execContextFetchDone conn s
  | .contextWritebackDone conn => Sys2Proof.Machine.execContextWritebackDone conn s
  | .ctxTeardown p conn => Sys2Proof.Machine.execCtxTeardown p conn s
  | .ctxPin p conn => Sys2Proof.Machine.execCtxPin p conn s
  | .ctxUnpin p conn => Sys2Proof.Machine.execCtxUnpin p conn s
  | .ctxClose p conn => Sys2Proof.Machine.execCtxClose p conn s
  | .read conn => Sys2Proof.Machine.execRead conn s
  | .write conn => Sys2Proof.Machine.execWrite conn s
  | .cmdFlush conn => Sys2Proof.Machine.execCmdFlush conn s
  | .writeZeroes conn => Sys2Proof.Machine.execWriteZeroes conn s
  | .deallocate conn => Sys2Proof.Machine.execDeallocate conn s
  | .compareWrite conn => Sys2Proof.Machine.execCompareWrite conn s
  | .abort conn => Sys2Proof.Machine.execAbort conn s
  | .regionRegister conn => Sys2Proof.Machine.execRegionRegister conn s
  | .regionRevoke conn => Sys2Proof.Machine.execRegionRevoke conn s
  | .cycleReserve conn => Sys2Proof.Machine.execCycleReserve conn s
  | .cycleRelease conn => Sys2Proof.Machine.execCycleRelease conn s
  | .identify conn => Sys2Proof.Machine.execIdentify conn s
  | .logRead conn => Sys2Proof.Machine.execLogRead conn s
  | .cmdKeepalive conn => Sys2Proof.Machine.execCmdKeepalive conn s
  | .userCommand conn => Sys2Proof.Machine.execUserCommand conn s
  | .grantTimeout grant => Sys2Proof.Machine.execGrantTimeout grant s
  | .commandDispatch frame thread => Sys2Proof.Machine.execCommandDispatch frame thread s
  | .commandResume frame thread cached => Sys2Proof.Machine.execCommandResume frame thread cached s
  | .requestComplete owner ticket => Sys2Proof.Machine.execRequestComplete owner ticket s
  | .userWallTimeout frame => Sys2Proof.Machine.execUserWallTimeout frame s
  | .imageLoad p slot => Sys2Proof.Machine.execImageLoad p slot s
  | .imageUnload p slot => Sys2Proof.Machine.execImageUnload p slot s
  | .imageLoadDone => Sys2Proof.Machine.execImageLoadDone s
  | .add t rd ra rb => Sys2Proof.Machine.execAdd t rd ra rb s
  | .sub t rd ra rb => Sys2Proof.Machine.execSub t rd ra rb s
  | .and t rd ra rb => Sys2Proof.Machine.execAnd t rd ra rb s
  | .or t rd ra rb => Sys2Proof.Machine.execOr t rd ra rb s
  | .xor t rd ra rb => Sys2Proof.Machine.execXor t rd ra rb s
  | .andn t rd ra rb => Sys2Proof.Machine.execAndn t rd ra rb s
  | .shl t rd ra rb => Sys2Proof.Machine.execShl t rd ra rb s
  | .shr t rd ra rb => Sys2Proof.Machine.execShr t rd ra rb s
  | .sar t rd ra rb => Sys2Proof.Machine.execSar t rd ra rb s
  | .mul t rd ra rb => Sys2Proof.Machine.execMul t rd ra rb s
  | .mulhu t rd ra rb => Sys2Proof.Machine.execMulhu t rd ra rb s
  | .seq t rd ra rb => Sys2Proof.Machine.execSeq t rd ra rb s
  | .sne t rd ra rb => Sys2Proof.Machine.execSne t rd ra rb s
  | .slt t rd ra rb => Sys2Proof.Machine.execSlt t rd ra rb s
  | .sltu t rd ra rb => Sys2Proof.Machine.execSltu t rd ra rb s
  | .sel t rd ra rb => Sys2Proof.Machine.execSel t rd ra rb s
  | .clz t rd ra => Sys2Proof.Machine.execClz t rd ra s
  | .popc t rd ra => Sys2Proof.Machine.execPopc t rd ra s
  | .addi t rd ra imm => Sys2Proof.Machine.execAddi t rd ra imm s
  | .andi t rd ra imm => Sys2Proof.Machine.execAndi t rd ra imm s
  | .ori t rd ra imm => Sys2Proof.Machine.execOri t rd ra imm s
  | .xori t rd ra imm => Sys2Proof.Machine.execXori t rd ra imm s
  | .shli t rd ra imm => Sys2Proof.Machine.execShli t rd ra imm s
  | .shri t rd ra imm => Sys2Proof.Machine.execShri t rd ra imm s
  | .sari t rd ra imm => Sys2Proof.Machine.execSari t rd ra imm s
  | .seth t p rd ra imm => Sys2Proof.Machine.execSeth t p rd ra imm s
  | .seqi t rd ra imm => Sys2Proof.Machine.execSeqi t rd ra imm s
  | .slti t rd ra imm => Sys2Proof.Machine.execSlti t rd ra imm s
  | .sltiu t rd ra imm => Sys2Proof.Machine.execSltiu t rd ra imm s
  | .load t rt ra sp w off => Sys2Proof.Machine.execLoad t rt ra sp w off s
  | .loads t rt ra sp w off => Sys2Proof.Machine.execLoads t rt ra sp w off s
  | .store t rt ra sp w off => Sys2Proof.Machine.execStore t rt ra sp w off s
  | .aadd t rt ra off => Sys2Proof.Machine.execAadd t rt ra off s
  | .bz t ra disp => Sys2Proof.Machine.execBz t ra disp s
  | .bnz t ra disp => Sys2Proof.Machine.execBnz t ra disp s
  | .jal t ra disp => Sys2Proof.Machine.execJal t ra disp s
  | .jalr t rd ra => Sys2Proof.Machine.execJalr t rd ra s
  | .wait t rd ra => Sys2Proof.Machine.execWait t rd ra s
  | .park t ra => Sys2Proof.Machine.execPark t ra s
  | .drop t ra => Sys2Proof.Machine.execDrop t ra s
  | .endThread t => Sys2Proof.Machine.execEndThread t s
  | .rdtime t rd => Sys2Proof.Machine.execRdtime t rd s
  | .rdc t rd n => Sys2Proof.Machine.execRdc t rd n s
  | .mfence t => Sys2Proof.Machine.execMfence t s
  | .eret t => Sys2Proof.Machine.execEret t s
  | .wfi t => Sys2Proof.Machine.execWfi t s
  | .csrr t rd imm => Sys2Proof.Machine.execCsrr t rd imm s
  | .csrw t ra imm => Sys2Proof.Machine.execCsrw t ra imm s
  | .bureauInterrupt t => Sys2Proof.Machine.execBureauInterrupt t s
  | .bureauTimer t => Sys2Proof.Machine.execBureauTimer t s
  | .xreqCells t rd ra rb => Sys2Proof.Machine.execXreqCells t rd ra rb s
  | .xreqRelease t rd ra rb => Sys2Proof.Machine.execXreqRelease t rd ra rb s
  | .xreqEmitXrdy t rd ra rb => Sys2Proof.Machine.execXreqEmitXrdy t rd ra rb s
  | .xreqEmitData t rd ra rb => Sys2Proof.Machine.execXreqEmitData t rd ra rb s
  | .xreqEmitCmpl t rd ra rb => Sys2Proof.Machine.execXreqEmitCmpl t rd ra rb s
  | .xreqEmitCtrl t rd ra rb => Sys2Proof.Machine.execXreqEmitCtrl t rd ra rb s
  | .xreqEmitMgmt t rd ra rb => Sys2Proof.Machine.execXreqEmitMgmt t rd ra rb s
  | .xreqCipherEncrypt t rd ra rb => Sys2Proof.Machine.execXreqCipherEncrypt t rd ra rb s
  | .xreqCipherDecrypt t rd ra rb => Sys2Proof.Machine.execXreqCipherDecrypt t rd ra rb s
  | .xreqParityGen t rd ra rb => Sys2Proof.Machine.execXreqParityGen t rd ra rb s
  | .xreqParityUpdate t rd ra rb => Sys2Proof.Machine.execXreqParityUpdate t rd ra rb s
  | .xreqParityRecon t rd ra rb => Sys2Proof.Machine.execXreqParityRecon t rd ra rb s
  | .xreqParityCompare t rd ra rb => Sys2Proof.Machine.execXreqParityCompare t rd ra rb s
  | .xreqLedger t rd ra rb => Sys2Proof.Machine.execXreqLedger t rd ra rb s
  | .xreqDriveRead t rd ra rb => Sys2Proof.Machine.execXreqDriveRead t rd ra rb s
  | .xreqDriveWrite t rd ra rb => Sys2Proof.Machine.execXreqDriveWrite t rd ra rb s
  | .xreqDriveFlush t rd ra rb => Sys2Proof.Machine.execXreqDriveFlush t rd ra rb s
  | .xreqDriveDeallocate t rd ra rb => Sys2Proof.Machine.execXreqDriveDeallocate t rd ra rb s
  | .xreqTrack t rd ra rb => Sys2Proof.Machine.execXreqTrack t rd ra rb s
  | .xreqClear t rd ra rb => Sys2Proof.Machine.execXreqClear t rd ra rb s
  | .xreqDraw t rd ra rb => Sys2Proof.Machine.execXreqDraw t rd ra rb s
  | .xreqMark t rd ra rb => Sys2Proof.Machine.execXreqMark t rd ra rb s
  | .xreqRcheck t rd ra rb => Sys2Proof.Machine.execXreqRcheck t rd ra rb s
  | .xreqFilled t rd ra rb => Sys2Proof.Machine.execXreqFilled t rd ra rb s
  | .cabStart p => Sys2Proof.Machine.execCabStart p s
  | .cabStop p => Sys2Proof.Machine.execCabStop p s
  | .apertureRead drawer addr len => Sys2Proof.Machine.execApertureRead drawer addr len s
  | .apertureWrite drawer addr data => Sys2Proof.Machine.execApertureWrite drawer addr data s
  | .prpListRead drawer addr => Sys2Proof.Machine.execPrpListRead drawer addr s
  | .spillExtentDone group first count => Sys2Proof.Machine.execSpillExtentDone group first count s
  | .spillReturnDone group first => Sys2Proof.Machine.execSpillReturnDone group first s
  | .schStart p => Sys2Proof.Machine.execSchStart p s
  | .schStop p => Sys2Proof.Machine.execSchStop p s
  | .gateEntry lport entry => Sys2Proof.Machine.execGateEntry lport entry s
  | .keyImportPlain p slot kind => Sys2Proof.Machine.execKeyImportPlain p slot kind s
  | .keyImportKek p slot kind => Sys2Proof.Machine.execKeyImportKek p slot kind s
  | .keyImportBlob p slot kind => Sys2Proof.Machine.execKeyImportBlob p slot kind s
  | .keyExport p slot => Sys2Proof.Machine.execKeyExport p slot s
  | .keyErase p slot => Sys2Proof.Machine.execKeyErase p slot s
  | .keyOpDone => Sys2Proof.Machine.execKeyOpDone s
  | .pairTest p pair => Sys2Proof.Machine.execPairTest p pair s
  | .pairTestDone pair pass => Sys2Proof.Machine.execPairTestDone pair pass s
  | .cipherItemDone pair agree => Sys2Proof.Machine.execCipherItemDone pair agree s
  | .entropyHealthFail => Sys2Proof.Machine.execEntropyHealthFail s
  | .parStart p => Sys2Proof.Machine.execParStart p s
  | .parStop p => Sys2Proof.Machine.execParStop p s
  | .ldgStart p => Sys2Proof.Machine.execLdgStart p s
  | .ldgStop p => Sys2Proof.Machine.execLdgStop p s
  | .ledgerBatchDone drawer ok => Sys2Proof.Machine.execLedgerBatchDone drawer ok s
  | .resyncPieceDone set row off count disagree => Sys2Proof.Machine.execResyncPieceDone set row off count disagree s
  | .rbTarget p set pos drawer => Sys2Proof.Machine.execRbTarget p set pos drawer s
  | .rbReshape p set newn => Sys2Proof.Machine.execRbReshape p set newn s
  | .rbRevive p set drawer => Sys2Proof.Machine.execRbRevive p set drawer s
  | .rbPause p set => Sys2Proof.Machine.execRbPause p set s
  | .rbResume p set => Sys2Proof.Machine.execRbResume p set s
  | .rebuildPieceDone set => Sys2Proof.Machine.execRebuildPieceDone set s
  | .reshapeRowDone set => Sys2Proof.Machine.execReshapeRowDone set s
  | .reshapeStagingDone set => Sys2Proof.Machine.execReshapeStagingDone set s
  | .repairWritebackDone set pos block ok => Sys2Proof.Machine.execRepairWritebackDone set pos block ok s
  | .drvStart p => Sys2Proof.Machine.execDrvStart p s
  | .drvStop p => Sys2Proof.Machine.execDrvStop p s
  | .drawerPowerOn p d => Sys2Proof.Machine.execDrawerPowerOn p d s
  | .drawerPowerOff p d => Sys2Proof.Machine.execDrawerPowerOff p d s
  | .drawerControllerReset p d => Sys2Proof.Machine.execDrawerControllerReset p d s
  | .drawerReadmit p d => Sys2Proof.Machine.execDrawerReadmit p d s
  | .presenceDebounceEnd d => Sys2Proof.Machine.execPresenceDebounceEnd d s
  | .presenceLost d => Sys2Proof.Machine.execPresenceLost d s
  | .perstDelayEnd d => Sys2Proof.Machine.execPerstDelayEnd d s
  | .dlActive d width speed flit => Sys2Proof.Machine.execDlActive d width speed flit s
  | .initDelayEnd d => Sys2Proof.Machine.execInitDelayEnd d s
  | .trainingTimeout d => Sys2Proof.Machine.execTrainingTimeout d s
  | .driveRegisterAccessDone d v => Sys2Proof.Machine.execDriveRegisterAccessDone d v s
  | .driveLinkDown d cfs => Sys2Proof.Machine.execDriveLinkDown d cfs s
  | .nvmeCompletion d sq cid st => Sys2Proof.Machine.execNvmeCompletion d sq cid st s
  | .ioTimeout d sq cid => Sys2Proof.Machine.execIoTimeout d sq cid s
  | .adminTimeout d => Sys2Proof.Machine.execAdminTimeout d s
  | .pcieCompletionTimeout d => Sys2Proof.Machine.execPcieCompletionTimeout d s
  | .contextQuarantineEnd d sq cid => Sys2Proof.Machine.execContextQuarantineEnd d sq cid s
  | .asyncEvent d warning => Sys2Proof.Machine.execAsyncEvent d warning s
  | .driveAerMessage d unc cor hdr => Sys2Proof.Machine.execDriveAerMessage d unc cor hdr s
  | .drawerResetDone d ok => Sys2Proof.Machine.execDrawerResetDone d ok s
  | .sbdStart p => Sys2Proof.Machine.execSbdStart p s
  | .sbdStop p => Sys2Proof.Machine.execSbdStop p s
  | .bar2Read off len => Sys2Proof.Machine.execBar2Read off len s
  | .bar2Write off data => Sys2Proof.Machine.execBar2Write off data s
  | .sideboardUe requester addr owner => Sys2Proof.Machine.execSideboardUe requester addr owner s
  | .arbiterGrant arb => Sys2Proof.Machine.execArbiterGrant arb s
  | .seatMask arb seat => Sys2Proof.Machine.execSeatMask arb seat s
  | .seatUnmask arb seat => Sys2Proof.Machine.execSeatUnmask arb seat s
  | .lockAcquire who n => Sys2Proof.Machine.execLockAcquire who n s
  | .lockRelease who n gen => Sys2Proof.Machine.execLockRelease who n gen s
  | .lockRenew who n gen => Sys2Proof.Machine.execLockRenew who n gen s
  | .lockClean who n gen => Sys2Proof.Machine.execLockClean who n gen s
  | .lockStateRead who n => Sys2Proof.Machine.execLockStateRead who n s
  | .lockForce p n => Sys2Proof.Machine.execLockForce p n s
  | .lockLeaseExpiry n => Sys2Proof.Machine.execLockLeaseExpiry n s
  | .hngStart p => Sys2Proof.Machine.execHngStart p s
  | .hngStop p => Sys2Proof.Machine.execHngStop p s
  | .roleSwap p => Sys2Proof.Machine.execRoleSwap p s
  | .rejoin p => Sys2Proof.Machine.execRejoin p s
  | .detach p => Sys2Proof.Machine.execDetach p s
  | .hingeCopy h sections => Sys2Proof.Machine.execHingeCopy h sections s
  | .hingeCopyEnd h counts crc => Sys2Proof.Machine.execHingeCopyEnd h counts crc s
  | .hingeConfirm h epoch crc result => Sys2Proof.Machine.execHingeConfirm h epoch crc result s
  | .hingeAck h seq => Sys2Proof.Machine.execHingeAck h seq s
  | .hingeNak h seq => Sys2Proof.Machine.execHingeNak h seq s
  | .hingeSync h sections => Sys2Proof.Machine.execHingeSync h sections s
  | .hingeTime h time epoch flight => Sys2Proof.Machine.execHingeTime h time epoch flight s
  | .hingeRecorder h data => Sys2Proof.Machine.execHingeRecorder h data s
  | .hingeResendTimeout => Sys2Proof.Machine.execHingeResendTimeout s
  | .hingeAckTimer => Sys2Proof.Machine.execHingeAckTimer s
  | .hingeLinkDown lanes => Sys2Proof.Machine.execHingeLinkDown lanes s
  | .tetherFrame pair f => Sys2Proof.Machine.execTetherFrame pair f s
  | .tetherSend => Sys2Proof.Machine.execTetherSend s
  | .tetherSilent => Sys2Proof.Machine.execTetherSilent s
  | .copyEndMissed => Sys2Proof.Machine.execCopyEndMissed s
  | .watchdogLapse => Sys2Proof.Machine.execWatchdogLapse s
  | .contestTimeout drawer => Sys2Proof.Machine.execContestTimeout drawer s
  | .startDeferEnd => Sys2Proof.Machine.execStartDeferEnd s
  | .announceRepeat => Sys2Proof.Machine.execAnnounceRepeat s
  | .powerFailWarning => Sys2Proof.Machine.execPowerFailWarning s
  | .pfwRelease => Sys2Proof.Machine.execPfwRelease s
  | .slpStart p => Sys2Proof.Machine.execSlpStart p s
  | .slpStop p => Sys2Proof.Machine.execSlpStop p s
  | .slotOnCommand d => Sys2Proof.Machine.execSlotOnCommand d s
  | .slotOffCommand d => Sys2Proof.Machine.execSlotOffCommand d s
  | .startPhaseEnd d => Sys2Proof.Machine.execStartPhaseEnd d s
  | .rampComplete d => Sys2Proof.Machine.execRampComplete d s
  | .fastTrip d => Sys2Proof.Machine.execFastTrip d s
  | .limitingStart d => Sys2Proof.Machine.execLimitingStart d s
  | .limitingEnd d => Sys2Proof.Machine.execLimitingEnd d s
  | .faultTimerExpiry d => Sys2Proof.Machine.execFaultTimerExpiry d s
  | .powerGoodDebounceEnd d => Sys2Proof.Machine.execPowerGoodDebounceEnd d s
  | .powerGoodFail d => Sys2Proof.Machine.execPowerGoodFail d s
  | .retryDelayEnd d => Sys2Proof.Machine.execRetryDelayEnd d s
  | .retryCountClear d => Sys2Proof.Machine.execRetryCountClear d s
  | .controlLinkSilent => Sys2Proof.Machine.execControlLinkSilent s
  | .controlLinkRecover => Sys2Proof.Machine.execControlLinkRecover s
  | .feedOvercurrent f => Sys2Proof.Machine.execFeedOvercurrent f s
  | .feedReverseCurrent f => Sys2Proof.Machine.execFeedReverseCurrent f s
  | .adcSample bus slots feeds => Sys2Proof.Machine.execAdcSample bus slots feeds s
  | .mepPerst => Sys2Proof.Machine.execMepPerst s
  | .cfgReadySet p => Sys2Proof.Machine.execCfgReadySet p s
  | .functionLevelReset => Sys2Proof.Machine.execFunctionLevelReset s
  | .flrComplete => Sys2Proof.Machine.execFlrComplete s
  | .bmeClear => Sys2Proof.Machine.execBmeClear s
  | .bmeSet => Sys2Proof.Machine.execBmeSet s
  | .powerStateWrite d3 => Sys2Proof.Machine.execPowerStateWrite d3 s
  | .vectorAck p mask => Sys2Proof.Machine.execVectorAck p mask s
  | .msixMaskClear p v => Sys2Proof.Machine.execMsixMaskClear p v s
  | .l1IdleExpiry => Sys2Proof.Machine.execL1IdleExpiry s
  | .dmaStart p ch ctl => Sys2Proof.Machine.execDmaStart p ch ctl s
  | .dmaDone ch ok data => Sys2Proof.Machine.execDmaDone ch ok data s
  | .atsInvalidate addr size tag => Sys2Proof.Machine.execAtsInvalidate addr size tag s
  | .fwVerify p => Sys2Proof.Machine.execFwVerify p s
  | .fwProgram p => Sys2Proof.Machine.execFwProgram p s
  | .fwActivate p => Sys2Proof.Machine.execFwActivate p s
  | .fwCommitSvn p => Sys2Proof.Machine.execFwCommitSvn p s
  | .fwWriteRecovery p => Sys2Proof.Machine.execFwWriteRecovery p s
  | .fwClearStaging p => Sys2Proof.Machine.execFwClearStaging p s
  | .fwOpDone mismatch => Sys2Proof.Machine.execFwOpDone mismatch s
  | .blkDataWrite p idx val => Sys2Proof.Machine.execBlkDataWrite p idx val s
  | .dbgUnlock p => Sys2Proof.Machine.execDbgUnlock p s
  | .dbgLock p => Sys2Proof.Machine.execDbgLock p s
  | .boot => Sys2Proof.Machine.execBoot s
  | .evrFlush p => Sys2Proof.Machine.execEvrFlush p s
  | .evrPost p => Sys2Proof.Machine.execEvrPost p s
  | .evrWindowRead p idx => Sys2Proof.Machine.execEvrWindowRead p idx s
  | .evrCurWrite p seq => Sys2Proof.Machine.execEvrCurWrite p seq s
  | .extentCommitted drawer ok => Sys2Proof.Machine.execExtentCommitted drawer ok s
  | .pmcClear p => Sys2Proof.Machine.execPmcClear p s
  | .powerOnReset => Sys2Proof.Machine.execPowerOnReset s
  | .warmReset => Sys2Proof.Machine.execWarmReset s
  | .warmResetCmd p key => Sys2Proof.Machine.execWarmResetCmd p key s
  | .shelfReset => Sys2Proof.Machine.execShelfReset s
  | .shelfResetCmd p key => Sys2Proof.Machine.execShelfResetCmd p key s
  | .selfRefreshDone => Sys2Proof.Machine.execSelfRefreshDone s
  | .blockReset p block => Sys2Proof.Machine.execBlockReset p block s
  | .blockResetDone => Sys2Proof.Machine.execBlockResetDone s
  | .thermalWarning sensor temp => Sys2Proof.Machine.execThermalWarning sensor temp s
  | .thermalTrip => Sys2Proof.Machine.execThermalTrip s
  | .clockLoss clk => Sys2Proof.Machine.execClockLoss clk s
  | .clockReturn clk => Sys2Proof.Machine.execClockReturn clk s
  | .hingeLinkUp lanes => Sys2Proof.Machine.execHingeLinkUp lanes s
  | .mepLinkDown => Sys2Proof.Machine.execMepLinkDown s
  | .mepLinkUp width top => Sys2Proof.Machine.execMepLinkUp width top s
  | .msixEnable => Sys2Proof.Machine.execMsixEnable s
  | .atsEnableClear => Sys2Proof.Machine.execAtsEnableClear s
  | .endpointAerError unc cor hdr => Sys2Proof.Machine.execEndpointAerError unc cor hdr s
  | .entropySourceRecover => Sys2Proof.Machine.execEntropySourceRecover s
  | .arpOrNeighborSolicitation lport target v6 => Sys2Proof.Machine.execArpOrNeighborSolicitation lport target v6 s
  | .dbgReset => Sys2Proof.Machine.execDbgReset s
  | .prsntAssert d => Sys2Proof.Machine.execPrsntAssert d s
  | .cstsRdyTimeout d => Sys2Proof.Machine.execCstsRdyTimeout d s
  | .perstAssertEnd d => Sys2Proof.Machine.execPerstAssertEnd d s
  | .cqHeadDoorbellDelay d sq => Sys2Proof.Machine.execCqHeadDoorbellDelay d sq s

end Sys2Proof.Machine
end

