-- ==== Sys2Proof/Safety.lean ====
section
/-! DEFINITION. What counts as a safe run, none of whose steps stops, and the conditions in which the statements are told. -/

namespace Sys2Proof

open Sys2Proof.Machine Sys2Proof.Reg

/-- Every command that waits names units and field values the part has. -/
def Machine.State.queueOk (s : State) : Bool := s.pending.all Instr.wellFormed

/-- Path `p` may write at `addr`: JTAG with debug unlocked, and the block's bit set for the path (R56). -/
def Machine.State.mayWrite (s : State) (p : Path) (addr : Nat) : Bool :=
  !(p == .jtag && !s.flag FWU_DBG_CMD_UNLOCKED) && s.pathAllows p true ((blockOf addr).getD 0)

/-- The copies of the registers are tables with rising keys. -/
def Machine.RegFile.rising (r : RegFile) : Prop := SMap.risingFrom 0 r.live = true ∧ SMap.risingFrom 0 r.cur = true

/-- A Beykor word issues on thread `t` and passes on to the next one: the thread can issue, its budget is not spent, the
word is one of the thread's profile, and the next address lies in the code (R155, R166, R176, R179, R191). -/
def Machine.State.issues (s : State) (t : Nat) (b : BkWord) : Bool :=
  s.canIssue t && !s.budgetSpent t && b.wf && b.inProfile (s.profileOf t) && s.pcOk t ((s.thread t).pc + 4)

/-- A Beykor word issues on thread `t`, wherever control passes after it. -/
def Machine.State.starts (s : State) (t : Nat) (b : BkWord) : Bool :=
  s.canIssue t && !s.budgetSpent t && b.wf && b.inProfile (s.profileOf t)

/-- What a word that has acted in `u` and passes control to `pc` leaves. -/
def Machine.State.goesTo (u : State) (t pc : Nat) : State :=
  (u.onThread t fun x => { x with pc := pc }).countSlot t 1

/-- What a word that has acted in `u` leaves: the thread at the next address, its issue slot counted (R415). -/
def Machine.State.movesOn (s u : State) (t : Nat) : State :=
  (u.onThread t fun x => { x with pc := (s.thread t).pc + 4 }).countSlot t 1

/-- An outcome that is a next state. -/
def Machine.answersNext (o : Host.Outcome State Fault Refusal) : Prop := ∃ t, o = .next t

/-- A run of any length from `s` never stops with a fault or a refusal. -/
def Machine.State.safe (s : State) : Prop := ∀ n, answersNext (Host.Core.run core n s)

end Sys2Proof
end

