-- ==== Sys2Proof/Certificates/Slice0/Obligations.lean ====
section
/-! DEFINITION. What is to be proved of the machine. -/

open Sys2Proof Sys2Proof.Machine Sys2Proof.Reg

/-- A write of a register word acts as its class and its block's run state say (R40, R42, R46). For a register word
without class-C fields that the path may write, whose reserved bits are written as 0: REGISTER_WRITE of class L
stores in the pending copy while it is neither sealed nor being checked, else it is discarded and logged with
code 0x07; of class I it takes effect at once while the block is stopped, else it is discarded and logged with
code 0x01; of class S or K it is discarded and logged with code 0x02. The next state is given whole. -/
def Obligations.RegisterWriteFollowsItsClass : Prop :=
  ∀ (s : State) (p : Path) (a w : Nat) (ra : RegAt), s.takes = true → w < 2 ^ 32 → s.access p true a 4 = .ok ra →
    reservedBits ra.reg ra.off w = 0 → writesC ra = false →
    let locked := s.flag CFG_STATUS_SEALED || s.flag CFG_STATUS_CHECKING
    let runs := s.instRuns ((blockOf a).getD 0) ra.inst;
    (wordClass ra.reg ra.off = .L → locked = false → exec (.registerWrite p a 4 w) s =
      .next { s with regs := { s.regs with pend := putWord ra.reg ra.inst ra.off w s.regs.pend } }) ∧
    (wordClass ra.reg ra.off = .L → locked = true → exec (.registerWrite p a 4 w) s =
      .next ((s.logErr 0x07 p a).keepQueue s)) ∧
    (wordClass ra.reg ra.off = .I → runs = false → exec (.registerWrite p a 4 w) s =
      .next { s with regs := { s.regs with live := putWord ra.reg ra.inst ra.off w s.regs.live } }) ∧
    (wordClass ra.reg ra.off = .I → runs = true → exec (.registerWrite p a 4 w) s =
      .next ((s.logErr 0x01 p a).keepQueue s)) ∧
    (wordClass ra.reg ra.off = .S ∨ wordClass ra.reg ra.off = .K → exec (.registerWrite p a 4 w) s =
      .next ((s.logErr 0x02 p a).keepQueue s))

/-- w1c writes, rc reads and low-word reads complete as their words say (R6, R8, R38). For a word of event bits that
no command register holds, W1C_WRITE clears the bits written as 1 and the updates that coincide set theirs after
it; RC_READ answers the word and clears its counters, and updates that coincide count after it; LOW_WORD_READ of
a latching register answers the low word and latches the high word of the same instant. -/
def Obligations.ClearOnWriteAndReadThenCoincide : Prop :=
  ∀ (s : State) (p : Path) (a w co : Nat) (ra : RegAt), s.takes = true →
    (w < 2 ^ 32 → s.access p true a 4 = .ok ra → findReg a = some ra → reservedBits ra.reg ra.off w = 0 →
      writesC ra = true → s.commandWrite p (pathOwner p) a ra w = none →
      exec (.w1cWrite p a w co) s = .next ((((s.clearBits ra w).storeC ra w).setCoincident ra co).keepQueue s)) ∧
    (s.access p false a 4 = .ok ra → findReg a = some ra → ra.reg.addr ≠ EVR_WINDOW_DATA.addr →
      latching.contains (ra.reg.addr, ra.off) = false → ra.off < 4 →
      let t := (s.clearCounters ra).answerRead p [s.liveWord p none (s.viewOf p 1) ra.reg ra.inst ra.off];
      exec (.rcRead p a co) s = .next ((if co = 0 then t else t.countCoincident ra co).keepQueue s)) ∧
    (s.access p false a 4 = .ok ra → ra.reg.addr ≠ EVR_WINDOW_DATA.addr →
      latching.contains (ra.reg.addr, ra.off) = true →
      let word (o : Nat) : Nat := s.liveWord p none (s.viewOf p 1) ra.reg ra.inst o
      let high := SMap.put (latchKey p a) (word (ra.off + 4)) s.regs.latch
      let t : State := { s with regs := { s.regs with latch := high } };
      exec (.lowWordRead p a) s = .next (((t.clearCounters ra).answerRead p [word ra.off]).keepQueue s))

/-- RTU START and STOP complete where nothing refuses them (R27, R30, R31, R37). On a path that may write, RTU_START
of a stopped unit, with CFG_READY set, REF_CLK present, a source chosen and working cycle and epoch within their
limits, makes the unit run: with SRC = FREE or START_MODE set it is FREE and cycle 0 begins at once, else it
waits for edges. RTU_STOP stops a unit that no running block uses and holds its sub-line. Where a block still
uses it, RTU_STOP is refused with code 0x0B and changes nothing else. -/
def Obligations.ReferenceTimeStartsAndStops : Prop :=
  ∀ (s : State) (p : Path), s.takes = true → s.mayWrite p RTU_CMD_START.addr = true →
    (s.reg RTU_STATUS_STATE = rtuStopped → s.inRecovery = false → s.flag MEP_CTRL_CFG_READY = true →
      s.top.clocksLost.contains 0 = false → s.reg RTU_SRC_SRC ≠ 3 →
      cycleInRange (s.reg RTU_NOMPER_PERIOD) s.rtuM s.rtuD = true →
      epochInRange (s.reg RTU_NOMPER_PERIOD) s.rtuM s.rtuD (s.reg RTU_EPOCH_K) = true →
      let fresh : Rtu := { ptpMaster := s.rtu.ptpMaster, ptpStamps := s.rtu.ptpStamps }
      let u := ((({ s with rtu := fresh } : State).setReg RTU_PERIOD_PERIOD 0 (s.reg RTU_NOMPER_PERIOD)).setReg
        RTU_EPOCH_COUNT_COUNT 0 0).setRuns bRTU true;
      exec (.rtuStart p) s = .next ((if s.reg RTU_SRC_SRC = 2 ∨ s.flag RTU_SRC_START_MODE then
        (u.enterRtu rtuFree).firstLine s.ns else u.enterRtu rtuWaitEdge).keepQueue s)) ∧
    (s.reg RTU_STATUS_STATE ≠ rtuStopped → rtuUsers.any s.runs = false →
      let held := { s.rtu with heldSub := if s.linesRun then s.subLine else 0 };
      exec (.rtuStop p) s = .next (((({ s with rtu := held } : State).setRuns bRTU false).setFlag
        RTU_STATUS_SLEWING 0 false).enterRtu rtuStopped |>.keepQueue s)) ∧
    (s.reg RTU_STATUS_STATE ≠ rtuStopped → rtuUsers.any s.runs = true →
      exec (.rtuStop p) s = .next ((s.logErr 0x0B p RTU_CMD_STOP.addr).keepQueue s))

/-- An edge that qualifies while LOCKED is taken and moves the period by one sixteenth of the difference (R23, R24,
R32, R33, R453). REFERENCE_EDGE with SRC = FRAME (at its time less RTU_REF_DELAY) and PTP_VIRTUAL_EDGE with SRC
= PTP, LOCKED, of an edge that qualifies: the edge becomes the last qualified one, the run of qualified edges
grows by 1, the run of missed ones is 0, the next edge is expected one measured period after the one expected
now, and after a qualified edge with no miss between RTU_PERIOD moves by one sixteenth of the difference,
truncating toward zero. An edge that does not qualify counts a glitch and only becomes the last edge. With SRC =
FRAME an edge of the other polarity than RTU_SRC.EDGE is not sampled: only time passes. -/
def Obligations.QualifiedEdgesSteerThePeriod : Prop :=
  ∀ (s : State) (t n : Nat), s.takes = true → s.regs.rising → s.reg RTU_STATUS_STATE = rtuLocked →
    let edge (u : State) (x : Int) (r : Host.Outcome State Fault Refusal) : Prop :=
      ((u.edgeQualifies x = true) → ∃ v, r = .next v ∧ v.rtu.prevEdge = some x ∧ v.rtu.prevQual = some x ∧
        v.rtu.qualRun = u.rtu.qualRun + 1 ∧ v.rtu.missRun = 0 ∧ v.rtu.missedSince = false ∧
        (∀ y, u.rtu.expected = some y → v.rtu.expected = some (v.reg RTU_PERIOD_PERIOD + y)) ∧
        ∀ q, u.rtu.prevQual = some q → u.rtu.missedSince = false →
          v.reg RTU_PERIOD_PERIOD = newPeriod (u.reg RTU_PERIOD_PERIOD) (x - q) % 2 ^ 46) ∧
      (u.edgeQualifies x = false → r = .next (((({ u with rtu := { u.rtu with
        prevEdge := some x, qualRun := 0, missedSince := true } } : State).bump RTU_GLITCHES).raise RTU_EVENT_GLITCH).keepQueue s));
    (s.reg RTU_SRC_SRC = 0 → edge (s.advanceTo t) ((t : Int) - sint32 (s.reg RTU_REF_DELAY_DELAY))
      (exec (.referenceEdge { time := t, falling := s.flag RTU_SRC_EDGE }) s)) ∧
    (s.reg RTU_SRC_SRC = 0 → exec (.referenceEdge { time := t, falling := !s.flag RTU_SRC_EDGE }) s = .next (s.advanceTo t)) ∧
    (s.reg RTU_SRC_SRC = 1 → let x := s.reg RTU_PTP_PHASE_PHASE + n * s.reg RTU_PTP_PERIOD_PERIOD
      edge (s.advanceTo x) x (exec (.ptpVirtualEdge n) s))

/-- PTP messages are stamped, a lost reference and missed edges lead to HOLDOVER (R25, R33, R34). PTP_EVENT_MESSAGE
on any port, in or out, is stamped with the timebase; where its port, domain, transport and delay mechanism are
those of RTU_PTP_CFG it sets the selected master, and a change of the selected master loses the reference; a
Sync that comes in from it gives the servo an offset and a lock of its own (free values, log entry 11: the
model's choice). PTP_REFERENCE_LOSS with SRC = PTP, LOCKED, unlocks the servo and enters HOLDOVER. MISSED_EDGE
while LOCKED counts, moves the expected edge on by one period, and at the LOSS_COUNTth miss in a row enters
HOLDOVER. -/
def Obligations.PtpMessagesAndLosses : Prop :=
  ∀ (s : State), s.takes = true →
    (∀ lport master selected m, lport < 32 → m.domain < 256 → m.transport < 3 →
      let stamps := SMap.put (2 * lport + Bool.nat m.egress) s.ns s.rtu.ptpStamps
      let u : State := { s with rtu := { s.rtu with ptpStamps := stamps } }
      let v : State := { u with rtu := { u.rtu with ptpMaster := some selected } }
      let w := if s.rtu.ptpMaster = none ∨ s.rtu.ptpMaster = some selected then v else v.ptpLost
      let off := w.freeBits 32
      let lock := off.2.freeBits 1
      let mine := s.reg RTU_PTP_CFG_LPORT = lport ∧ s.reg RTU_PTP_CFG_DOMAIN = m.domain ∧
        s.reg RTU_PTP_CFG_TRANSPORT = m.transport ∧ (m.kind ≠ .sync → s.flag RTU_PTP_CFG_DELAY_MECH = (m.kind != .delayReq));
      (¬ mine → exec (.ptpEventMessage lport master selected m) s = .next (u.keepQueue s)) ∧
      (mine → exec (.ptpEventMessage lport master selected m) s = .next ((if m.kind = .sync ∧ m.egress = false ∧ master = selected then
        (lock.2.setReg RTU_PTP_OFFSET_OFFSET 0 off.1).setReg RTU_STATUS_PTP_LOCKED 0 lock.1 else w).keepQueue s))) ∧
    (s.reg RTU_SRC_SRC = 1 → s.reg RTU_STATUS_STATE = rtuLocked → exec .ptpReferenceLoss s =
      .next ((s.setFlag RTU_STATUS_PTP_LOCKED 0 false).enterHoldover.keepQueue s)) ∧
    (∀ x, s.rtu.expected = some x → s.reg RTU_STATUS_STATE = rtuLocked →
      let u := s.advanceTo ((x + (s.reg RTU_NOMPER_PERIOD / 2 ^ s.winShift : Nat)) / 65536).toNat
      let v := ({ u with rtu := { u.rtu with
        missRun := s.rtu.missRun + 1, qualRun := 0, missedSince := true, expected := some (x + s.reg RTU_PERIOD_PERIOD) } } :
          State).bump RTU_MISSED_EDGES;
      exec .missedEdge s = .next ((if s.rtu.missRun + 1 ≥ v.lossCount then v.enterHoldover else v).keepQueue s))

/-- Lines, working cycles and epoch boundaries run where they are due (R28, R31, R34, R36). LINE_START while lines
run and no boundary is owed ends in the next line of the same cycle, which begins at the end of the last one,
its boundary not yet run; WORKING_CYCLE_START after line 4095 begins line 0 of the next cycle there, counts a
cycle that starts in HOLDOVER, fills up reservations, renews what counts per cycle, sends keepalives and probes,
and tells the standby the time; EPOCH_BOUNDARY at a boundary that is owed raises the epoch count and runs the
nine actions in their order. Where no line may start, LINE_START and WORKING_CYCLE_START change nothing, and
where no boundary is owed, EPOCH_BOUNDARY changes nothing. -/
def Obligations.LinesAndEpochsAdvance : Prop :=
  ∀ (s : State),
    (s.takes = true → s.mayStartLine = true → s.rtu.line < 4095 →
      let u := s.startLine s.rtu.cycle (s.rtu.line + 1);
      exec .lineStart s = .next (u.planFlush.keepQueue s) ∧ u.rtu.line = s.rtu.line + 1 ∧ u.rtu.cycle = s.rtu.cycle ∧
        u.rtu.lineStart = s.rtu.lineStart + s.rtu.lineTicks ∧ u.ns = max s.ns u.rtu.lineStart ∧ u.rtu.boundaryDone = false) ∧
    (s.takes = true → s.mayStartLine = true → s.rtu.line = 4095 →
      let u := s.startLine (s.rtu.cycle + 1) 0
      let v := if u.reg RTU_STATUS_STATE = rtuHoldover then u.bump RTU_HOLD_CYCLES else u;
      exec .workingCycleStart s =
        .next ((v.refillReservations.renewCycle.sendKeepalives.probeRetired.tellTime.settle.planFlush).keepQueue s) ∧
        v.rtu.line = 0 ∧ v.rtu.cycle = s.rtu.cycle + 1 ∧ v.rtu.lineStart = s.rtu.lineStart + s.rtu.lineTicks ∧
        v.ns = max s.ns v.rtu.lineStart ∧ v.rtu.boundaryDone = false) ∧
    (s.held = false → s.boundaryOwed = true → s.regs.rising →
      let u := ({ s with rtu := { s.rtu with boundaryDone := true } } : State).setReg RTU_EPOCH_COUNT_COUNT 0 (s.epoch + 1)
      let v := u.boundarySeal.boundarySwitch.boundaryCopy;
      exec .epochBoundary s = .next ((v.countLeases.endPreserved.sendEvents.pumpAll.settle.planFlush).keepQueue s) ∧
        u.epoch = (s.epoch + 1) % 2 ^ 64 ∧ u.boundaryOwed = false) ∧
    (s.takes = true →
      (s.mayStartLine = false → exec .lineStart s = .next s ∧ exec .workingCycleStart s = .next s) ∧
      (s.rtu.line < 4095 → exec .workingCycleStart s = .next s) ∧ exec .epochBoundary s = .next s)

/-- A commit is sealed whole under its number, or rejected whole by the first rule it breaks (R44, R45, R46, R47,
R48). CFG_COMMIT with a number above the current one, no generation sealed or being checked and no rollback
pending, starts the check of the pending copy. At COMMIT_CHECK_DONE, where no rule of 0x01 to 0x0C is broken,
the commit result is 0, the generation is SEALED under its number, and it switches at once while no boundaries
occur. Where a rule is broken, the result gives the first such rule and the index, the error is logged with code
0x06, and all four copies of the configuration stay as they were. -/
def Obligations.CommitChecksTheWholePendingCopy : Prop :=
  ∀ (s : State), s.takes = true →
    (∀ p g, g < 2 ^ 32 → s.mayWrite p CFG_COMMIT_GEN.addr = true → s.genIdle = true → s.reg CFG_GEN_CURRENT_GEN < g →
      exec (.cfgCommit p g) s = .next ((({ s with cfg := { s.cfg with checking := some g, checkPath := p } } :
        State).setFlag CFG_STATUS_CHECKING 0 true).keepQueue s)) ∧
    (∀ n, s.cfg.checking = some n →
      let u := ({ s with cfg := { s.cfg with checking := none } } : State).setFlag CFG_STATUS_CHECKING 0 false;
      (s.commitCheck = none → exec .commitCheckDone s = .next ((((((u.commitResult s.cfg.checkPath 0 0 0).setFlag CFG_STATUS_SEALED 0
        true).setReg CFG_GEN_PENDING_GEN 0 n).switchIfUnsync.gatesFollow).settle).keepQueue s)) ∧
      (∀ rule i, s.commitCheck = some (rule, i) → ∃ v, exec .commitCheckDone s = .next v ∧
        v = (((u.commitResult s.cfg.checkPath 1 rule i).logErr 0x06 s.cfg.checkPath CFG_COMMIT_GEN.addr rule).keepQueue s)))

/-- Rollback, discard, the views and the error-log queue complete (R41, R49, R54). On a path that may write:
CFG_ROLLBACK with a previous generation, nothing sealed, checking or pending, sets ROLLBACK_PENDING and acts at
once while no boundaries occur; CFG_DISCARD makes the pending copy equal to the current one; both are refused
with code 0x08 otherwise. CFG_VIEW_WRITE sets the path's view; ERRLOG_POP removes the oldest entry. -/
def Obligations.RollbackDiscardAndErrorLog : Prop :=
  ∀ (s : State) (p : Path), s.takes = true →
    (s.mayWrite p CFG_CTRL_ROLLBACK.addr = true →
      (s.flag CFG_STATUS_PREV_VALID = true → s.genIdle = true → exec (.cfgRollback p) s =
        .next ((s.setFlag CFG_STATUS_ROLLBACK_PENDING 0 true).switchIfUnsync.gatesFollow.keepQueue s)) ∧
      (s.genIdle = true → exec (.cfgDiscard p) s = .next { s with regs := { s.regs with pend := s.regs.cur } }) ∧
      (s.genIdle = false →
        exec (.cfgRollback p) s = .next ((s.logErr 0x08 p CFG_CTRL_ROLLBACK.addr).keepQueue s) ∧
        exec (.cfgDiscard p) s = .next ((s.logErr 0x08 p CFG_CTRL_DISCARD.addr).keepQueue s))) ∧
    (∀ inst view, inst < 3 → view < 4 → s.mayWrite p (CFG_VIEW_VIEW.addr + 4 * inst) = true →
      exec (.cfgViewWrite p inst view) s = .next ((s.setReg CFG_VIEW_VIEW inst view).keepQueue s)) ∧
    (s.mayWrite p CFG_ERRLOG_POP_POP.addr = true → exec (.errlogPop p) s =
      .next { s with cfg := { s.cfg with errlog := s.cfg.errlog.tail } })

/-- Writes of the generation area and the restore complete (R51, R52, R53). GENERATION_AREA_WRITE_DONE of a body or
a record that reached its drive enters it into the write that runs, a replacement that was owed the generation
being done with its record; a failed write loses the ledger drive. GENERATION_RESTORE_DONE of a restore that
runs: where no slot qualifies LDG runs with the configuration as it is; where one does, the best one, or a
pair's standby's copy with a later number, replaces the current generation at once while no boundaries occur,
and otherwise waits for the next. -/
def Obligations.GenerationAreaWritesAndRestore : Prop :=
  ∀ (s : State), s.takes = true →
    (∀ d record, d < 48 →
      exec (.generationAreaWriteDone d record false) s = .next ((s.ledgerDriveLost d).settle.keepQueue s) ∧
      ((∀ r, (s.persistDone d record).ringOn d = some r → (record && r.genDue) = false) →
        exec (.generationAreaWriteDone d record true) s = .next ((s.persistDone d record).settle.keepQueue s)) ∧
      (∀ r, (s.persistDone d true).ringOn d = some r → r.genDue = true →
        exec (.generationAreaWriteDone d true true) s = .next (((s.persistDone d true).replacementDone d).settle.keepQueue s))) ∧
    (s.cfg.restoring = true → ∀ slots peer,
      (bestSlot (s.restoreSlots slots) = none → exec (.generationRestoreDone { slots := slots, peer := peer }) s = .next (s.ldgRun.keepQueue s)) ∧
      (∀ g, bestSlot (s.restoreSlots slots) = some g →
        let c : GenSlot := match peer with
          | some h => if g.gen < h.gen then { h with seq := g.seq, slot := g.slot } else g
          | none => g;
        exec (.generationRestoreDone { slots := slots, peer := peer }) s = .next ((if s.unsync then (s.applyRestore c).gatesFollow.ldgRun
          else { s with cfg := { s.cfg with restoring := false, restoreWait := some c } }).keepQueue s)))

/-- A packet that no row of R78 stops is accepted and acts by its type (R78, R79, R112, R206). A received packet of
a running port of an active part, in a frame within the MAC limit, with the port's UDP port and IP version,
unfragmented, with a legal header and matching HCHK, whose connection is known and whose context is cached with
nothing parked, not on a GCM connection and without TAG, whose message is not stale, and whose trailer matches:
an ACK, NAK or PROBE acts at once; a CMD, DATA, FLUSH, FLUSHED, CTRL or MGMT packet whose PSN is fresh, which
finds room for its cells (none for DATA that lies in its grant), is not policed away, not NAKed by a DATA row
and not dropped by RED, is marked received and acts once its cells are given back. acceptPkt is the last row of
R78. -/
def Obligations.AcceptedPacketsAct : Prop :=
  ∀ (s : State) (m : RxMeta) (k : Packet) (ci : Nat) (c : Conn), s.takes = true → rxWf m k = true →
    let u := s.bump NLT_RX_PKTS m.lport (s.pktAttr m k.conn)
    let w := (u.bump CTX_HITS 0 c.attr).touchConn ci;
    s.portRuns m.lport = true → (s.inRecovery = true ∨ s.pair ≠ pairFENCED) → frameLength m k ≤ macLimit →
    m.dport = s.reg NLT_UDP_DPORT m.lport →
    s.flag (if m.v6 then NLT_UDP_V6 else NLT_UDP_V4) m.lport = true → u.isActive = true → m.frag = false →
    u.findConn k.conn = some (ci, c) → c.known = true → c.cache = .cached → u.hasParked ci = false →
    Packet.has k flagTag = false → (w.conn ci).gcm = false →
    let head (t : PktType) : Prop := headerLegal t k = true ∧ k.hchk = headCheck t k ∧ k.crc = trailer t k
    let plain (t : PktType) (r : Host.Outcome State Fault Refusal) : Prop := head t →
      (t = .nak → w.staleTag (w.conn ci).id k.msgid = false) →
      r = .next ((w.acceptPkt ci m t k { nak := none, mark := false, colour := 0 }).settle.keepQueue s)
    let numbered (t : PktType) (r : Host.Outcome State Fault Refusal) : Prop := head t →
      let x := w.meter (w.conn ci).attr (w.conn ci).sub m (Packet.length k)
      let cells := if t = .data then 0 else cellsOf k.plen
      let red := x.2.ingressRed m t k (t == .data) x.1
      let landed := red.2.2.landPayload m cells;
      (w.conn ci).rx.psnPlace k.psn = .fresh →
      (t = .data ∨ t = .flush ∨ t = .flushed → x.2.staleTag (w.conn ci).id k.msgid = false) →
      (t = .data → x.2.dataNak (w.conn ci) k = none) →
      (0 < cells → x.2.arrivalFits (accountOf m.lport m.pcp) cells = true) →
      ¬(t ≠ .data ∧ x.1 = 2 ∧ x.2.flag SCH_SUB_RED_DROP (w.conn ci).sub = true) → red.1 = false →
      r = .next (((landed.liftPayload m cells).acceptPkt ci m t k { nak := none, mark := red.2.1, colour := x.1 }).settle.keepQueue s);
    plain .ack (exec (.rxAck m k) s) ∧ plain .nak (exec (.rxNak m k) s) ∧
    plain .probe (exec (.rxProbeRequest m k) s) ∧ plain .probe (exec (.rxProbeReply m k) s) ∧
    numbered .cmd (exec (.rxCmd m k) s) ∧ numbered .data (exec (.rxData m k) s) ∧
    numbered .flush (exec (.rxFlush m k) s) ∧ numbered .flushed (exec (.rxFlushed m k) s) ∧
    (k.conn ≠ 0 → ctrlLegal k = true → numbered .ctrl (exec (.ctrlReady m k) s) ∧ numbered .ctrl (exec (.ctrlKeepalive m k) s) ∧
      numbered .ctrl (exec (.ctrlClose m k) s) ∧ numbered .ctrl (exec (.ctrlClosed m k) s) ∧
      numbered .ctrl (exec (.ctrlReset m k) s)) ∧
    numbered .mgmt (exec (.mgmtRegRead m k) s) ∧ numbered .mgmt (exec (.mgmtRegWrite m k) s) ∧
    numbered .mgmt (exec (.mgmtAreaWrite m k) s)

/-- The timers of a connection, its context moves and a port's sending act where their time has come (R82, R86, R87,
R104, R105, R110, R112, R222). For a known connection found at ci: ACK_DELAY_EXPIRY with an arrival that waits
sends the ACK at its time; RETRANSMIT_TIMEOUT sends every late packet again, or tears the connection down where
one has used its retries; RATE_INTERVAL_END cuts or raises the rate and clears what it has seen; SETUP_TIMEOUT
and LIVENESS_EXPIRY close it once its limit has passed; QUARANTINE_END frees it where its conditions hold;
CONTEXT_FETCH_DONE caches a context that is being fetched and resumes its packets; CONTEXT_WRITEBACK_DONE lets a
context that is being written leave the cache. TRANSMIT_OPPORTUNITY of a port that sends lets a bypass packet
leave, else the packet its scheduler picks. -/
def Obligations.ConnectionTimersAct : Prop :=
  ∀ (s : State), s.takes = true →
    (∀ (id ci : Nat) (c : Conn), id < 2 ^ 24 → s.findConn id = some (ci, c) → c.known = true →
      (∀ t, c.rx.oldest = some t → exec (.ackDelayExpiry id) s =
        .next (((s.advanceTo (t + s.ackDelay c.lport)).sendAck ci c.rx.ackEnt).keepQueue s)) ∧
      exec (.retransmitTimeout id) s = .next ((if (s.timedOut c).any (fun r => decide (1 + s.retryMax c.lport ≤ r.sends))
        then s.retryExhausted ci else (s.timedOut c).foldl (fun s r => s.timeoutOne ci r) s).settle.keepQueue s) ∧
      (let hit := c.tx.ceLatest != c.tx.ceSeen || c.tx.timeout
       let r := if hit then max (s.reg NLT_RC_FLOOR_FLOOR c.lport) (c.tx.rate - c.tx.rate * max 1 (s.reg NLT_RC_CUT_CUT c.lport) / 256)
         else min (s.portRate c.lport) (c.tx.rate + s.reg NLT_RC_STEP_STEP c.lport)
       let u := s.updConn ci fun d => { d with tx := { d.tx with
         tokens := s.paceTokens d, tokAt := s.ns, rate := r, ceSeen := d.tx.ceLatest, timeout := false } };
       exec (.rateIntervalEnd id) s = .next ((if hit then u.bump NLT_CUTS c.lport c.attr else u).keepQueue s)) ∧
      (c.state = cSETUP → s.setupCycles ≤ s.rtu.cycle - c.sinceCycle →
        exec (.setupTimeout id) s = .next ((s.closeConn ci none).settle.keepQueue s)) ∧
      ((c.state = cOPEN ∨ c.state = cCLOSING) → s.liveLimit < s.rtu.cycle - c.lastRxCycle →
        exec (.livenessExpiry id) s = .next (((s.raise CTX_EVENT_LIVE_TEARDOWN).closeConn ci (some 2)).settle.keepQueue s)) ) ∧
    (∀ (id ci : Nat) (c : Conn), id < 2 ^ 24 → s.findConn id = some (ci, c) → s.mayFree c = true →
      exec (.quarantineEnd id) s = .next ((s.freeConn ci c).resumeLost.keepQueue s)) ∧
    (∀ (id : Nat), id < 2 ^ 24 → (s.conn (id % 2 ^ 18)).cache = .fetching →
      let u := (s.setCache (id % 2 ^ 18) .cached).touchConn (id % 2 ^ 18);
      exec (.contextFetchDone id) s = .next ((((u.parkedOf (id % 2 ^ 18)).foldl (fun s x => s.resumeParked x)
        (u.unparkAll (id % 2 ^ 18))).startFetches).settle.keepQueue s)) ∧
    (∀ (id : Nat) (c : Conn), id < 2 ^ 24 → SMap.find s.ctx.conns (id % 2 ^ 18) = some c → c.id = id → c.cache = .writing →
      exec (.contextWritebackDone id) s = .next ((s.setCache (id % 2 ^ 18) .home).startFetches.keepQueue s)) ∧
    (∀ port, port < 32 → s.portSends port = true →
      (∀ o, s.nlt.txq.find? (fun o => decide (o.port = port) && o.bypass && s.cipherRoom o) = some o →
        exec (.transmitOpportunity port) s = .next ((s.sendBypass o).settle.keepQueue s)) ∧
      (s.nlt.txq.find? (fun o => decide (o.port = port) && o.bypass && s.cipherRoom o) = none →
        let t := s.syncRounds port
        let hs := t.heads port
        let u := (hs.filter fun o => t.headState o == .guard).foldl (fun s o => s.bump SCH_GUARD_HOLDS port (s.outAttr o)) t;
        t.portOpen port = true → ∀ o v ci,
          u.pickPacket port (hs.filter fun o => u.headState o == .ready && u.onDie o.cells && u.cipherRoom o) = some (o, v) → o.ci = some ci → exec (.transmitOpportunity port) s = .next ((if o.retx then
            (v.unqueue o).sendAgain ci o else (v.unqueue o).sendFirst ci o).settle.keepQueue s)))

/-- NLT instances start and stop, and a port goes down when its link stays away (R94, R214, R430, R451). On a path
that may write NLT_CMD of an instance that is not stopping: NLT_START of a stopped one, with CAB and SCH
running, the port in use and an address set, makes it run; NLT_STOP of a running one sends RESETs and flushes
the port, and is done with PORT_FLUSH_DONE, which counts and reports what was freed. LINK_FAULT of a port begins
its hold, LINK_RECOVER before it is over ends it with nothing lost, PORT_DOWN at its end flushes the port. -/
def Obligations.PortsStartStopAndGoDown : Prop :=
  ∀ (s : State) (n : Nat), s.takes = true → n < 32 →
    (∀ p, s.mayWrite p (nltCmdAddr n) = true → s.flag NLT_RUN_STOPPING n = false →
      (s.portRuns n = false → s.inRecovery = false → s.runs bCAB = true → s.runs bSCH = true → s.portInUse n = true →
        (s.reg NLT_ADDR4_ADDR n ≠ 0 ∨ s.reg NLT_ADDR6_ADDR n ≠ 0) →
        exec (.nltStart p n) s = .next (((s.setFlag NLT_RUN_RUN n true).countPorts).keepQueue s)) ∧
      (s.portRuns n = true → let u := s.setFlag NLT_RUN_STOPPING n true
        exec (.nltStop p n) s = .next ((((u.homed n).foldl (fun s ci => s.sendShutdown ci) u).portGoesDown n).keepQueue s))) ∧
    (s.nlt.flushing.contains n = true →
      let c := SMap.get (0, 0) s.cab.flushed n
      let u : State := { s with nlt := { s.nlt with flushing := s.nlt.flushing.filter (· != n) },
                                cab := { s.cab with flushed := SMap.del n s.cab.flushed } }
      let v := (((u.bump CAB_FLUSHES).bumpBy CAB_FLUSH_CELLS 0 c.1 {}).raise CAB_EVENT_PORT_FLUSH).portRecord n 1 c.1 c.2 bCAB;
      exec (.portFlushDone n) s = .next ((if v.flag NLT_RUN_STOPPING n then
        ((v.setFlag NLT_RUN_STOPPING n false).setFlag NLT_RUN_RUN n false).countPorts else v).keepQueue s)) ∧
    (SMap.find s.cab.faultAt n = none → exec (.linkFault n) s = .next ((({ s with cab := { s.cab with
      faultAt := SMap.put n s.ns s.cab.faultAt } } : State).setReg CAB_PORTFILL_HOLDING n 1).keepQueue s)) ∧
    ((SMap.find s.cab.faultAt n).isSome = true → s.flag CAB_PORTFILL_HOLDING n = true → s.holdOver n = false →
      exec (.linkRecover n) s =
      .next ((({ s with cab := { s.cab with faultAt := SMap.del n s.cab.faultAt } } : State).setReg CAB_PORTFILL_HOLDING n
        0).keepQueue s)) ∧
    (∀ t, SMap.find s.cab.faultAt n = some t → s.portRuns n = true → s.flag CAB_PORTFILL_HOLDING n = true →
      exec (.portDown n) s = .next (((s.advanceTo (t + 1000 * max 1 (s.reg CAB_PORTDOWN_HOLD))).portGoesDown n).keepQueue s))

/-- CTX_CMD, PARAMS, setup and address resolution complete (R98, R102, R106, R107, R108, R111, R118, R351). On a
path that may write CTX_CMD, for a known connection: CTX_TEARDOWN closes it with RESET reason 0x01, CTX_PIN pins
it while the limit leaves room, CTX_UNPIN unpins it, CTX_CLOSE of an OPEN one that has sent none sends CLOSE.
PARAMS_SEND sends PARAMS on each OPEN connection of a port on which it is due. CONNECT_REQ on connection ID 0
that passes the header rows and the trailer and finds room is answered by the first row of R102 that holds. An
ARP request or Neighbor Solicitation for a running port's address of an active part is answered. -/
def Obligations.ConnectionCommandsAct : Prop :=
  ∀ (s : State), s.takes = true →
    (∀ p id ci c, id < 2 ^ 24 → s.mayWrite p CTX_CMD_OP.addr = true → s.findConn id = some (ci, c) → c.known = true →
      exec (.ctxTeardown p id) s = .next ((s.closeConn ci (some 1)).settle.keepQueue s) ∧
      (c.pin = false → (s.ctx.conns.filter fun e => e.2.pin).length < s.pinLimit →
        exec (.ctxPin p id) s = .next ((s.updConn ci fun c => { c with pin := true }).countCache.keepQueue s)) ∧
      exec (.ctxUnpin p id) s = .next ((s.updConn ci fun c => { c with pin := false }).countCache.keepQueue s) ∧
      (c.state = cOPEN → c.closeSent = false → exec (.ctxClose p id) s = .next (((s.sendCtrl ci 7 [] false).updConn ci
        fun c => { c with closeSent := true }).keepQueue s))) ∧
    (∀ port, port < 32 → exec (.paramsSend port) s = .next ((s.sendParams port).keepQueue s)) ∧
    (∀ m k, rxWf m k = true → k.conn = 0 → let u := s.bump NLT_RX_PKTS m.lport (s.pktAttr m k.conn)
      s.portRuns m.lport = true → (s.inRecovery = true ∨ s.pair ≠ pairFENCED) → frameLength m k ≤ macLimit → m.dport = s.reg NLT_UDP_DPORT m.lport →
      s.flag (if m.v6 then NLT_UDP_V6 else NLT_UDP_V4) m.lport = true → (u.isActive = true ∨ u.inRecovery = true) → m.frag = false →
      headerLegal .ctrl k = true → ctrlLegal k = true → k.hchk = headCheck .ctrl k → k.crc = trailer .ctrl k →
      u.arrivalFits (accountOf m.lport m.pcp) (cellsOf k.plen) = true →
      let v := (u.landPayload m (cellsOf k.plen)).liftPayload m (cellsOf k.plen);
      exec (.connectReq m k) s = .next ((v.connect m k).settle.keepQueue s)) ∧
    (∀ port target v6, port < 32 → (s.isActive = true ∨ s.inRecovery = true) → s.portRuns port = true → target ≠ 0 →
      (if v6 then s.reg NLT_ADDR6_ADDR port else s.reg NLT_ADDR4_ADDR port) = target →
      let sent := SMap.put (2 * port + Bool.nat v6) (target, v6) s.nlt.arpOut;
      exec (.arpOrNeighborSolicitation port target v6) s = .next { s with nlt := { s.nlt with arpOut := sent } })

/-- A delivered command with a tag in use is discarded, and one that every row of R130 lets pass is dispatched (R71,
R124, R130, R132, R137, R147, R151, R163). For each of the fifteen command rows (READ, WRITE, FLUSH,
WRITE_ZEROES, DEALLOCATE, COMPARE_WRITE, ABORT, REGION_REGISTER, REGION_REVOKE, CYCLE_RESERVE, CYCLE_RELEASE,
IDENTIFY, LOG_READ, KEEPALIVE, a user command): where the capsule at the front of the connection's inbox has the
row's opcode, the part dispatches and the connection is known, a command whose tag is in use with the same
incarnation is discarded with its cell, counted in CMD_TAG_CONFLICT and shown in CMD_EVENT, and nothing else
happens to it. Where its tag is not in use, the CSN is not above the host's CLOSE, a frame is free, the
connection is below its limit, the opcode is one of R124 or a bound user opcode, no fence holds the command and
no further check of R130 fails, the row takes the capsule out of the inbox, enters the command into the lowest
free frame and dispatches it. dispatchNow queues it for a Bench with its handler, takes its tracker entry and
its draw, and runs the commands that the dispatcher decides itself. -/
def Obligations.DeliveredCommandsAreDispatched : Prop :=
  ∀ (s : State) (conn ci : Nat) (d : Delivered) (cn : Conn), s.takes = true → conn < 2 ^ 24 →
    s.inboxHead conn = some d → s.dispatches = true → s.findConn d.conn = some (ci, cn) →
    let row (isRow : Nat → Bool) (r : Host.Outcome State Fault Refusal) : Prop := isRow (capField d.capsule 0 1) = true →
      let taken : State := { s with cmd := { s.cmd with inbox := s.cmd.inbox.erase d } };
      (s.tagInUse d = true → r = .next ((((taken.dropCell d.acc).bump CMD_TAG_CONFLICT 0 (d.attr taken)).raise CMD_EVENT_TAG_CONFLICT).settle.keepQueue s)) ∧
      ∀ (f : Nat), s.tagInUse d = false → (∀ x, cn.closeCsn = some x → serialBefore x d.csn = false) →
      s.freeFrame = some f → cn.inflight < min 65536 (max 1 (s.reg CMD_LIMITS_CONN_MAX)) →
      let op := capField d.capsule 0 1
      let c : Cmd := {
        conn := d.conn, msgid := d.msgid, csn := d.csn, sub := cn.sub, opcode := op, capsule := d.capsule,
        colour := d.colour, order := s.cmd.order, phase := .fenced, slot := builtinSlot, acc := d.acc }
      let inbox := s.cmd.inbox.erase d
      let frames := SMap.put f c s.cmd.frames
      let t : State := { s with cmd := { s.cmd with inbox := inbox, frames := frames, order := s.cmd.order + 1 } }
      let v := t.updConn ci fun k => { k with inflight := k.inflight + 1 };
      (c.fence = false ∨ v.fenceHolds f c = false) →
      ((isUserOp op = true ∧ s.bound op = true ∧ v.bound op = true) ∨
        (isUserOp op = false ∧ ∃ r, opRow op = some r ∧ v.dispatchChecks c r = none)) →
      r = .next ((v.dispatchNow f).settle.keepQueue s);
    row (· == opREAD) (exec (.read conn) s) ∧ row (· == opWRITE) (exec (.write conn) s) ∧
    row (· == opFLUSH) (exec (.cmdFlush conn) s) ∧ row (· == opWRITE_ZEROES) (exec (.writeZeroes conn) s) ∧
    row (· == opDEALLOCATE) (exec (.deallocate conn) s) ∧ row (· == opCOMPARE_WRITE) (exec (.compareWrite conn) s) ∧
    row (· == opABORT) (exec (.abort conn) s) ∧ row (· == opREGION_REGISTER) (exec (.regionRegister conn) s) ∧
    row (· == opREGION_REVOKE) (exec (.regionRevoke conn) s) ∧ row (· == opCYCLE_RESERVE) (exec (.cycleReserve conn) s) ∧
    row (· == opCYCLE_RELEASE) (exec (.cycleRelease conn) s) ∧ row (· == opIDENTIFY) (exec (.identify conn) s) ∧
    row (· == opLOG_READ) (exec (.logRead conn) s) ∧ row (· == opKEEPALIVE) (exec (.cmdKeepalive conn) s) ∧
    row isUserOp (exec (.userCommand conn) s)

/-- Handlers start and resume on a free thread, requests finish, grants and walls run out (R134, R157, R159, R160,
R166, R187). COMMAND_DISPATCH of the first queued command on a free thread that no resume needs counts the
dispatch and starts its handler there; COMMAND_RESUME of a parked command whose tickets are done restores its
saved registers and resume point; both run a handler without an image of its own as log entry 17 says (the
model's choice). REQUEST_COMPLETE finishes a ticket with the word that is ready, and a TRACK, CLEAR or FILLED
request once its condition holds. GRANT_TIMEOUT closes an open grant that has had no new DATA for TIMEOUT cycles
and fails its command; USER_WALL_TIMEOUT faults a user command with code 0x0B11. -/
def Obligations.HandlersStartResumeAndFinish : Prop :=
  ∀ (s : State) (f t : Nat), s.takes = true → f < 65536 → t < 512 →
    (∀ c, s.frame f = some c → c.phase = .queued → s.firstQueued f c = true → s.threadFree t = true →
      s.noThread = false →
      let u := (s.updFrame f fun c => { c with issued := 0 }).bump BNC_DISPATCHES 0 (c.attr s);
      (c.slot = builtinSlot → exec (.commandDispatch f t) s = .next ((u.runBuiltin f t).settle.keepQueue s)) ∧
      (∀ im, c.slot ≠ builtinSlot → SMap.find u.bnc.images c.slot = some im → exec (.commandDispatch f t) s =
        .next ((u.takeThread f t (im.entries.getD c.entry (0, false)).1).settle.keepQueue s))) ∧
    (∀ c m cached, s.frame f = some c → c.phase = .parked m → s.allDone f m = true → s.threadFree t = true →
      let r := s.bump BNC_RESUMES 0 (c.attr s)
      let u := if cached then r else r.bump BNC_FRAME_MISSES 0 (c.attr r);
      exec (.commandResume f t cached) s = .next ((if c.slot = builtinSlot then u.runBuiltin f t
        else ((u.takeThread f t c.resumePc).updThread t fun th => { th with g := savedRegs c.saved }).freeThreadState
          t).settle.keepQueue s)) ∧
    (∀ o k (tk : Ticket), k < 64 → s.ticket o k = some tk → tk.done = none →
      (∀ w, tk.ready = some w → exec (.requestComplete o k) s = .next ((s.finishTicket o k w).settle.keepQueue s)) ∧
      (tk.ready = none → (tk.req = .track ∧ s.trackFree o = true) ∨ (∃ g a n, tk.req = .filled g a n ∧ s.isFilled g a n = true) →
        exec (.requestComplete o k) s = .next ((s.finishTicket o k 0).settle.keepQueue s))) ∧
    (∀ k g, k < 131072 → SMap.find s.ctx.grants k = some g → g.isOpen = true →
      max 1 (s.reg CMD_GRANT_TIMEOUT) ≤ s.rtu.cycle - g.lastCycle →
      exec (.grantTimeout k) s = .next (((((s.setGrant k { g with isOpen := false }).bump CMD_GRANT_TIMEOUTS 0
        ((s.setGrant k { g with isOpen := false }).cmdAttr (some g.owner))).raise
        CMD_EVENT_GRANT_TIMEOUT).failData g.owner 0x0004 4 0).settle.keepQueue s)) ∧
    (∀ c, s.frame f = some c → 32 ≤ c.slot → c.slot < 64 → c.comp = none → s.wall ≤ s.rtu.cycle - c.dispatchCycle →
      (c.phase = .running t → exec (.userWallTimeout f) s =
        .next ((s.faultCommand f 0x0B11 (s.thread t).pc 0).settle.keepQueue s)) ∧
      (c.phase = .queued → exec (.userWallTimeout f) s = .next ((s.faultCommand f 0x0B11 c.resumePc 0).settle.keepQueue s)))

/-- A handler image is loaded into an empty slot, verified, and unloaded from a free one (R164, R171, R172, R173).
On a path that may write BNC_LOAD_CMD (the Bureau alone for slots below 32), with no load running: IMAGE_LOAD of
an EMPTY slot makes it LOADING and BUSY; IMAGE_LOAD_DONE takes the checks' result, the slot holding the image
where they pass and EMPTY where they do not; IMAGE_UNLOAD of a slot nothing binds or runs empties it and frees
its code store. -/
def Obligations.ImagesLoadAndUnload : Prop :=
  ∀ (s : State) (p : Path) (k : Nat), s.takes = true → k < 64 →
    (s.mayWrite p BNC_LOAD_CMD_OP.addr = true → (32 ≤ k ∨ p = .bureau) → s.flag BNC_LOAD_STATUS_BUSY = false →
      (s.reg BNC_SLOT_STATE_STATE k = slotEmpty →
        let u : State := { s with bnc := { s.bnc with loading := some (k, s.reg BNC_LOAD_ADDR_ADDR) } };
        exec (.imageLoad p k) s = .next (((u.setReg BNC_SLOT_STATE_STATE k slotLoading).setFlag BNC_LOAD_STATUS_BUSY 0
          true).setReg BNC_LOAD_STATUS_SLOT 0 k |>.keepQueue s)) ∧
      (s.slotInUse k = false →
        let u : State := { s with bnc := { s.bnc with images := SMap.del k s.bnc.images } }
        let v := (u.setReg BNC_SLOT_STATE_STATE k slotEmpty).setReg BNC_SLOT_STATE_KIND k 0;
        exec (.imageUnload p k) s = .next ((((v.setReg BNC_SLOT_STATE_CODE_KIB k 0).setReg BNC_CODE_USED_COUNT 0
          v.codeUsed).loadEnds k 0).keepQueue s))) ∧
    (∀ a, s.bnc.loading = some (k, a) →
      let u := ({ s with bnc := { s.bnc with loading := none } } : State).setFlag BNC_LOAD_STATUS_BUSY 0 false;
      (∀ r im, s.checkImage k a = (r, some im) → exec .imageLoadDone s = .next (((u.putImage k im).loadEnds k r).keepQueue s)) ∧
      (∀ r, s.checkImage k a = (r, none) → exec .imageLoadDone s =
        .next (((u.setReg BNC_SLOT_STATE_STATE k slotEmpty).loadEnds k r).keepQueue s)))

/-- Every ALU operation of Beykor writes RD as its row of R177 says (R177). For a thread on which the word issues:
the row's result, computed from the old RA, RB and RD, is written to RD (a write to g0 is discarded), control
passes to the next word and the issue slot is counted; the next state is given whole, so nothing else changes.
The results are written out here as the table of R177 has them. -/
def Obligations.AluResults : Prop :=
  ∀ (s : State) (t rd ra rb : Nat), s.takes = true → rd < 32 → ra < 32 → rb < 32 →
    let th := s.thread t
    let a := th.rg ra
    let b := th.rg rb
    let leaves (v : DWord) (r : Host.Outcome State Fault Refusal) : Prop :=
      r = .next ((s.movesOn ((s.countIssue t).onThread t fun x => x.setG rd v) t).keepQueue s)
    let two (op : AluOp) : Prop := s.issues t (.alu op rd ra rb) = true
    let one (op : AluOp) : Prop := s.issues t (.alu op rd ra 0) = true;
    (two .add → leaves (a + b) (exec (.add t rd ra rb) s)) ∧
    (two .sub → leaves (a - b) (exec (.sub t rd ra rb) s)) ∧
    (two .and → leaves (a &&& b) (exec (.and t rd ra rb) s)) ∧
    (two .or → leaves (a ||| b) (exec (.or t rd ra rb) s)) ∧
    (two .xor → leaves (a ^^^ b) (exec (.xor t rd ra rb) s)) ∧
    (two .andn → leaves (a &&& ~~~ b) (exec (.andn t rd ra rb) s)) ∧
    (two .shl → leaves (a <<< (b.toNat % 64)) (exec (.shl t rd ra rb) s)) ∧
    (two .shr → leaves (a >>> (b.toNat % 64)) (exec (.shr t rd ra rb) s)) ∧
    (two .sar → leaves (a.sshiftRight (b.toNat % 64)) (exec (.sar t rd ra rb) s)) ∧
    (two .mul → leaves (BitVec.ofNat 64 (a.toNat * b.toNat)) (exec (.mul t rd ra rb) s)) ∧
    (two .mulhu → leaves (BitVec.ofNat 64 (a.toNat * b.toNat / 2 ^ 64)) (exec (.mulhu t rd ra rb) s)) ∧
    (two .seq → leaves (if a = b then 1 else 0) (exec (.seq t rd ra rb) s)) ∧
    (two .sne → leaves (if a ≠ b then 1 else 0) (exec (.sne t rd ra rb) s)) ∧
    (two .slt → leaves (if a.toInt < b.toInt then 1 else 0) (exec (.slt t rd ra rb) s)) ∧
    (two .sltu → leaves (if a.toNat < b.toNat then 1 else 0) (exec (.sltu t rd ra rb) s)) ∧
    (two .sel → leaves (if th.rg rd ≠ 0 then a else b) (exec (.sel t rd ra rb) s)) ∧
    (one .clz → ∃ n, n ≤ 64 ∧ a.toNat < 2 ^ (64 - n) ∧ (n < 64 → 2 ^ (63 - n) ≤ a.toNat) ∧
      leaves (BitVec.ofNat 64 n) (exec (.clz t rd ra) s)) ∧
    (one .popc → leaves (BitVec.ofNat 64 ((List.range 64).filter fun i => a.getLsbD i).length) (exec (.popc t rd ra) s))

/-- Every I-format operation of Beykor writes RD as its row of R178 says (R178). For a thread on which the word
issues: the row's result, computed from the old RA and IMM, sign-extended or zero-extended as the row says, is
written to RD (a write to g0 is discarded), control passes to the next word and the issue slot is counted; the
next state is given whole. A shift word with IMM bits 15:6 not 0 does not issue as one (its word does not
decode), so the hypothesis that the word issues carries that condition. -/
def Obligations.ImmediateResults : Prop :=
  ∀ (s : State) (t rd ra : Nat) (imm : BitVec 16), s.takes = true → rd < 32 → ra < 32 →
    let a := (s.thread t).rg ra
    let sx : DWord := imm.signExtend 64
    let zx : DWord := imm.zeroExtend 64
    let leaves (v : DWord) (r : Host.Outcome State Fault Refusal) : Prop :=
      r = .next ((s.movesOn ((s.countIssue t).onThread t fun x => x.setG rd v) t).keepQueue s)
    let word (op : ImmOp) : Prop := s.issues t (.imm op rd ra imm.toNat) = true;
    (word .addi → leaves (a + sx) (exec (.addi t rd ra imm) s)) ∧
    (word .andi → leaves (a &&& zx) (exec (.andi t rd ra imm) s)) ∧
    (word .ori → leaves (a ||| zx) (exec (.ori t rd ra imm) s)) ∧
    (word .xori → leaves (a ^^^ zx) (exec (.xori t rd ra imm) s)) ∧
    (word .shli → imm.toNat < 64 ∧ leaves (a <<< imm.toNat) (exec (.shli t rd ra imm) s)) ∧
    (word .shri → imm.toNat < 64 ∧ leaves (a >>> imm.toNat) (exec (.shri t rd ra imm) s)) ∧
    (word .sari → imm.toNat < 64 ∧ leaves (a.sshiftRight imm.toNat) (exec (.sari t rd ra imm) s)) ∧
    (word .seqi → leaves (if a = sx then 1 else 0) (exec (.seqi t rd ra imm) s)) ∧
    (word .slti → leaves (if a.toInt < sx.toInt then 1 else 0) (exec (.slti t rd ra imm) s)) ∧
    (word .sltiu → leaves (if a.toNat < zx.toNat then 1 else 0) (exec (.sltiu t rd ra imm) s)) ∧
    (∀ p op, (p, op) ∈ [(0, ImmOp.seth0), (1, ImmOp.seth1), (2, ImmOp.seth2), (3, ImmOp.seth3)] → word op →
      ∃ v : DWord, (∀ i, i < 64 → v.getLsbD i = if i / 16 = p then imm.getLsbD (i % 16) else a.getLsbD i) ∧
        leaves v (exec (.seth t p rd ra imm) s))

/-- BZ, BNZ, JAL and JALR pass control as R179 says, or raise TARGET (R179). For a thread on which the word issues:
BZ goes to PC + 4 x DISP where ra is 0 and to the next word otherwise, BNZ the other way round; JAL and JALR
write PC + 4 into their register first, JALR after reading ra, and go to PC + 4 x DISP and to the value read.
Control that would pass to an address that is not a multiple of 4 or not inside the code raises TARGET with that
address, and the word does not act; so does the fall-through of a branch. -/
def Obligations.BranchesAndJumps : Prop :=
  ∀ (s : State) (t rd ra : Nat) (disp : BitVec 20), s.takes = true → rd < 32 → ra < 32 →
    let th := s.thread t
    let next : Int := th.pc + 4
    let target : Int := th.pc + 4 * disp.toInt
    let passes (u : State) (dest : Int) (r : Host.Outcome State Fault Refusal) : Prop :=
      r = if s.pcOk t dest then .next ((u.goesTo t dest.toNat).keepQueue s)
        else .next ((s.trap t excTARGET (some (BitVec.ofInt 64 dest))).keepQueue s)
    let u := s.countIssue t
    let linked (r : Nat) := u.onThread t fun x => x.setG r (BitVec.ofNat 64 (th.pc + 4));
    (s.starts t (.branch .bz ra disp.toNat) = true → passes u (if th.rg ra = 0 then target else next) (exec (.bz t ra disp) s)) ∧
    (s.starts t (.branch .bnz ra disp.toNat) = true → passes u (if th.rg ra ≠ 0 then target else next) (exec (.bnz t ra disp) s)) ∧
    (s.starts t (.branch .jal ra disp.toNat) = true → passes (linked ra) target (exec (.jal t ra disp) s)) ∧
    (s.starts t (.jalr rd ra) = true → passes (linked rd) (th.rg ra).toNat (exec (.jalr t rd ra) s))

/-- LOAD, LOADS, STORE and AADD in local memory and in the Sideboard, and what they raise (R3, R180, R181, R182,
R190). With ra + OFF, OFF sign-extended, as the address a: an address that is not a multiple of the width raises
ALIGN; a local address outside the thread's memory, and a Bench's store below 64, raises LOCAL; an absolute
Sideboard address at or above 48 GiB raises SIDEBOARD; nothing else then acts. LOAD and LOADS write the
little-endian bytes at a, zero-extended and sign-extended; STORE writes rt's low bytes; AADD writes the old
64-bit word into rt and the sum into the Sideboard. Sideboard accesses go through the thread's seat on the
address's arbiter; a Bureau word in space 3 reads and writes its register copy. The next states are given whole. -/
def Obligations.LoadsAndStores : Prop :=
  ∀ (s : State) (t rt ra sp w : Nat) (off : BitVec 12), s.takes = true → rt < 32 → ra < 32 → sp < 4 → w < 4 →
    let th := s.thread t
    let a := (th.rg ra + off.signExtend 64).toNat
    let ea : DWord := th.rg ra + off.signExtend 64
    let u := s.countIssue t
    let v := th.rg rt
    let raises (code : Nat) (r : Host.Outcome State Fault Refusal) : Prop := r = .next ((s.trap t code (some ea)).keepQueue s)
    let leaves (x : State) (r : Host.Outcome State Fault Refusal) : Prop := r = .next ((s.movesOn x t).keepQueue s)
    let load := exec (.load t rt ra sp w off) s
    let loads := exec (.loads t rt ra sp w off) s
    let store := exec (.store t rt ra sp w off) s
    let toRt (x : State) (v : DWord) := x.onThread t fun y => y.setG rt v
    let sx (n : Nat) : DWord := BitVec.ofInt 64 (if n < 2 ^ (8 * 2 ^ w - 1) then (n : Int) else n - 2 ^ (8 * 2 ^ w));
    (s.issues t (.mem .load rt ra sp w off.toNat) = true →
      (a % 2 ^ w ≠ 0 → raises 0x03 load) ∧
      (a % 2 ^ w = 0 → sp = 0 → localSize t ≤ a → raises 0x04 load) ∧
      (a % 2 ^ w = 0 → sp = 1 → u.profileOf t ≠ .user → 48 * 2 ^ 30 ≤ a → raises 0x05 load) ∧
      (a % 2 ^ w = 0 → sp = 0 → a < localSize t → leaves (toRt u (BitVec.ofNat 64 (leNat (th.localBytes a (2 ^ w))))) load) ∧
      (∀ d, a % 2 ^ w = 0 → sp = 1 → u.sbTarget t a (2 ^ w) = some d → u.isLockWindow t d = false → u.seatMasked t d = false →
        let g := u.loadGrant (sbCode t) d;
        leaves (toRt g (BitVec.ofNat 64 (leNat (g.sbRead d (2 ^ w))))) load) ∧
      (a % 2 ^ w = 0 → sp = 3 → let x := u.regRead .bureau none (th.csrOf csrVIEW).toNat a 4
        leaves (toRt x.2.2 (BitVec.ofNat 64 x.2.1)) load)) ∧
    (s.issues t (.mem .loads rt ra sp w off.toNat) = true →
      (a % 2 ^ w = 0 → sp = 0 → a < localSize t → leaves (toRt u (sx (leNat (th.localBytes a (2 ^ w))))) loads) ∧
      (∀ d, a % 2 ^ w = 0 → sp = 1 → u.sbTarget t a (2 ^ w) = some d → u.isLockWindow t d = false → u.seatMasked t d = false →
        let g := u.loadGrant (sbCode t) d;
        leaves (toRt g (sx (leNat (g.sbRead d (2 ^ w))))) loads)) ∧
    (s.issues t (.mem .store rt ra sp w off.toNat) = true →
      (a % 2 ^ w ≠ 0 → raises 0x03 store) ∧
      (a % 2 ^ w = 0 → sp = 0 → localSize t ≤ a ∨ (t < 512 ∧ a < 64) → raises 0x04 store) ∧
      (a % 2 ^ w = 0 → sp = 0 → a < localSize t → (t < 512 → 64 ≤ a) →
        leaves (u.onThread t fun y => y.storeLocal a (leBytes (2 ^ w) v.toNat)) store) ∧
      (∀ d, a % 2 ^ w = 0 → sp = 1 → u.sbTarget t a (2 ^ w) = some d → u.isLockWindow t d = false →
        u.storeStalls (sbCode t) d = false → leaves (u.postStore (sbCode t) d (leBytes (2 ^ w) v.toNat) t) store) ∧
      (a % 2 ^ w = 0 → sp = 3 → leaves (u.regWrite .bureau (u.lockWho t) a 4 (v.toNat % 2 ^ 32)).2 store)) ∧
    (s.issues t (.mem .aadd rt ra 1 3 off.toNat) = true →
      (a % 8 ≠ 0 → raises 0x03 (exec (.aadd t rt ra off) s)) ∧
      (∀ d, a % 8 = 0 → u.sbTarget t a 8 = some d → u.isLockWindow t d = false → u.seatMasked t d = false →
        let g := u.loadGrant (sbCode t) d
        let old := leNat (g.sbRead d 8);
        leaves (toRt (g.sbWrite d (leBytes 8 (old + v.toNat))) (BitVec.ofNat 64 old)) (exec (.aadd t rt ra off) s)))

/-- WAIT, PARK, DROP, END, RDTIME, RDC and MFENCE act as R183 says (R5, R158, R159, R161, R182, R183, R184, R190).
For a thread on which the word issues: WAIT of a ticket that is done writes its result and frees the number, of
one outstanding holds the thread, and of a number above 63, one not outstanding and not held, or one detached
raises TICKET. PARK first makes the thread's Sideboard stores visible; with every named ticket done it goes on,
else it saves g16 to g31 and the resume address and frees the thread. DROP discards a held result and detaches
an outstanding ticket. END without a completion request raises NO_COMPLETION, else it ends the handler. RDTIME
writes the reference time, RDC a capsule word zero-extended, MFENCE makes stores visible. -/
def Obligations.ThreadControlActs : Prop :=
  ∀ (s : State) (t rd ra n : Nat), s.takes = true → rd < 32 → ra < 32 → n < 16 →
    let th := s.thread t
    let u := s.countIssue t
    let o := u.ownerOf t
    let k := (th.rg ra).toNat
    let raises (code : Nat) (r : Host.Outcome State Fault Refusal) : Prop := r = .next ((s.trap t code none).keepQueue s)
    let leaves (x : State) (r : Host.Outcome State Fault Refusal) : Prop := r = .next ((s.movesOn x t).keepQueue s)
    let writes (v : DWord) (x : State) := x.onThread t fun y => y.setG rd v
    let v := u.fenceStores (sbCode t);
    (s.issues t (.wait rd ra) = true →
      (64 ≤ k → raises 0x07 (exec (.wait t rd ra) s)) ∧
      (u.ticket o k = none → raises 0x07 (exec (.wait t rd ra) s)) ∧
      (∀ x, u.ticket o k = some x → x.detached = true → raises 0x07 (exec (.wait t rd ra) s)) ∧
      (∀ x v, k < 64 → u.ticket o k = some x → x.detached = false → x.done = some v →
        leaves (writes v (u.setTickets o (SMap.del k (u.tickets o)))) (exec (.wait t rd ra) s)) ∧
      (∀ x, k < 64 → u.ticket o k = some x → x.detached = false → x.done = none →
        leaves (u.onThread t fun y => { y with waiting := some (k, rd) }) (exec (.wait t rd ra) s))) ∧
    (s.issues t (.park ra) = true → (maskTickets k).all (fun n => (u.namedTicket o n).isSome) = true →
      (v.allDone o k = true → exec (.park t ra) s = .next ((s.movesOn v t).settle.keepQueue s)) ∧
      (v.allDone o k = false →
        let w := v.updFrame o fun c => { c with
          saved := (List.range 16).map (fun i => th.rg (16 + i)), resumePc := th.pc + 4, phase := .parked k };
        exec (.park t ra) s = .next (((((w.bump BNC_PARKS 0 (w.cmdAttr (some o))).freeThread t)).countSlot t 1).settle.keepQueue s))) ∧
    (s.issues t (.park ra) = true → (maskTickets k).all (fun n => (u.namedTicket o n).isSome) = false →
      exec (.park t ra) s = .next ((s.trap t 0x07 none).settle.keepQueue s)) ∧
    (s.issues t (.drop ra) = true →
      (u.namedTicket o k = none → raises 0x07 (exec (.drop t ra) s)) ∧
      (∀ x, u.namedTicket o k = some x → x.done.isSome = true →
        leaves (u.setTickets o (SMap.del k (u.tickets o))) (exec (.drop t ra) s)) ∧
      (∀ x, u.namedTicket o k = some x → x.done = none →
        leaves (u.updTicket o k fun z => { z with detached := true }) (exec (.drop t ra) s))) ∧
    (s.starts t .endThread = true →
      (((u.frame o).bind (·.comp)) = none → raises 0x09 (exec (.endThread t) s)) ∧
      (((u.frame o).bind (·.comp)).isSome = true →
        exec (.endThread t) s = .next (((u.endHandler t o).settle.countSlot t 1).keepQueue s))) ∧
    (s.issues t (.rdtime rd) = true → leaves (writes (BitVec.ofNat 64 u.refTime) u) (exec (.rdtime t rd) s)) ∧
    (∀ c, s.issues t (.rdc rd n) = true → u.threadCmd t = some c →
      leaves (writes (BitVec.ofNat 64 (c.window n)) u) (exec (.rdc t rd n) s)) ∧
    (s.issues t .mfence = true → leaves (u.fenceStores (sbCode t)) (exec (.mfence t) s))

/-- The Bureau's exceptions, interrupts and control registers (R41, R190, R192). An exception of a Bureau thread
writes EPC, CAUSE and (for an access) BADADDR, copies GIE into PGIE, clears GIE and goes on at VEC.
BUREAU_INTERRUPT does the same for a pending enabled source where GIE is set, EPC being the next instruction's
address and CAUSE having bit 31; which of several sources, and BADADDR, are open (log entry 5). ERET restores
GIE and goes to EPC; WFI holds until IPEND AND IEN is not 0; CSRR and CSRW read and write the control registers,
IPEND read-only; BUREAU_TIMER ends a WFI. -/
def Obligations.BureauControlActs : Prop :=
  ∀ (s : State) (t rd ra n : Nat) (th : Thread), s.takes = true → 512 ≤ t → rd < 32 → ra < 32 → n < 65536 →
    SMap.find s.bnc.threads t = some th →
    let u := s.countIssue t
    let leaves (x : State) (r : Host.Outcome State Fault Refusal) : Prop := r = .next ((s.movesOn x t).keepQueue s);
    (∀ code addr v, (s.trap t code (some addr)).thread t = v → code < 256 →
      v.pc = (th.csrOf csrVEC).toNat ∧ v.csrOf csrEPC = BitVec.ofNat 64 th.pc ∧ v.csrOf csrBADADDR = addr ∧ v.gie = false ∧
      v.csrOf csrCAUSE = BitVec.ofNat 64 (code + if th.gie then 2 ^ 30 else 0) ∧ v.g = th.g ∧ v.store = th.store) ∧
    (th.gie = true → th.waiting = none → s.pendEnabled th ≠ 0 → (s.pendEnabled th) < 2 ^ 33 →
      ∃ src bad, (s.pendEnabled th).testBit src = true ∧ exec (.bureauInterrupt t) s = .next ((({ s with
        freeCtr := s.freeCtr + 2 } : State).onThread t fun x => x.trapTo (BitVec.ofNat 64 x.pc) (2 ^ 31 + src) bad).keepQueue s)) ∧
    (s.pendEnabled th ≠ 0 → exec (.bureauTimer t) s = .next ((s.onThread t fun x => { x with wfi := false }).keepQueue s)) ∧
    (∀ pc, s.starts t .eret = true → (th.csrOf csrEPC).toNat = pc → s.pcOk t pc = true → exec (.eret t) s =
      .next (((u.onThread t fun x => x.setGie ((th.csrOf csrCAUSE).getLsbD 30)).goesTo t pc).keepQueue s)) ∧
    (s.issues t .wfi = true → leaves (u.onThread t fun x => { x with wfi := u.pendEnabled th == 0 }) (exec (.wfi t) s)) ∧
    (s.issues t (.csrr rd n) = true → leaves (u.onThread t fun x => x.setG rd
      (if n = csrIPEND then BitVec.ofNat 64 (u.ipend th) else th.csrOf n)) (exec (.csrr t rd n) s)) ∧
    (s.issues t (.csrw ra n) = true →
      let v := th.rg ra;
      leaves (if n = csrIPEND then u else u.onThread t fun x => x.setCsr n
        (if n = csrCAUSE then v &&& 0xC00000FF else if n = csrVEC then v &&& ~~~ 3 else if n = csrVIEW then v &&& 3 else v))
        (exec (.csrw t ra n) s))

/-- CELLS, RELEASE, TRACK, CLEAR, DRAW, MARK, RCHECK and FILLED start as R185 and R187 say (R115, R151, R158, R165,
R169, R184, R185, R187, R190, R191, R203). For a thread on which the word issues and whose operands are allowed:
the request takes the ticket number of R184, it starts (DRAW and RCHECK end at once, with their result word),
the number goes to rd, and control passes on; with rd g0 the ticket is detached. With all 64 numbers outstanding
the word stalls. An operand out of range, a command's request on the Bureau and a request after the completion
raise REQUEST, a misplaced argument block ARGBLOCK; a user's request that breaks R165 stops its command with the
fault of that rule. A handle that names no group is REQUEST on a system thread. -/
def Obligations.RequestsOfThreadsStart : Prop :=
  ∀ (s : State) (t rd ra rb : Nat), s.takes = true → rd < 32 → ra < 32 → rb < 32 →
    let th := s.thread t
    let u := s.countIssue t
    let o := u.ownerOf t
    let user := u.profileOf t == .user
    let x : Issuer := { s := u, t := t, o := o, th := th, cmd := u.threadCmd t, user := user }
    let a := (th.rg ra).toNat
    let arg (off n : Nat) : Nat := leNat (th.localBytes (a + off) n)
    let raises (code : Nat) (r : Host.Outcome State Fault Refusal) : Prop := r = .next ((s.trap t code none).settle.keepQueue s)
    let faults (code : Nat) (r : Host.Outcome State Fault Refusal) : Prop := r = .next ((s.benchFault t code 0).settle.keepQueue s)
    let starts (q : Req) (act : State → Nat → State) (r : Host.Outcome State Fault Refusal) : Prop :=
      (u.ticketNumber o = none → r = .next (s.settle.keepQueue s)) ∧
      (∀ k, u.ticketNumber o = some k → r = .next (((s.movesOn ((act (u.issue o k q (rd == 0)) k).onThread t
        fun y => y.setG rd (BitVec.ofNat 64 k)) t).settle).keepQueue s))
    let quiet : State → Nat → State := fun v _ => v
    let word (n : Nat) : Prop := s.issues t (.xreq rd ra rb n) = true;
    (word 1 → (0 < a → a ≤ 65536 → x.completed = false →
        (user = false ∨ u.cellsHeld o + a ≤ u.reg BNC_USER_CELLS_CELLS) → starts (.cells a) quiet (exec (.xreqCells t rd ra rb) s)) ∧
      (a = 0 ∨ 65536 < a → raises 0x08 (exec (.xreqCells t rd ra rb) s)) ∧
      (0 < a → a ≤ 65536 → x.completed = false → user = true → u.reg BNC_USER_CELLS_CELLS < u.cellsHeld o + a →
        faults 0x0B01 (exec (.xreqCells t rd ra rb) s))) ∧
    (word 2 → (user = false → (x.group a).isSome = true → starts (.release a) quiet (exec (.xreqRelease t rd ra rb) s)) ∧
      (user = true → x.holds a = true → starts (.release a) quiet (exec (.xreqRelease t rd ra rb) s)) ∧
      (user = true → x.holds a = false → faults 0x0B02 (exec (.xreqRelease t rd ra rb) s)) ∧
      (user = false → x.group a = none → raises 0x08 (exec (.xreqRelease t rd ra rb) s))) ∧
    (word 8 → x.blockOk a 20 = true → x.completed = false → t < 512 → arg 2 1 ≤ 1 → x.cmd.bind (·.track) = none →
      (user = true → (x.cmd.map fun c => u.hasRight c.sub (arg 0 2) (arg 2 1 + 1)) = some true) →
      (u.setOffline (u.volSet (arg 0 2)) = false → starts .track (fun v _ => v.doTrack o (arg 0 2) (arg 8 8) (arg 16 4)
        (arg 2 1 == 1)) (exec (.xreqTrack t rd ra rb) s)) ∧
      (u.setOffline (u.volSet (arg 0 2)) = true → starts .track (fun v k => v.finishTicket o k (resultWord 0x0011 0 0))
        (exec (.xreqTrack t rd ra rb) s))) ∧
    (word 8 → x.blockOk a 20 = false → raises 0x06 (exec (.xreqTrack t rd ra rb) s)) ∧
    (word 9 → x.completed = false → t < 512 → starts .clear quiet (exec (.xreqClear t rd ra rb) s)) ∧
    (word 9 → 512 ≤ t → raises 0x08 (exec (.xreqClear t rd ra rb) s)) ∧
    (∀ c, word 10 → x.completed = false → t < 512 → x.cmd = some c →
      (user = true → (u.rsvOf a).map (fun r => r.2.sub == c.sub) = some true) →
      let n := (th.rg rb).toNat;
      (u.drawCheck c a n c.drawTerms.1 c.drawTerms.2 = none →
        starts .draw (fun v k => (v.drawBytes o a n).finishTicket o k 0) (exec (.xreqDraw t rd ra rb) s)) ∧
      (∀ dt, u.drawCheck c a n c.drawTerms.1 c.drawTerms.2 = some (0x0003, dt) →
        starts .draw (fun v k => v.finishTicket o k (resultWord 0x0003 dt 0)) (exec (.xreqDraw t rd ra rb) s))) ∧
    (word 11 → x.completed = false → t < 512 → starts .mark quiet (exec (.xreqMark t rd ra rb) s)) ∧
    (word 11 → x.completed = true → raises 0x08 (exec (.xreqMark t rd ra rb) s)) ∧
    (∀ c, word 12 → x.blockOk a 20 = true → x.completed = false → t < 512 → x.cmd = some c → 4096 ≤ arg 16 4 →
      arg 16 4 ≤ 0xFFFFF000 →
      (u.checkRegion (arg 0 4) (arg 8 8) (arg 16 4) c.conn c.sub = none →
        starts .rcheck (fun v k => v.finishTicket o k (resultWord 0 0 0)) (exec (.xreqRcheck t rd ra rb) s)) ∧
      (∀ st v, u.checkRegion (arg 0 4) (arg 8 8) (arg 16 4) c.conn c.sub = some (st, v) →
        starts .rcheck (fun w k => w.finishTicket o k (resultWord st (if st = 0x0006 then 2 else 0) v))
          (exec (.xreqRcheck t rd ra rb) s))) ∧
    (word 13 → x.blockOk a 24 = true → x.completed = false → t < 512 → x.rangesBad [(arg 4 4, arg 8 8, arg 16 8)] = false →
      (user = true → x.holds (arg 4 4) = true) →
      starts (.filled (groupIx (arg 4 4)) (arg 8 8) (arg 16 8)) quiet (exec (.xreqFilled t rd ra rb) s))

/-- EMIT, CIPHER, PARITY, LEDGER and DRIVE start with the fields of their argument blocks (R165, R168, R184, R185,
R187, R188, R189, R191, R203, R253). For a thread on which the word issues, with an 8-aligned argument block
inside its local memory, operands in range and, for a user, the rights of R165: the request starts with the
little-endian fields R188 gives, takes the ticket number of R184, writes it to rd, and control passes on. EMIT's
KIND byte selects the request; the CMPL kind is the completion request, and a second one raises
SECOND_COMPLETION. CIPHER's KEYSLOT 0xFFFF is the volume's slot, and its data units are numbered by VOLUME and
LBA. A DRIVE write or deallocation that is not RAW and that no LEDGER request covers raises REQUEST. A block
that is not 8-aligned raises ARGBLOCK for every one of them. -/
def Obligations.DataRequestsStart : Prop :=
  ∀ (s : State) (t rd ra rb : Nat), s.takes = true → rd < 32 → ra < 32 → rb < 32 →
    let th := s.thread t
    let u := s.countIssue t
    let o := u.ownerOf t
    let user := u.profileOf t == .user
    let x : Issuer := { s := u, t := t, o := o, th := th, cmd := u.threadCmd t, user := user }
    let a := (th.rg ra).toNat
    let arg (off n : Nat) : Nat := x.arg a off n
    let raises (code : Nat) (r : Host.Outcome State Fault Refusal) : Prop := r = .next ((s.trap t code none).settle.keepQueue s)
    let starts (q : Req) (act : State → Nat → State) (r : Host.Outcome State Fault Refusal) : Prop :=
      (u.ticketNumber o = none → r = .next (s.settle.keepQueue s)) ∧
      (∀ k, u.ticketNumber o = some k → r = .next (((s.movesOn ((act (u.issue o k q (rd == 0)) k).onThread t
        fun y => y.setG rd (BitVec.ofNat 64 k)) t).settle).keepQueue s))
    let quiet : State → Nat → State := fun v _ => v
    let word (n : Nat) : Prop := s.issues t (.xreq rd ra rb n) = true
    let holds (hs : List Nat) : Prop := user = true → hs.all x.holds = true
    let within : Prop := user = true → x.inVolume (arg 0 2) (arg 8 8) (arg 16 4) = true ∧ x.tracked (arg 0 2) (arg 8 8) (arg 16 4) = true
    let unaligned (n : Nat) (r : Host.Outcome State Fault Refusal) : Prop := word n → a % 8 ≠ 0 → raises 0x06 r
    let cells (kind : Nat) (r : Host.Outcome State Fault Refusal) : Prop :=
      word 3 → x.blockOk a 32 = true → arg 0 1 = kind →
      x.completed = false → t < 512 → arg 8 8 % 4096 = 0 → arg 16 8 % 4096 = 0 → arg 24 8 % 4096 = 0 → arg 24 8 ≠ 0 →
      x.rangesBad [(arg 4 4, arg 8 8, arg 24 8)] = false → holds [arg 4 4] →
      (user = true → kind = 3 → ∀ c, x.cmd = some c → u.checkRegion c.dkey (c.doff + arg 16 8) (arg 24 8) c.conn c.sub = none) →
      starts (if kind = 2 then .xrdy (groupIx (arg 4 4)) (arg 8 8) (arg 16 8) (arg 24 8) none
        else .data (groupIx (arg 4 4)) (arg 8 8) (arg 16 8) (arg 24 8) 0 none) quiet r
    let system (kind : Nat) (r : Host.Outcome State Fault Refusal) : Prop :=
      word 3 → x.blockOk a 24 = true → arg 0 1 = kind →
      x.completed = false → user = false → arg 16 2 ≤ 1024 → (u.findConn (arg 20 4)).isSome = true →
      (arg 16 2 = 0 ∨ x.rangesBad [(arg 4 4, arg 8 8, arg 16 2)] = false) →
      starts (if kind = 9 then .ctrl (arg 20 4) (arg 1 1) else .mgmt (arg 20 4) (arg 1 1)) (fun v n => (v.started o n).emitSystem o n
        kind (arg 20 4) (arg 1 1) (groupIx (arg 4 4)) (arg 8 8) (arg 16 2)) r
    let cipher (op : Nat) (r : Host.Outcome State Fault Refusal) : Prop := ∀ slot, word 4 → x.blockOk a 32 = true →
      arg 0 1 = op → x.completed = false → (if arg 20 2 = 0xFFFF then u.volumeSlot (arg 2 2) else some (arg 20 2)) = some slot →
      slot < 8192 → arg 16 4 ≠ 0 → x.rangesBad [(arg 4 4, arg 8 8, arg 16 4 * 4096)] = false → holds [arg 4 4] →
      (user = true → u.volumeSlot (arg 2 2) = some slot) →
      starts (.cipher (op == 0) slot (groupIx (arg 4 4)) (arg 8 8) (arg 16 4) (dataUnit (arg 2 2) (arg 24 8)) [] false) quiet r
    let parity (mode : Nat) (r : Host.Outcome State Fault Refusal) : Prop :=
      word 5 → x.blockOk a 44 = true → arg 0 1 = mode → x.completed = false →
      let n := arg 1 1
      let j := arg 2 1
      let b := arg 3 1
      let len := arg 32 8;
      len % 4096 = 0 → (mode = 2 → j < n + 2 ∧ (b = 0xFF ∨ b < n + 2)) →
      x.rangesBad (match mode with
        | 0 => [(arg 4 4, arg 8 8, arg 40 4 * n * len), (arg 16 4, arg 24 8, arg 40 4 * 2 * len)]
        | 1 => [(arg 4 4, arg 8 8, 4 * len), (arg 16 4, arg 24 8, 2 * len)]
        | 2 => [(arg 4 4, arg 8 8, (n + 2) * len), (arg 16 4, arg 24 8, (if b = 0xFF ∨ b = j then 1 else 2) * len)]
        | _ => [(arg 4 4, arg 8 8, len), (arg 16 4, arg 24 8, len)]) = false → holds [arg 4 4, arg 16 4] →
      starts (.parity mode n j b (groupIx (arg 4 4)) (arg 8 8) (groupIx (arg 16 4)) (arg 24 8) len (arg 40 4)) quiet r
    let drive (op : Nat) (r : Host.Outcome State Fault Refusal) : Prop :=
      word 7 → x.blockOk a 40 = true → arg 0 1 = op → x.completed = false →
      let v := arg 2 2
      let slba := arg 16 8
      let n := arg 24 4
      let raw := arg 1 1 / 2 % 2
      let rs := (if op < 2 then [(arg 4 4, arg 8 8, n * 4096)] else []) ++
        (if op = 1 ∧ raw = 0 then [(arg 28 4, arg 32 8, u.parityBytes v slba n)] else []);
      (raw = 1 → v < 48 ∧ user = false) → x.rangesBad rs = false → (rs.any fun y => y.2.1 % 4096 != 0) = false →
      holds (rs.map (·.1)) → (raw = 0 → user = false → op ≠ 2 → x.inVolume v slba n = true) →
      (user = true → (x.cmd.map fun c => u.hasRight c.sub v (if op = 0 then 1 else 2)) = some true) →
      (user = true → op ≠ 2 → x.inVolume v slba n = true ∧ x.tracked v slba n = true) →
      ((op = 1 ∨ op = 3 → raw = 0 → inRange (u.ledgerIssued o) v slba n = true) →
        starts (.drive op (arg 1 1 % 2) raw v (groupIx (arg 4 4)) (arg 8 8) slba n (groupIx (arg 28 4)) (arg 32 8)) quiet r) ∧
      (op = 1 ∨ op = 3 → raw = 0 → inRange (u.ledgerIssued o) v slba n = false → raises 0x08 r);
    (unaligned 3 (exec (.xreqEmitXrdy t rd ra rb) s) ∧ unaligned 3 (exec (.xreqEmitData t rd ra rb) s) ∧
      unaligned 3 (exec (.xreqEmitCmpl t rd ra rb) s) ∧ unaligned 3 (exec (.xreqEmitCtrl t rd ra rb) s) ∧
      unaligned 3 (exec (.xreqEmitMgmt t rd ra rb) s) ∧ unaligned 4 (exec (.xreqCipherEncrypt t rd ra rb) s) ∧
      unaligned 4 (exec (.xreqCipherDecrypt t rd ra rb) s) ∧ unaligned 5 (exec (.xreqParityGen t rd ra rb) s) ∧
      unaligned 5 (exec (.xreqParityUpdate t rd ra rb) s) ∧ unaligned 5 (exec (.xreqParityRecon t rd ra rb) s) ∧
      unaligned 5 (exec (.xreqParityCompare t rd ra rb) s) ∧ unaligned 6 (exec (.xreqLedger t rd ra rb) s) ∧
      unaligned 7 (exec (.xreqDriveRead t rd ra rb) s) ∧ unaligned 7 (exec (.xreqDriveWrite t rd ra rb) s) ∧
      unaligned 7 (exec (.xreqDriveFlush t rd ra rb) s) ∧ unaligned 7 (exec (.xreqDriveDeallocate t rd ra rb) s)) ∧
    cells 2 (exec (.xreqEmitXrdy t rd ra rb) s) ∧ cells 3 (exec (.xreqEmitData t rd ra rb) s) ∧
    (word 3 → x.blockOk a 24 = true → arg 0 1 = 4 → t < 512 →
      (x.completed = false → arg 1 1 ≤ 1 → starts .cmpl (fun v _ => v.complete o (arg 2 2) (arg 4 2) (arg 8 4) (arg 16 8)
        (arg 1 1 == 1)) (exec (.xreqEmitCmpl t rd ra rb) s)) ∧
      (x.completed = true → raises 0x0A (exec (.xreqEmitCmpl t rd ra rb) s))) ∧
    system 9 (exec (.xreqEmitCtrl t rd ra rb) s) ∧ system 10 (exec (.xreqEmitMgmt t rd ra rb) s) ∧
    cipher 0 (exec (.xreqCipherEncrypt t rd ra rb) s) ∧ cipher 1 (exec (.xreqCipherDecrypt t rd ra rb) s) ∧
    parity 0 (exec (.xreqParityGen t rd ra rb) s) ∧ parity 1 (exec (.xreqParityUpdate t rd ra rb) s) ∧
    parity 2 (exec (.xreqParityRecon t rd ra rb) s) ∧ parity 3 (exec (.xreqParityCompare t rd ra rb) s) ∧
    (word 6 → x.blockOk a 20 = true → x.completed = false → (user = false → x.inVolume (arg 0 2) (arg 8 8) (arg 16 4) = true) →
      (user = true → (x.cmd.map fun c => u.hasRight c.sub (arg 0 2) 2) = some true) → within →
      starts (.ledger (arg 0 2) (arg 8 8) (arg 16 4)) quiet (exec (.xreqLedger t rd ra rb) s)) ∧
    drive 0 (exec (.xreqDriveRead t rd ra rb) s) ∧ drive 1 (exec (.xreqDriveWrite t rd ra rb) s) ∧
    drive 2 (exec (.xreqDriveFlush t rd ra rb) s) ∧ drive 3 (exec (.xreqDriveDeallocate t rd ra rb) s)

/-- CAB, SCH, SLP, DRV, PAR, LDG, SBD and HNG start when what they need runs, and stop where nothing refuses (R216,
R230, R268, R269, R313, R331, R353, R359, R376, R395, R430, R451). On a path that may write the block's command
register: START of a stopped block, outside recovery, with every block it needs running, sets its CFG_BLKRUN bit
and does what its own rule adds; with one stopped it is logged with code 0x0D and sets the block's refusal
event, and nothing else; START of a running block and STOP of a stopped one change nothing. STOP of a running
block clears the bit and does what its rule adds, or is refused with its event where its rule refuses it (SBD's
always). LDG's first START after a reset restores the generation first. -/
def Obligations.BlocksStartAndStop : Prop :=
  ∀ (s : State) (p : Path), s.takes = true →
    let leaves (u : State) (r : Host.Outcome State Fault Refusal) : Prop := r = .next (u.keepQueue s)
    let starts (addr b : Nat) (ev : Field) (needs : List Nat) (act : State → State) (r : Host.Outcome State Fault Refusal) : Prop :=
      s.mayWrite p addr = true → s.inRecovery = false →
      (s.runs b = false → (∀ n, n ∈ needs → s.runs n = true) → leaves (act (s.setRuns b true)) r) ∧
      (s.runs b = false → (∃ n, n ∈ needs ∧ s.runs n = false) → leaves ((s.logErr 0x0D p addr).raise ev 0) r) ∧
      (s.runs b = true → leaves s r)
    let stops (addr b : Nat) (ev : Field) (refused : Bool) (act : State → State) (r : Host.Outcome State Fault Refusal) : Prop :=
      s.mayWrite p addr = true →
      (s.runs b = true → refused = false → leaves (act (s.setRuns b false)) r) ∧
      (s.runs b = true → refused = true → leaves (s.raise ev) r) ∧
      (s.runs b = false → leaves s r);
    starts CAB_CMD_START.addr bCAB CAB_EVENT_CMD_REFUSED [bRTU, bSBD] State.seedLfsrs (exec (.cabStart p) s) ∧
    starts SCH_CMD_START.addr bSCH SCH_EVENT_CMD_REFUSED [bRTU, bCAB] (fun u =>
      (List.range 32).foldl (fun u port => u.followList port) u.freshScheduler) (exec (.schStart p) s) ∧
    starts SLP_CMD_START.addr bSLP SLP_EVENT_CMD_REFUSED [bCAB] (fun u =>
      [0, 1].foldl (fun u f => u.setReg SLP_FEED_STAT_STATE f (u.reg SLP_FEED_CFG_EN f)) u) (exec (.slpStart p) s) ∧
    starts DRV_GCMD_START.addr bDRV DRV_GEVENT_CMD_REFUSED [bCAB, bSLP] (fun u =>
      (List.range 48).foldl (fun u d => if (u.drawer d).present then u.presenceSeen d else u) u) (exec (.drvStart p) s) ∧
    starts PAR_CMD_START.addr bPAR PAR_EVENT_CMD_REFUSED [bDRV] id (exec (.parStart p) s) ∧
    starts SBD_CMD_START.addr bSBD SBD_EVENT_CMD_REFUSED [] id (exec (.sbdStart p) s) ∧
    stops CAB_CMD_STOP.addr bCAB CAB_EVENT_CMD_REFUSED
      (s.runs bNLT || s.runs bDRV || s.runs bPAR || s.runs bHNG || !s.cphIdle)
      (fun u => (u.cab.groups.map (·.1)).foldl (fun u k => u.freeGroup k) u) (exec (.cabStop p) s) ∧
    stops SCH_CMD_STOP.addr bSCH SCH_EVENT_CMD_REFUSED (s.runs bNLT) id (exec (.schStop p) s) ∧
    stops SLP_CMD_STOP.addr bSLP SLP_EVENT_CMD_REFUSED
      (s.runs bDRV || (List.range 48).any (fun d => s.chState d != chOFF))
      (fun u => [0, 1].foldl (fun u f => u.setReg SLP_FEED_STAT_STATE f 0) u) (exec (.slpStop p) s) ∧
    stops DRV_GCMD_STOP.addr bDRV DRV_GEVENT_CMD_REFUSED
      ((List.range 48).any s.drawerRuns) id (exec (.drvStop p) s) ∧
    stops PAR_CMD_STOP.addr bPAR PAR_EVENT_CMD_REFUSED (s.runs bDRV || s.runs bLDG) id (exec (.parStop p) s) ∧
    stops SBD_CMD_STOP.addr bSBD SBD_EVENT_CMD_REFUSED true id (exec (.sbdStop p) s) ∧
    stops HNG_CMD_OP.addr bHNG HNG_EVENT_CMD_REFUSED (s.isActive && s.hng.paired) id (exec (.hngStop p) s) ∧
    (s.mayWrite p HNG_CMD_OP.addr = true → s.inRecovery = false → s.runs bHNG = false → s.runs bLDG = true →
      leaves (s.setRuns bHNG true).decideRole.settle (exec (.hngStart p) s)) ∧
    (s.mayWrite p LDG_CMD_START.addr = true → s.inRecovery = false → s.runs bLDG = false → s.cfg.restoring = false →
      s.cfg.restoreWait = none →
      (s.runs bPAR = true → s.cfg.restored = true → leaves s.ldgRun (exec (.ldgStart p) s)) ∧
      (s.runs bPAR = true → s.cfg.restored = false → leaves { s with cfg := { s.cfg with restoring := true } } (exec (.ldgStart p) s)) ∧
      (s.runs bPAR = false → leaves (s.logErr 0x0D p LDG_CMD_START.addr) (exec (.ldgStart p) s))) ∧
    (s.mayWrite p LDG_CMD_STOP.addr = true → s.runs bLDG = true → s.ldg.recs = [] →
      let u := ((s.setRuns bLDG false).setReg LDG_ACTIVE_A 0 0x3F).setReg LDG_ACTIVE_B 0 0x3F;
      leaves ({ u with ldg := { u.ldg with ringA := none, ringB := none } } : State).countReplacing.persistStop (exec (.ldgStop p) s)) ∧
    (s.mayWrite p LDG_CMD_STOP.addr = true → s.runs bLDG = true → s.ldg.recs ≠ [] → leaves s (exec (.ldgStop p) s))

/-- The drive aperture, the PRP list window and the spill engine act on the group's cells (R196, R197, R198, R207,
R208, R209, R210, R306). An aperture read answers the bytes of the queue memory or of the group's cells that the
address names, an aperture write stores them there; an address that names no cells of a group, and any write to
the PRP list window, stores nothing and counts an error, and the read is answered with Completer Abort. A PRP
list read answers the page of R306 (what stands behind its last entry is open: log entry 62). A spill extent
that may spill, while no return waits, moves its bytes to the lowest free place of the spill area and frees its
cells; its return, which waits for free cells, brings them back. The next states are given whole. -/
def Obligations.CabinetWindowsAndSpill : Prop :=
  ∀ (s : State) (drawer : Nat), s.takes = true → drawer < 48 →
    let leaves (u : State) (r : Host.Outcome State Fault Refusal) : Prop := r = .next (u.keepQueue s);
    (∀ a n off, s.apertureTarget a = .queue off →
      leaves (s.setAperture (some (s.cab.queueMem.readAll off n))) (exec (.apertureRead drawer a n) s)) ∧
    (∀ a n g off, s.apertureTarget a = .cells g off →
      (s.cellsInGroup g off n = true → leaves (s.setAperture (some (s.groupRead g off n))) (exec (.apertureRead drawer a n) s)) ∧
      (s.cellsInGroup g off n = false → leaves (s.apertureErr.setAperture none) (exec (.apertureRead drawer a n) s))) ∧
    (∀ a bs off, s.prpTarget a = none → s.apertureTarget a = .queue off →
      leaves { s with cab := { s.cab with queueMem := Mem.writeAll off bs s.cab.queueMem } } (exec (.apertureWrite drawer a bs) s)) ∧
    (∀ a bs g off, s.prpTarget a = none → s.apertureTarget a = .cells g off →
      (s.cellsInGroup g off bs.length = true → leaves (s.groupWrite g off bs .driveRead) (exec (.apertureWrite drawer a bs) s)) ∧
      (s.cellsInGroup g off bs.length = false → leaves s.apertureErr (exec (.apertureWrite drawer a bs) s))) ∧
    (∀ a bs x, s.prpTarget a = some x → leaves s.apertureErr (exec (.apertureWrite drawer a bs) s)) ∧
    (∀ a g k off x, s.prpTarget a = some (g, k, off) → SMap.find s.cab.groups g = some x →
      (k + 511 * (off / 4096) < x.cells / 16 →
        let rest := s.prpRest k (x.cells / 16) (off / 4096)
        let page := prpPage s.apertureBase g k (x.cells / 16) (off / 4096) rest.1;
        leaves { rest.2 with out := { rest.2.out with prpList := page, aperture := some (page.drop (off % 4096)) } }
          (exec (.prpListRead drawer a) s)) ∧
      (x.cells / 16 ≤ k + 511 * (off / 4096) → leaves (s.apertureErr.setAperture none) (exec (.prpListRead drawer a) s))) ∧
    (∀ k g first count, k < 262144 → SMap.find s.cab.groups k = some g → 0 < count → count ≤ 256 → s.spillsFor g.acc = true →
      ((List.range count).map (· + first)).all (g.maySpill (s.moverPins ++ s.aheadCells) k) = true →
      s.oldestSpill g ((List.range count).map (· + first)) (s.moverPins ++ s.aheadCells) = true → s.anyWanted = false →
      let cells := (List.range count).map (· + first)
      let place := lowestFree 0 (s.cab.spillPlaces.map (·.1))
      let u := s.sbWrite (s.spillAddr place) (s.groupRead k (256 * first) (256 * count))
      let v : State := { u with cab := { u.cab with
        rows := cells.foldl (fun m c => freeCell m (g.nums.getD c 0)) s.cab.rows
        spillPlaces := SMap.put place k u.cab.spillPlaces
        cellMem := Mem.writeAll (cellKey k (256 * first)) (List.replicate (256 * count) 0) u.cab.cellMem
        groups := SMap.put k { g with spilled := ({ run := { first := first, count := count }, place := place } : SpilledExtent) ::
          g.spilled } u.cab.groups } }
      let w := v.setReg CAB_SPILLED_CELLS 0 (v.reg CAB_SPILLED_CELLS + count)
      let x := (w.uncharge g.acc count).bump CAB_SPILL_OUT 0 (accountAttr g.acc);
      leaves (if x.spillFull then x.raise CAB_EVENT_SPILL_FULL else x).settle (exec (.spillExtentDone k first count) s)) ∧
    (∀ k g x, k < 262144 → SMap.find s.cab.groups k = some g → g.spilled.find? (fun y => y.run.first == x.run.first) = some x →
      s.extentWanted k x = true → s.returnFits x = true → leaves (s.returnExtent k g x).settle (exec (.spillReturnDone k x.run.first) s))

/-- A key operation is decided by the checks of R235 in their order, and acts when it ends (R233, R234, R235, R236).
On a path that may write CPH_KEY_CMD: while an operation runs a new one is refused with result 8. Otherwise the
engine becomes busy with a result decided in the order of R235: an import of a kind that is not 1, 3 or 4 gives
4; an import in plain from the management path or JTAG 5; an import into a slot in use 1; an export or erase of
an empty slot 7; an erase of a bound slot 2; a wrapped key that does not unwrap, or to another kind, 3; an XTS
key whose halves are equal 6; else 0. When it ends the result shows, an operation with result 0 fills the slot,
exports its blob or empties it, CPH_KEY_DATA is cleared and KEY_DONE or KEY_FAILED is set. -/
def Obligations.KeyOperationsFollowTheirChecks : Prop :=
  ∀ (s : State) (p : Path) (kind k : Nat), s.takes = true → kind < 16 → k < 8192 → s.mayWrite p CPH_KEY_CMD_OP.addr = true →
    let leaves (u : State) (r : Host.Outcome State Fault Refusal) : Prop := r = .next (u.keepQueue s)
    let busy := (s.setReg CPH_KEY_STATUS_RESULT 0 8).raise CPH_EVENT_KEY_FAILED
    let begins (op kind result : Nat) (m : List Byte) := ({ s with cph := { s.cph with
      job := some { op := op, kind := kind, slot := k, result := result, key := m } } } : State).setFlag CPH_KEY_STATUS_BUSY 0 true
    let importable := kind = 1 ∨ kind = 3 ∨ kind = 4
    let empty := (s.keySlot k).kind = 0
    let judged (op : Nat) (m : List Byte) (r : Host.Outcome State Fault Refusal) : Prop :=
      if kind = 1 ∧ m.take 32 = (m.drop 32).take 32 then leaves (begins op kind 6 []) r else leaves (begins op kind 0 m) r
    let plain := exec (.keyImportPlain p k kind) s
    let kek := exec (.keyImportKek p k kind) s
    let blob := exec (.keyImportBlob p k kind) s
    let unwrapped := if (s.keySlot (s.reg CPH_KEY_KEK_SLOT)).kind = 4 then
      unwrapKey ((s.keySlot (s.reg CPH_KEY_KEK_SLOT)).key.take 32) s.keyData else none;
    (s.flag CPH_KEY_STATUS_BUSY = true → leaves busy plain ∧ leaves busy kek ∧ leaves busy blob ∧
      leaves busy (exec (.keyExport p k) s) ∧ leaves busy (exec (.keyErase p k) s)) ∧
    (s.flag CPH_KEY_STATUS_BUSY = false →
      (¬ importable → leaves (begins 1 kind 4 []) plain ∧ leaves (begins 2 kind 4 []) kek ∧ leaves (begins 3 kind 4 []) blob) ∧
      (importable → (p = .mgmt ∨ p = .jtag) → leaves (begins 1 kind 5 []) plain) ∧
      (importable → p ≠ .mgmt → p ≠ .jtag → ¬ empty → leaves (begins 1 kind 1 []) plain) ∧
      (importable → p ≠ .mgmt → p ≠ .jtag → empty → judged 1 (s.keyData.take 64) plain) ∧
      (importable → ¬ empty → leaves (begins 2 kind 1 []) kek ∧ leaves (begins 3 kind 1 []) blob) ∧
      (importable → empty → (∀ m, unwrapped = some (kind, m) → judged 2 m kek) ∧
        (∀ m, unwrapKey deviceKey s.keyData = some (kind, m) → judged 3 m blob) ∧
        ((∀ m, unwrapped ≠ some (kind, m)) → leaves (begins 2 kind 3 []) kek) ∧
        ((∀ m, unwrapKey deviceKey s.keyData ≠ some (kind, m)) → leaves (begins 3 kind 3 []) blob)) ∧
      (empty → leaves (begins 4 0 7 []) (exec (.keyExport p k) s) ∧ leaves (begins 5 0 7 []) (exec (.keyErase p k) s)) ∧
      (¬ empty → leaves (begins 4 0 0 []) (exec (.keyExport p k) s) ∧
        (s.slotBound k = true → leaves (begins 5 0 2 []) (exec (.keyErase p k) s)) ∧
        (s.slotBound k = false → leaves (begins 5 0 0 []) (exec (.keyErase p k) s)))) ∧
    (∀ j, s.cph.job = some j →
      let ends (u : State) : State := ((({ u with cph := { u.cph with job := none } } : State).setFlag CPH_KEY_STATUS_BUSY 0
        false).setReg CPH_KEY_STATUS_RESULT 0 j.result).setWords CPH_KEY_DATA_DATA [];
      (j.result ≠ 0 → leaves ((ends s).raise CPH_EVENT_KEY_FAILED) (exec .keyOpDone s)) ∧
      (j.result = 0 → j.op ≤ 3 → let filled : KeySlot := { kind := j.kind, key := slotMaterial j.kind j.key }
        leaves ((ends (s.setKeySlot j.slot filled)).raise CPH_EVENT_KEY_DONE) (exec .keyOpDone s)) ∧
      (j.result = 0 → j.op = 4 → leaves ((ends (s.setWords CPH_KEY_BLOB_BLOB ((Config.keyWrap true deviceKey
        (blobPlain (s.keySlot j.slot))).getD []))).raise CPH_EVENT_KEY_DONE) (exec .keyOpDone s)) ∧
      (j.result = 0 → j.op = 5 → leaves ((ends (s.setKeySlot j.slot {})).raise CPH_EVENT_KEY_DONE) (exec .keyOpDone s)))

/-- Cipher items pass or fail their pair, pairs are tested, and the entropy source fails and recovers (R237, R239,
R240, R241, R242, R245, R405, R454). The end of the item at the head of a pair's queue takes it off and counts
the dummy rounds it drew; where the two results agree, the item's work is done (an XTS block written over its
cell, a packet delivered or sent, its connection's slot erased where it outlived the connection for it), else
the pair's mismatch count rises, MISMATCH is set and recorded, the second in a working cycle quarantines the
pair, and the item goes to another pair or its tail is bad. PAIR_TEST of a quarantined pair begins its test, of
any other is refused; its end returns it to service or to quarantine. A health-test failure sets SRC_FAILED, is
counted and recorded; recovery clears it, and the DRBG owes a reseed. -/
def Obligations.CipherPairsAndEntropy : Prop :=
  ∀ (s : State) (p : Path) (q : Nat), s.takes = true → q < 72 →
    let leaves (u : State) (r : Host.Outcome State Fault Refusal) : Prop := r = .next (u.keepQueue s);
    (∀ i n rest, s.pairQueue q = { item := i, dummies := n } :: rest →
      let u := (s.setPairQueue q rest).bumpBy CPH_DUMMY_ROUNDS 0 n (i.attr s);
      (∀ o t enc slot unit cell group goff zero, i = .xts o t enc slot unit cell group goff zero →
        let out := if zero then List.replicate 256 0
          else padTo 256 (Config.xts enc ((u.bump CPH_ITEMS_XTS 0 (i.attr u)).keySlot slot).key unit cell ((u.bump CPH_ITEMS_XTS 0 (i.attr u)).groupRead group goff 256));
        leaves ((((u.bump CPH_ITEMS_XTS 0 (i.attr u)).groupWrite group goff out (if enc then .encrypt else .decrypt)).cipherItemEnded o t).settle)
          (exec (.cipherItemDone q true) s)) ∧
      (∀ f w k, i = .gcmTx f w k → leaves (((((u.dropSent f).bump CPH_ITEMS_GCM 0 (i.attr u))).onWire (u.sealFrame f w k)).itemOver i).settle
        (exec (.cipherItemDone q true) s)) ∧
      (∀ t m k x info, i = .gcmRx t m k x info → leaves (((u.bump CPH_ITEMS_GCM 0 (i.attr u)).gcmReceived m t k info).itemOver i).settle
        (exec (.cipherItemDone q true) s)) ∧
      (let n := u.reg CPH_PAIR_STATE_COUNT q + 1
        let v := (((u.setReg CPH_PAIR_STATE_COUNT q n).bump CPH_MISMATCHES 0 (i.attr u)).raise CPH_EVENT_MISMATCH).cphRecord q 1 n i.code i.slot;
        leaves (((if 2 ≤ n then v.quarantinePair q else v).itemFailed q i).itemOver i).settle (exec (.cipherItemDone q false) s))) ∧
    (s.pairQueue q = [] → ∀ b, leaves s.settle (exec (.cipherItemDone q b) s)) ∧
    (s.mayWrite p CPH_PAIR_CMD_OP.addr = true →
      (s.reg CPH_PAIR_STATE_STATE q = 1 → leaves (s.setReg CPH_PAIR_STATE_STATE q 2) (exec (.pairTest p q) s)) ∧
      (s.reg CPH_PAIR_STATE_STATE q ≠ 1 → leaves (s.raise CPH_EVENT_CMD_REFUSED) (exec (.pairTest p q) s))) ∧
    (s.reg CPH_PAIR_STATE_STATE q = 2 →
      leaves ((((s.setReg CPH_PAIR_STATE_STATE q 0).setReg CPH_PAIR_STATE_COUNT q 0).countPairs).cphRecord q 3 0 0 0)
        (exec (.pairTestDone q true) s) ∧
      leaves ((s.setReg CPH_PAIR_STATE_STATE q 1).cphRecord q 4 (s.reg CPH_PAIR_STATE_COUNT q) 0 0)
        (exec (.pairTestDone q false) s)) ∧
    leaves ((((s.setFlag CPH_STATUS_SRC_FAILED 0 true).bump CPH_HEALTH_FAILS).raise CPH_EVENT_ENTROPY_FAIL).cphRecord 0 6 0 0 0)
      (exec .entropyHealthFail s) ∧
    (s.flag CPH_STATUS_SRC_FAILED = true →
      leaves (({ s with cph := { s.cph with drbg := { s.cph.drbg with owed := true } } } : State).setFlag CPH_STATUS_SRC_FAILED 0 false)
        (exec .entropySourceRecover s)) ∧
    (s.flag CPH_STATUS_SRC_FAILED = false → leaves s (exec .entropySourceRecover s))

/-- PAR_RB_CMD names a target, reshapes, revives, pauses and resumes a set, or is refused with its result (R271,
R272, R284, R285, R294). On a path that may write PAR_RB_CMD: OP 1 of a lost position without a target, on a set
that is neither OFFLINE nor reshaping and with a Drawer that may join, makes the Drawer its target and starts
its circle at the cursor; OP 2 of an OPTIMAL set with the Drawers of ADD_MASK and room to stage starts the
reshape with a checkpoint; OP 3 revives a set that went OFFLINE for its damage table; OP 4 pauses, OP 5 resumes.
A set that does not exist, a wrong state, N, Drawer or room gives the result of R294 and sets CMD_REFUSED. -/
def Obligations.SetCommandsFollowTheirChecks : Prop :=
  ∀ (s : State) (p : Path) (k : Nat), s.takes = true → k < 8 → s.mayWrite p PAR_RB_CMD_OP.addr = true →
    let leaves (u : State) (r : Host.Outcome State Fault Refusal) : Prop := r = .next (u.keepQueue s)
    let refused (op result : Nat) (r : Host.Outcome State Fault Refusal) : Prop := leaves
      (((s.setReg PAR_RB_RESULT_RESULT 0 result).setReg PAR_RB_RESULT_OP 0 op).raise PAR_RB_EVENT_CMD_REFUSED) r
    let done (op : Nat) (u : State) : State := (u.setReg PAR_RB_RESULT_RESULT 0 0).setReg PAR_RB_RESULT_OP 0 op;
    (∀ x d, x < 26 → d < 48 →
      let r := exec (.rbTarget p k x d) s;
      (s.setExists k = false ∨ s.setOffline k = true ∨ s.reshaping k = true → refused 1 1 r) ∧
      (s.setExists k = true → s.setOffline k = false → s.reshaping k = false →
        (s.setW k ≤ x → refused 1 2 r) ∧
        (x < s.setW k → s.isLost k x = true → (s.target k x).1 = 0 → s.joinable k d = false → refused 1 3 r) ∧
        (x < s.setW k → s.isLost k x = true → (s.target k x).1 = 0 → s.joinable k d = true →
          let u := (s.setReg PAR_POSMAP_TKIND (32 * k + x) 2).setReg PAR_POSMAP_TARGET (32 * k + x) d
          let v := u.updSet k fun t => { t with
            startRow := SMap.put x (u.cursor k) t.startRow, uncovered := SMap.del x t.uncovered, nextBoff := 0 }
          let w := if v.reg PAR_RB_STATE_PHASE k = 0 then v.setPhaseOf k 1 else v;
          leaves (done 1 (w.countUncovered k)) r))) ∧
    (∀ newn, newn < 32 →
      let r := exec (.rbReshape p k newn) s
      let ds := (List.range 48).filter fun d => (s.reg PAR_RS_ADD_MASK).testBit d
      let n := s.setN k
      let t := s.setReg PAR_RB_STATE_NEWN k newn
      let strips := (t.stagedRows k * s.setW k + (newn - n) - 1) / (newn - n)
      let ready := s.setExists k = true ∧ s.reg PAR_SET_STATE_STATE k = 0 ∧ s.reshaping k = false;
      (¬ ready → refused 2 1 r) ∧
      (ready → newn ≤ n ∨ 22 < newn → refused 2 4 r) ∧
      (ready → n < newn → newn ≤ 22 → ds.length ≠ newn - n ∨ ds.all (s.joinable k) = false → refused 2 5 r) ∧
      (ready → n < newn → newn ≤ 22 → ds.length = newn - n → ds.all (s.joinable k) = true →
        (s.setRows k - t.newRows k < strips → refused 2 6 r) ∧
        (strips ≤ s.setRows k - t.newRows k →
          let u := (((t.setSetState k 3).setPhaseOf k 2).setFlag PAR_RB_STATE_STAGING k true).setCursor k 0
          let v := u.updSet k fun y => { y with added := ds, staged := false, stagingRow := 0, nextBoff := 0 };
          leaves (done 2 (v.reshapeCkpt k)) r))) ∧
    (∀ d, d < 48 →
      let r := exec (.rbRevive p k d) s;
      (s.setExists k = false ∨ s.setOffline k = false → refused 3 7 r) ∧
      (s.setExists k = true → s.setOffline k = true → (s.setSt k).offlineDrawer = none → 4096 ≤ s.damageRecs.length → refused 3 7 r) ∧
      (s.setExists k = true → s.setOffline k = true → (s.setSt k).offlineDrawer = none → s.damageRecs.length < 4096 →
        let u := (s.setSetState k (s.setSt k).offlineFrom).resyncOpen k;
        u.newestRecord 0x12 k = none → u.newestRecord 0x10 k = none →
        leaves (done 3 ((u.restartCircles k).updSet k fun t => { t with offlineDrawer := none, offlineId := 0 })) r)) ∧
    (let r := exec (.rbPause p k) s
      let ph := s.reg PAR_RB_STATE_PHASE k;
      (s.setExists k = false ∨ s.setOffline k = true ∨ (ph ≠ 1 ∧ ph ≠ 2) → refused 4 1 r) ∧
      (s.setExists k = true → s.setOffline k = false → ph = 1 ∨ ph = 2 →
        let u := (s.setPhaseOf k 3).updSet k fun t => { t with paused := true };
        leaves (done 4 (if u.reg PAR_SET_STATE_STATE k = 2 then u.setSetState k 1 else u)) r)) ∧
    (let r := exec (.rbResume p k) s;
      (s.setExists k = false ∨ s.setOffline k = true ∨ s.reg PAR_RB_STATE_PHASE k ≠ 3 → refused 5 1 r) ∧
      (s.setExists k = true → s.setOffline k = false → s.reg PAR_RB_STATE_PHASE k = 3 →
        leaves (done 5 ((s.setPhaseOf k (if s.reshaping k then 2 else 1)).updSet k fun t => { t with paused := false })) r))

/-- Ledger batches, resync, rebuild, reshape pieces and write-backs end as their rules say (R262, R264, R265, R270,
R273, R275, R279, R287, R288). A durable batch leaves its ring's queue, is kept on that ring's media, raises the
ring's BSEQ and confirms what it carried; a failed one loses the drive. A rebuilt piece at the cursor moves the
set's column mark on, or completes the row; a reshaped row takes its record and moves the cursor on, with a
checkpoint every 256 rows, the last one ending the reshape state; the staging's end clears STAGING with a
checkpoint. A resynced piece of a row with no unknown column counts its columns and leaves the list of what is
owed, and with a row's last one its records are done. A recovered block's write-back frees its columns, and
loses the member where it failed. -/
def Obligations.PiecesOfWorkOnSetsEnd : Prop :=
  ∀ (s : State) (k d : Nat), s.takes = true → k < 8 → d < 48 →
    let leaves (u : State) (r : Host.Outcome State Fault Refusal) : Prop := r = .next (u.keepQueue s);
    (∀ r b rest, s.ringOn d = some r → r.queue = b :: rest →
      (let u := s.updRing d fun x => { x with queue := rest, counts := r.counts || b.ckpt, genDue := x.genDue || (x.replacing && !x.counts) }
        let v := u.keepOnMedia d b
        let w := ((v.bump LDG_BATCHES).setReg LDG_BSEQ_BSEQ 0 (max b.bseq (v.reg LDG_BSEQ_BSEQ))).confirmDurable b;
        ((w.ringOn d).map (·.genDue) ≠ some true → leaves w.pumpAll.settle (exec (.ledgerBatchDone d true) s))) ∧
      (((s.ledgerDriveLost d).ringOn d) = none → leaves (s.ledgerDriveLost d).pumpAll.settle (exec (.ledgerBatchDone d false) s))) ∧
    (∀ p, (s.setSt k).piece = some p → p.kind = 2 ∨ p.kind = 5 →
      let u := s.pieceOver k
      let next := p.boff + u.pieceColumns k;
      p.row = u.cursor k → (u.setSt k).nextBoff = p.boff →
      (next < u.setSb k → leaves (((u.updSet k fun t => { t with nextBoff := next }).issuePiece k).pumpAll).settle
        (exec (.rebuildPieceDone k) s)) ∧
      (u.setSb k ≤ next → leaves (((u.rowComplete k).issuePiece k).pumpAll).settle (exec (.rebuildPieceDone k) s))) ∧
    (∀ p, (s.setSt k).piece = some p → p.kind = 4 →
      let u := s.pieceOver k
      let v := u.putTaskRecord { kind := 0x11, set := k, row := p.row, lost := u.lostMask k }
      let w := (v.setCursor k (p.row + 1)).bump PAR_RS_ROWS
      let x := if (p.row + 1) % 256 = 0 then w.reshapeCkpt k else w
      let y := if x.newRows k ≤ p.row + 1 then x.setSetState k (if x.lostMask k = 0 then 0 else 1) else x;
      leaves ((y.issuePiece k).pumpAll).settle (exec (.reshapeRowDone k) s)) ∧
    (s.reshaping k = true → (s.setSt k).staged = false → s.setOffline k = false →
      leaves ((((s.updSet k fun t => { t with staged := true, stagingRow := s.stagedRows k }).setFlag PAR_RB_STATE_STAGING k
        false).reshapeCkpt k).issuePiece k) (exec (.reshapeStagingDone k) s)) ∧
    (∀ row boff n disagree, (∀ y, y ∈ s.par.resync → y.set = k → y.row ≠ row) →
      leaves s.settle (exec (.resyncPieceDone k row boff n disagree) s)) ∧
    (∀ row boff n y, y ∈ s.par.resync → y.set = k → y.row = row → y.ofOpen = true → y.boff < boff + n → boff < y.boff + y.count →
      s.rowUnknown (s.layoutRow k row) = [] → (s.setSt k).piece = none →
      let v := s.bumpBy PAR_RESYNC 0 n {}
      let left := v.par.resync.flatMap fun z => if z.touches k row boff n false then z.cut boff n else [z]
      let w : State := { v with par := { v.par with resync := left } }
      let owed := left.any fun z => z.ofOpen && z.set == k && z.row == row
      let x := (w.mapRecords (fun q => q.frame.isNone && q.set == k && q.row == row && decide (q.kind ≤ 6))
        fun q => { q with writesDone := true }).retireReady;
      ∀ dis, leaves ((((if owed then w else x).issuePiece k).pumpAll).settle) (exec (.resyncPieceDone k row boff n dis) s)) ∧
    (∀ x block ok, x < 26 → s.par.repairs.contains (k, x, block) = true →
      let row := (block - s.setBase k) / s.setSb k
      let boff := (block - s.setBase k) % s.setSb k
      let u : State := { s with par := { s.par with repairs := s.par.repairs.erase (k, x, block) } }
      let waits := u.par.holders.find? fun h => h.frame.isNone && h.set == k && h.row == row && h.boff == boff && !h.submitted
      let free (y : Holder) : State := { u with par := { u.par with holders := u.par.holders.erase y } }
      let v := (waits.map free).getD u;
      leaves ((if ok then v else v.losePosition (v.posDrawer k x)).pumpAll).settle (exec (.repairWritebackDone k x block ok) s))

/-- DRV_CMD powers a Drawer on and off, resets its controller and readmits it, or is refused with its result (R300,
R301, R312). On a path that may write a Drawer's DRV_CMD: OP 1 of an OFF Drawer enters POWERING and powers its
slot; OP 2 of an OFF, FAILED or READY Drawer that is not in use asserts PERST_N, turns the slot off, enters OFF,
and ends what a READY Drawer held; OP 3 of a READY Drawer resets it; OP 4 of a FAILED Drawer asserts PERST_N for
the readmission. Each leaves result 0. From another state the result is 1, and for a Drawer in use 2, with
CMD_REFUSED. -/
def Obligations.DrawerCommandsFollowTheirChecks : Prop :=
  ∀ (s : State) (p : Path) (d : Nat), s.takes = true → d < 48 → s.mayWrite p (drvCmdAddr d) = true →
    let leaves (u : State) (r : Host.Outcome State Fault Refusal) : Prop := r = .next (u.keepQueue s)
    let st := s.reg DRV_STATE_STATE d
    let done (u : State) : State := u.setReg DRV_CMD_RESULT_RESULT d 0
    let refused (result : Nat) : State := (s.setReg DRV_CMD_RESULT_RESULT d result).raise DRV_EVENT_CMD_REFUSED d;
    (st = 7 → leaves (done (((s.setTimer d 2).enterDrawer d 1).slotOn d)) (exec (.drawerPowerOn p d) s)) ∧
    (st ≠ 7 → leaves (refused 1) (exec (.drawerPowerOn p d) s)) ∧
    (s.inUse d = true → leaves (refused 2).settle (exec (.drawerPowerOff p d) s)) ∧
    (s.inUse d = false → st ≠ 7 → st ≠ 6 → st ≠ 4 → leaves (refused 1).settle (exec (.drawerPowerOff p d) s)) ∧
    (s.inUse d = false → st = 7 ∨ st = 6 →
      leaves (done ((((s.setPerst d false).setTimer d 0).slotOff d).enterDrawer d 7)).settle (exec (.drawerPowerOff p d) s)) ∧
    (s.inUse d = false → st = 4 →
      leaves (done (((((s.setPerst d false).setTimer d 0).slotOff d).enterDrawer d 7).endHeld d)).settle
        (exec (.drawerPowerOff p d) s)) ∧
    (st = 4 → leaves (done (s.resetDrawer d)).settle (exec (.drawerControllerReset p d) s)) ∧
    (st ≠ 4 → leaves (refused 1).settle (exec (.drawerControllerReset p d) s)) ∧
    (st = 6 → leaves (done ((s.setPerst d false).setTimer d 6)) (exec (.drawerReadmit p d) s)) ∧
    (st ≠ 6 → leaves (refused 1) (exec (.drawerReadmit p d) s))

/-- Presence, power, training, admission and messages move a Drawer through its states as R300 says (R295, R297,
R300, R304, R309). PRSNT_N starts the debounce of an EMPTY Drawer; its end enters POWERING where HP_AUTO is set
and OFF where not; its loss enters EMPTY from every other state with PERST_N asserted and the slot off. PERST_MS
after power-good enters TRAINING, DL_Active keeps width, speed and flit and 100 ms later INIT begins; no
DL_Active fails with reason 1. Admission fails with the reason of its first failed check, or enters READY with
what it read. A lost link fails with 11, CSTS.CFS or CSTS.RDY with 3, and a reset ends in READY or fails with 3.
Warnings and AER messages are kept and recorded, and the head doorbell is written after its delay. -/
def Obligations.DrawersPowerTrainAndAreAdmitted : Prop :=
  ∀ (s : State) (d : Nat), s.takes = true → d < 48 →
    let leaves (u : State) (r : Host.Outcome State Fault Refusal) : Prop := r = .next (u.keepQueue s)
    let st := s.reg DRV_STATE_STATE d
    let timer := (s.drawer d).timer
    let seen (b : Bool) : State := s.updDrawer d fun w => { w with present := b, timer := 0 };
    (let u := s.updDrawer d fun w => { w with present := true };
      leaves (if s.runs bDRV ∧ st = 0 then u.setTimer d 1 else u) (exec (.prsntAssert d) s)) ∧
    (s.runs bDRV = true → st = 0 →
      let u := (seen true).setFlag DRV_STATE_PRESENT d true;
      leaves (if u.flag DRV_CFG_HP_AUTO d then ((u.setTimer d 2).enterDrawer d 1).slotOn d else u.enterDrawer d 7)
        (exec (.presenceDebounceEnd d) s)) ∧
    (let gone (u : State) : State := { u with ldg := { u.ldg with media := SMap.del d u.ldg.media } }
      let u := ((((gone (seen false)).setFlag DRV_STATE_PRESENT d false).setPerst d false).slotOff d).enterDrawer d 0
      let v := u.raise DRV_EVENT_REMOVED d;
      (st = 0 → leaves (gone (seen false)).settle (exec (.presenceLost d) s)) ∧
      (st = 4 ∨ st = 5 → leaves (v.driveGone d).settle (exec (.presenceLost d) s)) ∧
      (st ≠ 0 → st ≠ 4 → st ≠ 5 →
        leaves (v.updDrawer d fun w => { w with adminOut := false }).settle (exec (.presenceLost d) s))) ∧
    (st = 1 → s.flag DRV_STATE_PG d = true →
      leaves (((s.setPerst d true).setTimer d 3).enterDrawer d 2) (exec (.perstDelayEnd d) s)) ∧
    (st = 6 → timer = 6 → leaves (((s.setPerst d true).setTimer d 3).enterDrawer d 2) (exec (.perstAssertEnd d) s)) ∧
    (∀ width speed flit, width ≤ 2 → speed < 8 → st = 2 →
      let u := ((s.setReg DRV_STATE_WIDTH d width).setReg DRV_STATE_SPEED d speed).setFlag DRV_STATE_FLIT d flit;
      leaves ((if width < 2 then u.raise DRV_EVENT_WIDTH d else u).setTimer d 4) (exec (.dlActive d width speed flit) s)) ∧
    (st = 2 → timer = 4 →
      leaves ((s.updDrawer d fun w => { w with timer := 5, adminOut := true, adminSince := s.rtu.cycle }).enterDrawer d 3)
        (exec (.initDelayEnd d) s)) ∧
    (st = 2 → timer = 3 → leaves (s.failDrawer d 1) (exec (.trainingTimeout d) s)) ∧
    (∀ v reason, st = 3 → s.admission d v = some reason →
      leaves (s.failDrawer d reason).settle (exec (.driveRegisterAccessDone d v) s)) ∧
    (∀ v, st = 3 → s.admission d v = none →
      leaves ((s.keepFacts d v).enterReady d).settle (exec (.driveRegisterAccessDone d v) s)) ∧
    (∀ cfs, 2 ≤ st → st ≤ 5 → leaves (s.failDrawer d (if cfs then 3 else 11)).settle (exec (.driveLinkDown d cfs) s)) ∧
    (st = 5 → leaves ((s.accountAll d).enterReady d).settle (exec (.drawerResetDone d true) s)) ∧
    (st = 5 → leaves (s.failDrawer d 3).settle (exec (.drawerResetDone d false) s)) ∧
    (st = 3 ∨ st = 5 → leaves (s.failDrawer d 3).settle (exec (.cstsRdyTimeout d) s)) ∧
    (∀ warning, warning < 256 →
      let u := s.setReg DRV_WARN_CW d warning
      let v := (u.raise DRV_EVENT_WARNING d).drawerRecord d (u.dState d) (u.dState d) 3;
      u.reg DRV_WARN_CW d ≠ 0 →
      leaves (if bitsOf warning 2 3 ≠ 0 then (v.losePosition d).pumpAll else v).settle (exec (.asyncEvent d warning) s)) ∧
    (∀ unc cor hdr, leaves (s.record 0x51 2 bDRV (aerBody d unc cor hdr)) (exec (.driveAerMessage d unc cor hdr) s)) ∧
    (∀ sq, sq < 16 → SMap.get 0 (s.drawer d).cqNew sq ≠ 0 →
      leaves ((s.ring d (16 + sq) (SMap.get 0 (s.drawer d).cqHead sq)).updDrawer d fun w => { w with cqNew := SMap.del sq w.cqNew })
        (exec (.cqHeadDoorbellDelay d sq) s))

/-- Completions, timeouts and quarantines end the commands at a drive in the order of R309 (R299, R304, R307, R308,
R309, R310). A completion entry takes its place in the CQ; one that matches no context is a stray, one of a
quarantined context is late, and success ends the operation with its data. Reservation Conflict fences, an
unrecovered read recovers the strip, Namespace Not Ready without DNR waits for its next attempt, and any other
status fails the operation. A command past its timeout is aborted, quarantined and recovered. A quarantine of
two timeouts frees an accounted context and resets the Drawer for another. An admin timeout resets a READY or
INIT Drawer and fails one in RESET with 3; a PCIe completion timeout resets a READY Drawer once, and fails it
with 12 otherwise. -/
def Obligations.CommandsAtDrivesEnd : Prop :=
  ∀ (s : State) (d sq cid : Nat), s.takes = true → d < 48 → sq < 16 → cid < 65536 →
    let leaves (u : State) (r : Host.Outcome State Fault Refusal) : Prop := r = .next (u.keepQueue s)
    let st := s.reg DRV_STATE_STATE d;
    (∀ v, sq ≠ 0 →
      let t := s.takeEntryCq d sq cid v
      let r := exec (.nvmeCompletion d sq cid v) s
      let ends (u : State) : Prop := leaves u.pumpAll.settle r;
      (t.ctxAt d sq cid = none → ends (t.bump DRV_STRAY d)) ∧
      (∀ key c e, t.ctxAt d sq cid = some (key, c) → c.quar = some e →
        let u := (t.bump DRV_LATE d (t.cmdAttr c.op.owner)).raise DRV_EVENT_LATE d;
        ends ((if v.data ≠ [] ∧ c.reopened = false then u.bumpBy DRV_LATE_DMA d c.op.units (u.cmdAttr c.op.owner) else u).accountCtx d key)) ∧
      (∀ key c, t.ctxAt d sq cid = some (key, c) → c.quar = none →
        let u := t.freeCtx d key;
        (v.sct = 0 → v.sc = 0 → c.op.kind ≠ .acquire → ends ((u.readLands c.op v).opDone c.op)) ∧
        (v.sct = 0 → v.sc = 0 → c.op.kind = .acquire → ends (u.acquireDone d true)) ∧
        (v.sct = 0 → v.sc = 0x83 → ends (u.conflicted d c.op)) ∧
        (v.sct = 2 → v.sc = 0x81 → c.op.kind = .read → let w := u.bump DRV_MEDIA_ERR d (u.cmdAttr c.op.owner)
          ends (if c.op.job.isSome then w.jobFailed c.op true else w.endOpOf c.op)) ∧
        (v.sct = 0 → v.sc = 0x82 → v.dnr = false → c.op.notReady < 4 → c.op.kind ≠ .acquire →
          ends (u.updDrawer d fun w => { w with nnr := w.nnr ++ [{ c.op with notReady := c.op.notReady + 1 }] })) ∧
        (¬ (v.sct = 0 ∧ v.sc = 0) → ¬ (v.sct = 0 ∧ v.sc = 0x83) → c.op.kind = .acquire → ends (u.acquireDone d false)) ∧
        (¬ (v.sct = 0 ∧ v.sc = 0) → ¬ (v.sct = 0 ∧ v.sc = 0x83) → c.op.kind ≠ .acquire →
          ¬ (v.sct = 2 ∧ v.sc = 0x81 ∧ c.op.kind = .read) → ¬ (v.sct = 0 ∧ v.sc = 0x82 ∧ v.dnr = false ∧ c.op.notReady < 4) →
          ends (u.opFailed c.op v.dnr)))) ∧
    (∀ v q c key x, SMap.find ((s.takeEntryCq d 0 cid v).drawer d).aborts cid = some (q, c) →
      let u := (s.takeEntryCq d 0 cid v).updDrawer d fun w => { w with aborts := SMap.del cid w.aborts };
      v.sct = 0 → v.sc = 0 → v.dw0 % 2 = 0 → u.ctxAt d q c = some (key, x) → x.quar.isSome = true →
      leaves (u.accountCtx d key).pumpAll.settle (exec (.nvmeCompletion d 0 cid v) s)) ∧
    (∀ key c, s.ctxAt d sq cid = some (key, c) →
      (c.quar = none → c.stamp + s.ioTimeout c.op ≤ s.epoch → st = 4 →
        let u := s.bump (if c.op.kind = .read then DRV_TO_READ else DRV_TO_WRITE) d (s.cmdAttr c.op.owner)
        let v := (u.raise DRV_EVENT_TIMEOUT d).drawerRecord d 4 4 2
        let w := v.updDrawer d fun x => { x with ctxs := SMap.put key { c with quar := some v.epoch } x.ctxs };
        leaves ((((w.countCtxs d).sendAbort d sq cid).opFailed c.op false).pumpAll).settle (exec (.ioTimeout d sq cid) s)) ∧
      (∀ e, c.quar = some e → e + 2 * s.ioTimeout c.op ≤ s.epoch →
        leaves (if c.accounted then (s.freeCtx d key).pumpAll else s.resetDrawer d).settle
          (exec (.contextQuarantineEnd d sq cid) s))) ∧
    ((s.drawer d).adminSince + max 1 (s.reg DRV_ADMIN_TO_CYCLES) ≤ s.rtu.cycle →
      let r := exec (.adminTimeout d) s;
      (st = 4 → (s.drawer d).aborts ≠ [] → leaves (s.resetDrawer d).settle r) ∧
      (st = 3 → (s.drawer d).adminOut = true →
        let u := s.updDrawer d fun w => { w with adminSince := s.rtu.cycle };
        leaves ((u.enterDrawer d 5).bump DRV_RESETS d).settle r) ∧
      (st = 5 → (s.drawer d).adminOut = true → leaves (s.failDrawer d 3).settle r)) ∧
    (let u := (s.bump DRV_CTO d).updDrawer d fun w => { w with ctoCount := (s.drawer d).ctoCount + 1 }
      let r := exec (.pcieCompletionTimeout d) s;
      (u.dState d = 4 → (s.drawer d).ctoCount = 0 → leaves (u.resetDrawer d).settle r) ∧
      (u.dState d = 4 → (s.drawer d).ctoCount ≠ 0 → leaves (u.failDrawer d 12).settle r) ∧
      (u.dState d = 3 ∨ u.dState d = 5 → leaves (u.failDrawer d 12).settle r) ∧
      (u.dState d ≠ 3 → u.dState d ≠ 4 → u.dState d ≠ 5 → leaves u.settle r))

/-- BAR2 reaches the Sideboard, arbiters grant and mask seats, a gate entry acts, an uncorrectable error is reported
and acted on (R226, R316, R318, R320, R321, R322). A BAR2 read answers the bytes of the window, 0 in the Bureau
area and above 48 GiB; a BAR2 write is performed in the host area alone, elsewhere counted and discarded. A
grant performs the burst at the head of the highest-numbered unmasked seat with one pending, counts it, clears
its starvation counter and raises the others'; with none nothing changes. A masked seat loses its queue and its
counter, an unmasked one starts empty. An uncorrectable error counts, loads the address and the requester, sets
UE, is recorded, and its requester acts by its row: a BAR2 read has no answer, a BNC access faults its thread's
command. At its line, an entry of the gate list in force sets the gates, and the scheduler's rounds follow. -/
def Obligations.WindowSeatsAndErrorsAct : Prop :=
  ∀ (s : State), s.takes = true →
    let leaves (u : State) (r : Host.Outcome State Fault Refusal) : Prop := r = .next (u.keepQueue s);
    (∀ off len, leaves { s with out := { s.out with bar2 := some ((List.range len).map fun k =>
        if s.bar2Addr off + k < 0x10000000 ∨ 0xC00000000 ≤ s.bar2Addr off + k then 0
        else s.sbd.mem.read (s.bar2Addr off + k)) } }
      (exec (.bar2Read off len) s)) ∧
    (∀ off data,
      let a := s.bar2Addr off;
      (hostArea ≤ a → a + data.length ≤ hostArea + hostAreaSize → leaves (s.sbWrite a data) (exec (.bar2Write off data) s)) ∧
      (a < hostArea ∨ hostArea + hostAreaSize < a + data.length →
        leaves ((s.bump SBD_BAR2_REFUSED 0 (burstAttr reqMEP)).raise SBD_EVENT_BAR2_REFUSED) (exec (.bar2Write off data) s))) ∧
    (∀ a k b rest, a < 3 → (s.pendingSeats a).getLast? = some k → s.seatQueue a k = b :: rest →
      let u := (s.setSeatQueue a k rest).sbWrite b.addr b.data
      let v := (u.bump ARB_GRANTS (16 * a + k) (burstAttr (u.reg ARB_SEAT_REQ (16 * a + k)))).setStarve a k 0;
      leaves (((v.pendingSeats a).filter (· != k)).foldl (fun v j => v.starveSeat a j) v) (exec (.arbiterGrant a) s)) ∧
    (∀ a, a < 3 → s.pendingSeats a = [] → leaves s (exec (.arbiterGrant a) s)) ∧
    (∀ a k, a < 3 → k < 16 →
      let m := s.reg ARB_MASKED_SEAT a;
      leaves (((s.setReg ARB_MASKED_SEAT a (m ||| 2 ^ k)).setSeatQueue a k []).setStarve a k 0) (exec (.seatMask a k) s) ∧
      (s.masked a k = true → leaves ((s.setReg ARB_MASKED_SEAT a (m - 2 ^ k)).setSeatQueue a k []) (exec (.seatUnmask a k) s)) ∧
      (s.masked a k = false → leaves s (exec (.seatUnmask a k) s))) ∧
    (∀ req addr owner, req < 12 →
      let u := ((s.bump SBD_UE 0 (burstAttr req)).setReg SBD_UE_ADDR_ADDR 0 addr).setReg SBD_UE_ADDR_REQ 0 req
      let v := (u.raise SBD_EVENT_UE).record 0x70 2 bSBD (leBytes 8 addr ++ [b8 req]);
      leaves (v.ueAction req addr owner).settle (exec (.sideboardUe req addr owner) s) ∧
      (req = 9 → v.ueAction req addr owner = { v with out := { v.out with bar2 := none } }) ∧
      (req = 1 → owner < 512 → (v.thread owner).frame.isSome = true →
        v.ueAction req addr owner = v.benchFault owner 0x0D01 0) ∧
      (req = 0 ∨ req = 3 ∨ req = 6 → v.ueAction req addr owner = v)) ∧
    (∀ port e, port < 32 → e < 256 → s.runs bSCH = true → s.flag SCH_GATE_CTL_EN port = true → e < s.gateCount port →
      s.rtu.line = s.gateLine port e → s.gatesInForce port ≠ [] →
      leaves ((s.setReg SCH_GATE_STATE_ENTRY port e).setReg SCH_GATE_STATE_OPEN port
        (s.reg SCH_GATE_LIST_OPEN (256 * port + e))).syncPorts (exec (.gateEntry port e) s))

/-- A lock is granted, released, renewed, cleaned, read, forced and expires as its state and its owner's GEN decide
(R325, R326, R327, R328, R329, R330, R333). For an owner whose path may write LCK_CMD of lock n: an acquire of a
HELD lock counts BUSY and answers outcome 2 with the owner's KIND, ID and GEN; of a FREE or ABANDONED one it
grants the lock with GEN one higher mod 2^24, RECOVER set for an abandoned one, and answers outcome 0 or 1.
Release, renew and clean by the HELD lock's owner with the current GEN free it, restart the lease, and clear
RECOVER; from any other they count STALE and leave the lock. A read answers the state word and changes nothing
else. A force abandons a HELD lock with cause 3 from the Bureau alone, a lease at its count abandons it with
cause 2. -/
def Obligations.LocksFollowTheirOwners : Prop :=
  ∀ (s : State) (who : LockOwner) (n gen : Nat), s.takes = true → who.wf = true → n < 256 → gen < 2 ^ 24 →
    (∀ p, who.path = some p → s.mayWrite p (lockCmdAddr n) = true) →
    let leaves (u : State) (r : Host.Outcome State Fault Refusal) : Prop := r = .next (u.keepQueue s)
    let st := s.reg LCK_LOCK_STATE n
    let answered (u : State) (outcome gen word : Nat) : State :=
      let v : State := { u with out := { u.out with lockResult := SMap.put who.kind word u.out.lockResult } };
      match who.path with
      | some p => (v.setReg LCK_RESULT_OUTCOME p.idx outcome).setReg LCK_RESULT_GEN p.idx gen
      | none => v
    let owns := st = 1 ∧ s.reg LCK_LOCK_KIND n = who.kind ∧ s.reg LCK_LOCK_ID n = who.ident ∧ s.reg LCK_LOCK_GEN n = gen
    let stale := (s.bump LCK_STALE 0 (LockOwner.attr who n s)).raise LCK_EVENT_STALE;
    (st = 1 → leaves (answered (s.bump LCK_BUSY 0 (LockOwner.attr who n s)) 2 (s.reg LCK_LOCK_GEN n)
        (2 * 2 ^ 62 + 2 ^ 56 * s.reg LCK_LOCK_KIND n + 2 ^ 32 * s.reg LCK_LOCK_ID n + s.reg LCK_LOCK_GEN n))
      (exec (.lockAcquire who n) s)) ∧
    (st ≠ 1 →
      let ab := st == 2
      let u := (((s.setReg LCK_LOCK_STATE n 1).setFlag LCK_LOCK_RECOVER n ab).setReg LCK_LOCK_KIND n who.kind).setReg
        LCK_LOCK_ID n who.ident
      let v := ((u.setReg LCK_LOCK_GEN n ((u.reg LCK_LOCK_GEN n + 1) % 2 ^ 24)).setReg LCK_LOCK_HELD n 0).bump LCK_ACQUIRES 0
        (LockOwner.attr who n u)
      let g := v.reg LCK_LOCK_GEN n;
      leaves (answered v (Bool.nat ab) g (2 ^ 62 * Bool.nat ab + g)) (exec (.lockAcquire who n) s)) ∧
    (owns → leaves (s.freeLock n) (exec (.lockRelease who n gen) s)) ∧
    (owns → leaves (s.setReg LCK_LOCK_HELD n 0) (exec (.lockRenew who n gen) s)) ∧
    (owns → leaves (s.setFlag LCK_LOCK_RECOVER n false) (exec (.lockClean who n gen) s)) ∧
    (¬ owns → leaves stale (exec (.lockRelease who n gen) s) ∧ leaves stale (exec (.lockRenew who n gen) s) ∧
      leaves stale (exec (.lockClean who n gen) s)) ∧
    leaves { s with out := { s.out with lockResult := SMap.put who.kind (s.lockWord n) s.out.lockResult } }
      (exec (.lockStateRead who n) s) ∧
    (∀ p, s.mayWrite p (lockCmdAddr n) = true →
      (p = .bureau → leaves (s.abandonLock n 3) (exec (.lockForce p n) s)) ∧
      (p ≠ .bureau → leaves (s.logErr 5 p (lockCmdAddr n)) (exec (.lockForce p n) s))) ∧
    (st = 1 → s.reg LCK_LOCK_LEASE n ≠ 0 → s.reg LCK_LOCK_LEASE n ≤ s.reg LCK_LOCK_HELD n →
      leaves ((s.abandonLock n 2).raise LCK_EVENT_LEASE) (exec (.lockLeaseExpiry n) s)) ∧
    (st = 1 → ∀ cause,
      let u := ((((s.setReg LCK_LOCK_STATE n 2).setReg LCK_LOCK_KIND n 0).setReg LCK_LOCK_ID n 0).bump LCK_ABANDONS).raise
        LCK_EVENT_ABANDONED;
      s.abandonLock n cause = u.record 0x71 1 bLCK ([b8 n, b8 cause, b8 (s.reg LCK_LOCK_KIND n), 0] ++
        leBytes 4 (s.reg LCK_LOCK_ID n) ++ leBytes 4 (u.reg LCK_LOCK_GEN n)))

/-- HNG_CMD swaps, rejoins and detaches, and timers, contests and the power-fail warning of the pair act (R345,
R346, R347, R348, R349, R350, R353, R354, R355, R358, R402, R409). On a path that may write HNG_CMD with HNG
running: OP 3 on a paired active with no swap, warning or ACTIVATE begins a swap; OP 4 of a DETACHED part, or a
FENCED one with a live active peer, makes it a synchronising standby; OP 5 on a paired active asks its standby
to stand down; otherwise CMD_REFUSED sets. After START_DEFER a STARTING part that has found no peer contests; an
unanswered contest drive is unreachable; announcements repeat while some are owed; a missed COPY_END is counted
at a standby; a lapsed watchdog clears CORE_OK. PFW_N asserts once: PFW sets, a swap whose last copy is not
confirmed is abandoned, the recorder flushes; its release clears PFW. -/
def Obligations.PairCommandsAndPowerWarningsAct : Prop :=
  ∀ (s : State), s.takes = true →
    let leaves (u : State) (r : Host.Outcome State Fault Refusal) : Prop := r = .next (u.keepQueue s)
    let refused := s.raise HNG_EVENT_CMD_REFUSED;
    (∀ p, s.mayWrite p HNG_CMD_OP.addr = true →
      let swaps := s.runs bHNG = true ∧ s.isActive = true ∧ s.hng.paired = true ∧ s.hng.swapping = 0 ∧ s.top.pfw = false ∧
        s.activating = false
      let rejoins := s.runs bHNG = true ∧ (s.pair = 3 ∨ (s.pair = 4 ∧ s.livePeer = true))
      let detaches := s.runs bHNG = true ∧ s.isActive = true ∧ s.hng.paired = true;
      (swaps → leaves { s with hng := { s.hng with swapping := 1 } } (exec (.roleSwap p) s)) ∧
      (¬ swaps → leaves refused (exec (.roleSwap p) s)) ∧
      (rejoins → leaves s.becomeStandby.settle (exec (.rejoin p) s)) ∧
      (¬ rejoins → leaves refused.settle (exec (.rejoin p) s)) ∧
      (detaches → leaves { s with hng := { s.hng with detachReq := true } } (exec (.detach p) s)) ∧
      (¬ detaches → leaves refused (exec (.detach p) s))) ∧
    (s.hng.deferring = true → s.role = 0 → s.runs bHNG = true →
      leaves (State.startContest { s with hng := { s.hng with deferring := false } } 0).settle (exec .startDeferEnd s)) ∧
    (∀ d, d < 48 → s.hng.contesting = true →
      let u := s.updDrawer d fun w => { w with pend := w.pend.filter fun o => o.kind != .acquire };
      leaves (u.contestAnswer d 3).pumpAll.settle (exec (.contestTimeout d) s)) ∧
    (s.hng.announce ≠ 0 → s.isActive = true →
      leaves (State.announceAll { s with hng := { s.hng with announce := s.hng.announce - 1 } }) (exec .announceRepeat s)) ∧
    (s.role = 2 → s.runs bHNG = true →
      leaves (State.followPaths { s with hng := { s.hng with missed := s.hng.missed + 1 } }).settle (exec .copyEndMissed s)) ∧
    leaves { s with hng := { s.hng with coreOk := false } } (exec .watchdogLapse s) ∧
    (s.top.pfw = true → leaves s.settle (exec .powerFailWarning s)) ∧
    (s.top.pfw = false →
      let u := ((s.setPfw true).raise SLP_EVENT_PFW).powerRecord 1 0
      let v : State := { u with hng := { u.hng with swapping := 0, c0 := [] } };
      leaves ((if 1 ≤ u.hng.swapping ∧ u.hng.swapping ≤ 3 then v else u).startFlush 2).settle (exec .powerFailWarning s)) ∧
    (s.top.pfw = true → leaves ((s.setPfw false).powerRecord 2 0).settle (exec .pfwRelease s)) ∧
    (s.top.pfw = false → leaves s (exec .pfwRelease s))

/-- Hinge frames act in order, are acknowledged and sent again, and the link's lanes decide the path (R261, R336,
R338, R339, R341, R342, R346, R352, R354, R411). With HNG running and the link up, a sequenced frame of version
1 with a good trailer, the next number and room for its cells counts, acts, and 32 unacknowledged frames send an
ACK; one of another version is a CRC error, a bad trailer is one answered with NAK, another number, or no room
for its cells, is answered with NAK. A COPY's sections wait at a receiving standby; COPY_END applies them where
the CRC matches, else confirms with result 1; a swap's last CONFIRM makes the active stand down; SYNC acts and
its last frame drains the queue; TIME sets the phase, and refuses a pairing whose phase (2), fused counts (3) or
keys (4) do not fit; a recorder frame is kept and flushed. ACK frees frames and NAK sends again, as 4 µs do from
the oldest; 1 µs acknowledges. Lanes below LANES_MIN down the link, others retrain it narrower or train it. -/
def Obligations.HingeFramesAct : Prop :=
  ∀ (s : State), s.takes = true →
    let leaves (u : State) (r : Host.Outcome State Fault Refusal) : Prop := r = .next (u.keepQueue s)
    let up := s.runs bHNG = true ∧ s.hng.linkUp = true
    let room (n : Nat) : Prop := s.withinLimits none (cellsOf n) = true ∧ s.fill + cellsOf n ≤ s.cabUsable
    let taken (n : Nat) : State :=
      let u := (s.hold none (cellsOf n)).unhold none (cellsOf n);
      State.bump { u with hng := { u.hng with rxSeq := (u.hng.rxSeq + 1) % 65536, sinceAck := u.hng.sinceAck + 1 } } HNG_RX_FRAMES
    let good (h : HingeHdr) (n : Nat) : Prop := up ∧ h.ver = 1 ∧ h.crcOk = true ∧ h.seq = s.hng.rxSeq ∧ room n
    let acked (u : State) : State := if 32 ≤ u.hng.sinceAck then u.hingeAckNow else u;
    (∀ h (sections : List CopySection), let n := (sections.map sectionBytes).flatten.length
      let t := taken n;
      good h n → leaves (acked (if t.receivesCopy then
        State.hold { t with hng := { t.hng with rxCopy := t.hng.rxCopy ++ sections } } none (copyCells sections) else t))
        (exec (.hingeCopy h sections) s)) ∧
    (∀ h sections, up → h.ver ≠ 1 → leaves (s.bump HNG_CRC_ERR) (exec (.hingeCopy h sections) s)) ∧
    (∀ h sections, up → h.ver = 1 → h.crcOk = false →
      leaves (s.hingeBad.hingeControl 5 s.hng.rxSeq) (exec (.hingeCopy h sections) s)) ∧
    (∀ h (sections : List CopySection), up → h.ver = 1 → h.crcOk = true →
      h.seq ≠ s.hng.rxSeq ∨ ¬ room (sections.map sectionBytes).flatten.length →
      leaves (s.hingeControl 5 s.hng.rxSeq) (exec (.hingeCopy h sections) s)) ∧
    (∀ h counts crc, good h 68 →
      let t := taken 68
      let u := State.followPaths { t with hng := { t.hng with missed := 0 } }
      let cs := u.hng.rxCopy
      let v : State := { u with hng := { u.hng with rxCopy := [] } }
      let w := if (crc32c (cs.map sectionBytes).flatten).toNat ≠ crc then (v.unhold none (copyCells cs)).sendConfirm h.epoch crc 1
        else if v.hng.syncing then { v with hng := { v.hng with syncQueue := v.hng.syncQueue ++ [(h.epoch, h.swap, cs)] } }
        else (v.unhold none (copyCells cs)).applyCopy h.epoch h.swap cs;
      leaves (acked (if u.receivesCopy = false then u else w)) (exec (.hingeCopyEnd h counts crc) s)) ∧
    (∀ h epoch crc result, good h 13 →
      let t := taken 13
      let c := t.confirmCopy epoch result
      let u := if c.1 = true ∧ c.2.hng.swapping = 3 then ((c.2.raise HNG_EVENT_SWAPPED).pairRecord 7).becomeStandby else c.2;
      leaves (acked (if t.isActive = false then t else u)).pumpAll.settle (exec (.hingeConfirm h epoch crc result) s)) ∧
    (∀ h (sections : List CopySection), let n := (sections.map sectionBytes).flatten.length
      let t := taken n;
      good h n →
      let u := t.applySections sections;
      leaves (acked (if t.receivesCopy = true ∧ t.hng.syncing = true then (if h.last then u.drainSync else u) else t))
        (exec (.hingeSync h sections) s)) ∧
    (∀ h time epoch flight, h.svn ≤ 64 → h.rkey < 2 ^ 64 → good h 16 →
      let t := taken 16
      let u := t.setReg HNG_PHASE_SUB 0 (int32 (t.peerPhase time flight))
      let wide := t.peerPhase time flight < -8192 ∨ 8192 < t.peerPhase time flight
      let fits := h.svn = u.reg FWU_SVN_FUSED ∧ h.rkey / 2 = u.reg DRV_RKEY_KEY / 2;
      (¬ wide → fits → u.role ≠ 2 → u.isActive = false → leaves (acked u) (exec (.hingeTime h time epoch flight) s)) ∧
      (wide → u.role = 2 → u.pair = 1 → leaves (acked (u.refusePair 2)) (exec (.hingeTime h time epoch flight) s)) ∧
      (¬ wide → h.svn ≠ u.reg FWU_SVN_FUSED → u.role = 2 → u.pair = 1 →
        leaves (acked (u.refusePair 3)) (exec (.hingeTime h time epoch flight) s)) ∧
      (¬ wide → h.svn = u.reg FWU_SVN_FUSED → h.rkey / 2 ≠ u.reg DRV_RKEY_KEY / 2 → u.role = 2 → u.pair = 1 →
        leaves (acked (u.refusePair 4)) (exec (.hingeTime h time epoch flight) s)) ∧
      (¬ wide → fits → u.role = 2 → u.pair = 1 →
        leaves (acked (State.setReg { u with rtu := { u.rtu with cycle := time / 2 ^ 24 } } RTU_EPOCH_COUNT_COUNT 0 epoch))
          (exec (.hingeTime h time epoch flight) s)) ∧
      (¬ wide → fits → u.role ≠ 2 → u.isActive = true → u.pairEn = true →
        leaves (acked u.sendTime.startSync) (exec (.hingeTime h time epoch flight) s))) ∧
    (∀ h (data : List Byte), good h data.length → leaves (acked ((taken data.length).peerExtent data)) (exec (.hingeRecorder h data) s)) ∧
    (∀ h seq, seq < 65536 → up → h.ver = 1 → h.crcOk = true →
      leaves ((s.ackRecorder seq).hingeAcked seq).planFlush (exec (.hingeAck h seq) s) ∧
      leaves (s.hingeResend seq) (exec (.hingeNak h seq) s)) ∧
    (∀ f rest, s.hng.unacked = f :: rest → up → leaves (s.hingeResend f.seq) (exec .hingeResendTimeout s)) ∧
    (s.hng.sinceAck ≠ 0 → s.hng.linkUp = true → leaves s.hingeAckNow (exec .hingeAckTimer s)) ∧
    (∀ n, n ≤ 8 →
      let u := s.setReg HNG_STATUS_LANES 0 n
      let v := State.followPaths { u with hng := { u.hng with linkUp := true, missed := 0 } }
      let w := if n < 8 then v.degraded else v;
      (n < u.lanesMin → leaves (State.followPaths { u with hng := { u.hng with linkUp := false } }).settle (exec (.hingeLinkDown n) s)) ∧
      (u.lanesMin ≤ n → leaves u.degraded.settle (exec (.hingeLinkDown n) s)) ∧
      (n < u.lanesMin → leaves u (exec (.hingeLinkUp n) s)) ∧
      (u.lanesMin ≤ n → leaves (if w.runs bHNG = true ∧ w.role = 2 ∧ w.pair = 1 then w.sendTime else w)
        (exec (.hingeLinkUp n) s)))

/-- A Tether frame is discarded, refuses the pairing, or is live and followed; the part sends its own and hears
silence (R335, R344, R346, R347, R352, R353, R358). A Tether frame without version 1 or with a wrong CRC-8 is
discarded; one of this part's own unit refuses the pairing with reason 1 where pairing is enabled and HNG runs.
Another keeps its pair live, its role, pair state, PFW and CORE_OK become the peer's, and the paths are
followed; a STARTING part that sees an ACTIVE peer becomes its standby, an active that sees a SYNCED standby
with copies flowing pairs at the next boundary. Every 10 µs the part's frame leaves and an interval without a
valid frame is counted. 30 µs without CORE_OK silence the Tether path. -/
def Obligations.TetherFramesAct : Prop :=
  ∀ (s : State), s.takes = true →
    let leaves (u : State) (r : Host.Outcome State Fault Refusal) : Prop := r = .next (u.keepQueue s);
    (∀ pair f, pair < 2 →
      let v := f.bits.toNat
      let own := Bool.nat (v.testBit 59) = s.top.unitSel % 2
      let u : State := { s with hng := { s.hng with
        tetherAt := SMap.put pair s.ns s.hng.tetherAt, peerPfw := v.testBit 51,
        tetherSilent := s.hng.tetherSilent && !v.testBit 52 } }
      let w := (u.showTether.setReg HNG_STATUS_PEER_ROLE 0 (v / 2 ^ 56 % 2 ^ 3)).setReg HNG_STATUS_PEER_PAIR 0 (v / 2 ^ 53 % 2 ^ 3)
      let x := (w.setFlag HNG_STATUS_PEER_CORE_OK 0 (v.testBit 52)).followPaths;
      (v / 2 ^ 60 % 2 ^ 4 ≠ 1 ∨ v % 256 ≠ tetherCrc v → leaves s.settle (exec (.tetherFrame pair f) s)) ∧
      (v / 2 ^ 60 % 2 ^ 4 = 1 → v % 256 = tetherCrc v → own → s.runs bHNG = true → s.pairEn = true →
        leaves ((s.setReg HNG_STATUS_REFUSE 0 1).raise HNG_EVENT_PAIR_REFUSED).settle (exec (.tetherFrame pair f) s)) ∧
      (v / 2 ^ 60 % 2 ^ 4 = 1 → v % 256 = tetherCrc v → own → s.runs bHNG = false ∨ s.pairEn = false →
        leaves s.settle (exec (.tetherFrame pair f) s)) ∧
      (v / 2 ^ 60 % 2 ^ 4 = 1 → v % 256 = tetherCrc v → ¬ own →
        leaves (x.followPeer v).settle (exec (.tetherFrame pair f) s)) ∧
      (x.runs bHNG = true → x.pairEn = true → x.role = 0 → x.isActive = false → v / 2 ^ 56 % 2 ^ 3 = 1 → x.hng.contesting = false →
        x.followPeer v = x.becomeStandby) ∧
      (x.runs bHNG = true → x.pairEn = true → x.role ≠ 2 → x.isActive = true → v / 2 ^ 56 % 2 ^ 3 = 2 → v / 2 ^ 53 % 2 ^ 3 = 2 →
        x.hng.detachReq = false → x.hng.copying = true → x.hng.paired = false →
        x.followPeer v = { x with hng := { x.hng with pairNext := true } })) ∧
    (let u : State := { s with hng := { s.hng with tetherOut := s.tetherBits, tetherSeq := (s.hng.tetherSeq + 1) % 65536 } }
      let heard := (u.hng.tetherAt.any fun e => decide (u.ns < 10000 + e.2)) = true
      let t := (if heard then u else u.bump HNG_TETHER_MISS)
      let both := t.flag HNG_STATUS_TETHER0 = true ∧ t.flag HNG_STATUS_TETHER1 = true
      let w := t.showTether;
      (¬ (both ∧ w.tetherLive 0 ≠ w.tetherLive 1 ∧ w.runs bHNG = true ∧ w.pairEn = true) → leaves w (exec .tetherSend s)) ∧
      (both → w.tetherLive 0 ≠ w.tetherLive 1 → w.runs bHNG = true → w.pairEn = true → leaves w.degraded (exec .tetherSend s))) ∧
    leaves (State.followPaths (State.showTether { s with hng := { s.hng with tetherSilent := true } })).settle (exec .tetherSilent s)

/-- A slot channel starts, ramps, limits, faults, retries and latches, feeds fault, and an ADC sample is kept (R11,
R361, R363, R364, R365, R366, R367, R369, R372). While the power block takes commands, ON of an OFF channel
enters START, joined where its output is within 500 mV of the bus, and OFF drops power-good, limiting and the
retry count and enters OFF; with the control link silent both leave the channel. START ends in ON where joined
and in RAMP where not, RAMP ends in ON. Limiting in RAMP or ON starts the fault timer and drops power-good, its
end clears both. A fast trip in START, RAMP or ON is cause 1, the timer's expiry cause 2: the channel latches
without MODE or at RETRY_MAX, else waits and starts again with the count raised; a second of power-good clears
it. A feed that is on faults with its cause; a sample loads bus, channels and feeds. -/
def Obligations.ChannelsStartFaultAndRetry : Prop :=
  ∀ (s : State) (d : Nat), s.takes = true → d < 48 →
    let leaves (u : State) (r : Host.Outcome State Fault Refusal) : Prop := r = .next (u.keepQueue s)
    let st := s.reg SLP_CH_STATE d
    let takes := s.runs bSLP = true ∧ s.slp.linkSilent = false
    let bus := s.reg SLP_STATUS_BUS_MV
    let out := s.reg SLP_CH_VOUT_MV d
    let faulted (cause : Nat) : State :=
      let u := ((s.dropPg d).endLimiting d).bump SLP_CH_FAULTS d
      let v := (u.setReg SLP_CH_CAUSE d cause).raise (if cause = 1 then SLP_EVENT_FAST_TRIP else SLP_EVENT_TIMER_FAULT)
      let latches := !v.flag SLP_CH_MODE d || decide (max 1 (v.reg SLP_CH_RETRY_MAX d) ≤ v.reg SLP_CH_RETRIES d)
      let w := v.setReg SLP_CH_STATE d (if latches then 5 else 4)
      let x := w.record 0x80 2 bSLP ([b8 d, b8 cause, b8 (w.reg SLP_CH_RETRIES d), b8 (Bool.nat latches)] ++
        leBytes 2 (w.reg SLP_CH_VOUT_MV d) ++ leBytes 2 (w.reg SLP_CH_I_MA d))
      let y := x.raise SLP_EVENT_LATCHED;
      if latches then (if y.dState d = 1 then y.failDrawer d 10 else y) else x;
    (takes → st = 0 → leaves ((s.setReg SLP_CH_STATE d 1).setFlag SLP_CH_JOINED d
      (decide (bus - out ≤ 500) && decide (out - bus ≤ 500))) (exec (.slotOnCommand d) s)) ∧
    (takes → leaves ((((s.dropPg d).endLimiting d).setReg SLP_CH_RETRIES d 0).setReg SLP_CH_STATE d 0) (exec (.slotOffCommand d) s)) ∧
    (¬ takes → leaves s (exec (.slotOnCommand d) s) ∧ leaves s (exec (.slotOffCommand d) s)) ∧
    (st = 1 → leaves (s.setReg SLP_CH_STATE d (if s.flag SLP_CH_JOINED d then 3 else 2)) (exec (.startPhaseEnd d) s)) ∧
    (st = 2 → leaves (s.setReg SLP_CH_STATE d 3) (exec (.rampComplete d) s)) ∧
    (st = 2 ∨ st = 3 →
      leaves (((s.setFlag SLP_CH_LIMITING d true).setFlag SLP_CH_TIMER d true).dropPg d) (exec (.limitingStart d) s)) ∧
    leaves ((s.setFlag SLP_CH_LIMITING d false).setFlag SLP_CH_TIMER d false) (exec (.limitingEnd d) s) ∧
    (1 ≤ st → st ≤ 3 → leaves (faulted 1) (exec (.fastTrip d) s)) ∧
    (s.flag SLP_CH_TIMER d = true → leaves (faulted 2) (exec (.faultTimerExpiry d) s)) ∧
    (st = 2 ∨ st = 3 → s.flag SLP_CH_TIMER d = false →
      leaves ((s.setFlag SLP_CH_PG d true).setFlag DRV_STATE_PG d true) (exec (.powerGoodDebounceEnd d) s)) ∧
    (s.flag SLP_CH_PG d = true → leaves (((s.setFlag SLP_CH_PG d false).setFlag DRV_STATE_PG d false).raise SLP_EVENT_PG_LOST)
      (exec (.powerGoodFail d) s)) ∧
    (s.flag SLP_CH_PG d = false → leaves s (exec (.powerGoodFail d) s)) ∧
    (st = 4 → leaves ((s.setReg SLP_CH_RETRIES d (min 15 (s.reg SLP_CH_RETRIES d + 1))).chStart d) (exec (.retryDelayEnd d) s)) ∧
    (s.flag SLP_CH_PG d = true → leaves (s.setReg SLP_CH_RETRIES d 0) (exec (.retryCountClear d) s)) ∧
    leaves { s with slp := { s.slp with linkSilent := true } } (exec .controlLinkSilent s) ∧
    (let u : State := { s with slp := { s.slp with linkSilent := false } };
      leaves ((List.range 48).foldl (fun u d => if u.drawerRuns d then u.slotOn d
        else if u.chState d ≠ 0 ∧ (u.dState d = 0 ∨ u.dState d = 7) then u.slotOff d else u) u) (exec .controlLinkRecover s)) ∧
    (∀ f, f < 2 → s.reg SLP_FEED_STAT_STATE f = 1 →
      let fault (cause : Nat) : State := (((s.setReg SLP_FEED_STAT_STATE f 2).setReg SLP_FEED_STAT_CAUSE f cause).raise
        SLP_EVENT_FEED_FAULT).powerRecord 3 f;
      leaves (fault 0) (exec (.feedOvercurrent f) s) ∧ leaves (fault 1) (exec (.feedReverseCurrent f) s)) ∧
    (∀ mv slots feeds,
      let u : State := (slots.filter fun e => decide (e.1 < 48)).foldl (fun (u : State) e =>
        (u.setReg SLP_CH_I_MA e.1 e.2.1).setReg SLP_CH_VOUT_MV e.1 e.2.2) (s.setReg SLP_STATUS_BUS_MV 0 mv)
      let v : State := (feeds.filter fun e => decide (e.1 < 2)).foldl (fun (u : State) e =>
        (u.setReg SLP_FEED_STAT_I_10MA e.1 e.2.1).setReg SLP_FEED_STAT_VIN_MV e.1 e.2.2) u
      let w : State := if v.outOfShare = true ∧ v.slp.shareLimit = false then (v.raise SLP_EVENT_SHARE_LIMIT).powerRecord 4 0 else v;
      leaves { w with slp := { w.slp with shareLimit := v.outOfShare } } (exec (.adcSample mv slots feeds) s))

/-- The management endpoint's link, Bus Master Enable, FLR, PERST, power state and errors act as their rules say
(R378, R379, R381, R383, R388). MEP_PERST_N starts an FLR, downs a link that is up, which raises LINK_DOWN, and
clears CFG_READY and the run bit; CFG_READY written 1 sets both. The link down clears UP, the width and L1 and
raises LINK_DOWN; DL_Active sets UP and the width and sends what waits. Clearing Bus Master Enable, as a
starting FLR does, ends every busy DMA channel aborted; setting it, and a power-state write, send what waits. A
complete FLR resets the function, answers the outstanding invalidations, abandons BAR0's locks and raises FLR.
An idle up link enters L1; a detected error is recorded, an uncorrectable one raises AER. -/
def Obligations.EndpointLinkAndResetsAct : Prop :=
  ∀ (s : State), s.takes = true →
    let leaves (u : State) (r : Host.Outcome State Fault Refusal) : Prop := r = .next (u.keepQueue s)
    let bmeOff := ((List.range 4).filter fun ch => s.reg MEP_DMA_STATUS ch == 1).foldl (fun (u : State) ch =>
      (u.setReg MEP_DMA_STATUS ch 2).raise MEP_EVENT_DMA_ABORT) (s.setFlag MEP_LINK_BME 0 false)
    let flr := State.setFlag { bmeOff with mep := { bmeOff.mep with flr := true } } MEP_LINK_FLR 0 true;
    leaves bmeOff (exec .bmeClear s) ∧
    leaves flr (exec .functionLevelReset s) ∧
    (let w := ((flr.setFlag MEP_LINK_UP 0 false).setReg MEP_LINK_WIDTH_SPEED 0 0).setFlag MEP_LINK_L1 0 false
      let u := if s.flag MEP_LINK_UP then w.raise MEP_EVENT_LINK_DOWN else flr
      let v := (u.setFlag MEP_CTRL_CFG_READY 0 false).setRuns bMEP false;
      leaves { v with mep := { v.mep with perst := true } } (exec .mepPerst s)) ∧
    (∀ p, s.mayWrite p MEP_CTRL_CFG_READY.addr = true →
      leaves ((s.setFlag MEP_CTRL_CFG_READY 0 true).setRuns bMEP true) (exec (.cfgReadySet p) s)) ∧
    leaves (s.setFlag MEP_LINK_BME 0 true).sendPending (exec .bmeSet s) ∧
    (s.mep.flr = true →
      let n := s.mep.invals.length
      let u := (s.resetFunction.bumpBy MEP_INVALS 0 n {}).abandonOwner .bar0;
      leaves ((State.setFlag { u with mep := { u.mep with flr := false } } MEP_LINK_FLR 0 false).raise MEP_EVENT_FLR)
        (exec .flrComplete s)) ∧
    (s.mep.flr = false → leaves s (exec .flrComplete s)) ∧
    (∀ d3, leaves (State.sendPending { s with mep := { s.mep with d3 := d3 } }) (exec (.powerStateWrite d3) s)) ∧
    leaves ((((s.setFlag MEP_LINK_UP 0 false).setReg MEP_LINK_WIDTH_SPEED 0 0).setFlag MEP_LINK_L1 0 false).raise
      MEP_EVENT_LINK_DOWN) (exec .mepLinkDown s) ∧
    (∀ width top, width ≤ 4 →
      let u : State := { s with mep := { s.mep with perst := false } }
      let code := if width = 4 then 3 else if width = 2 then 2 else 1;
      leaves (((u.setFlag MEP_LINK_UP 0 true).setReg MEP_LINK_WIDTH_SPEED 0 (code * 2 + Bool.nat top)).setFlag MEP_LINK_L1 0
        false).sendPending (exec (.mepLinkUp width top) s)) ∧
    (s.flag MEP_LINK_UP = true → s.mep.dma = [] → s.msixWaits = false → leaves (s.setFlag MEP_LINK_L1 0 true) (exec .l1IdleExpiry s)) ∧
    (∀ unc cor hdr,
      let u := s.record 0x51 2 bMEP (aerBody 0xFF unc cor hdr);
      leaves (if unc = 0 then u else u.raise MEP_EVENT_AER) (exec (.endpointAerError unc cor hdr) s))

/-- MSI-X vectors are acknowledged and unmasked, DMA copies start and end, translations are looked up and
invalidated (R316, R382, R383, R384, R388). On paths that may write them: an acknowledge re-arms the named
vectors and services each, clearing a mask sends what waits; GO on an idle channel aborts without Bus Master
Enable, ends with status 3 on illegal settings, else starts, leaves L1 and looks its pages up where ATS is on.
Enabling MSI-X sends what waits. A finished copy to the host hands over the bytes read, one into the host area
is written, one outside it or failed ends with 3; the completions of an aborted read are discarded and counted.
An invalidation drops the overlapping translations and is answered once no copy uses them; clearing ATS drops
them all. -/
def Obligations.VectorsAndCopiesAct : Prop :=
  ∀ (s : State), s.takes = true →
    let leaves (u : State) (r : Host.Outcome State Fault Refusal) : Prop := r = .next (u.keepQueue s);
    (∀ p mask, s.mayWrite p MEP_VEC_ACK_ACK.addr = true →
      let vs := (List.range 64).filter mask.testBit
      let u : State := { s with mep := { s.mep with disarmed := vs.foldl (fun m v => if m.testBit v then m - 2 ^ v else m) s.mep.disarmed } };
      leaves (vs.foldl State.serviceVector u) (exec (.vectorAck p mask) s)) ∧
    (∀ p v, v < 64 → s.mayWrite p (MSIX_TABLE_ADDR.addr + 16 * v + 12) = true →
      leaves ((s.setFlag MSIX_TABLE_MASK v false).sendMsix v) (exec (.msixMaskClear p v) s)) ∧
    leaves (s.setFlag MEP_LINK_MSIX 0 true).sendPending (exec .msixEnable s) ∧
    (∀ p ch ctl, ch < 4 → ctl < 8 → s.mayWrite p (MEP_DMA_HOST.addr + 0x20 * ch + 0x14) = true →
      let x : Dma := {
        toHost := ctl.testBit 1, host := s.reg MEP_DMA_HOST ch, sbd := s.reg MEP_DMA_SBD ch,
        len := s.reg MEP_DMA_LEN ch, ats := ctl.testBit 2 && s.mep.atsOn }
      let r := exec (.dmaStart p ch ctl) s;
      (ctl.testBit 0 = false ∨ s.reg MEP_DMA_STATUS ch = 1 → leaves s r) ∧
      (ctl.testBit 0 = true → s.reg MEP_DMA_STATUS ch ≠ 1 → s.flag MEP_LINK_BME = false →
        leaves ((s.setReg MEP_DMA_STATUS ch 2).raise MEP_EVENT_DMA_ABORT) r) ∧
      (ctl.testBit 0 = true → s.reg MEP_DMA_STATUS ch ≠ 1 → s.flag MEP_LINK_BME = true → x.legal = false →
        leaves (s.setReg MEP_DMA_STATUS ch 3) r) ∧
      (ctl.testBit 0 = true → s.reg MEP_DMA_STATUS ch ≠ 1 → s.flag MEP_LINK_BME = true → x.legal = true →
        let u := s.setReg MEP_DMA_STATUS ch 1
        let v := State.setFlag { u with mep := { u.mep with dma := SMap.put ch x u.mep.dma } } MEP_LINK_L1 0 false;
        leaves (if x.ats then x.pages.foldl State.translate v else v) r)) ∧
    (∀ ch x data, ch < 4 → SMap.find s.mep.dma ch = some x →
      let u : State := { s with mep := { s.mep with dma := SMap.del ch s.mep.dma } }
      let r (ok : Bool) := exec (.dmaDone ch ok data) s
      let w := u.setReg MEP_DMA_STATUS ch 0;
      (∀ ok, s.reg MEP_DMA_STATUS ch ≠ 1 →
        leaves (if x.toHost then u else u.bumpBy MEP_DISCARDED 0 ((4095 + data.length) / 4096) {}).answerInvals (r ok)) ∧
      (s.reg MEP_DMA_STATUS ch = 1 → leaves (u.setReg MEP_DMA_STATUS ch 3).answerInvals (r false)) ∧
      (s.reg MEP_DMA_STATUS ch = 1 → x.toHost = true →
        leaves (State.answerInvals { w with mep := { u.mep with hostMem := s.dmaBytes x } }) (r true)) ∧
      (s.reg MEP_DMA_STATUS ch = 1 → x.toHost = false → x.inHostArea = true →
        leaves ((u.sbWrite x.sbd ((data ++ List.replicate x.len 0).take x.len)).setReg MEP_DMA_STATUS ch 0).answerInvals (r true)) ∧
      (s.reg MEP_DMA_STATUS ch = 1 → x.toHost = false → x.inHostArea = false →
        leaves (u.setReg MEP_DMA_STATUS ch 3).answerInvals (r true))) ∧
    (∀ addr size tag,
      let keep (e : AtsEntry) : Bool := decide (e.page * 4096 + 4096 ≤ addr) || decide (addr + size ≤ e.page * 4096);
      leaves (State.answerInvals { s with mep := { s.mep with ats := s.mep.ats.filter keep, invals := s.mep.invals ++ [(addr, size, tag)] } })
        (exec (.atsInvalidate addr size tag) s)) ∧
    leaves { s with mep := { s.mep with atsOn := false, ats := [] } } (exec .atsEnableClear s)

/-- FWU_CMD starts one operation after its checks, and its end has the effect, RESULT, event and record of R398
(R390, R391, R392, R395, R396, R397, R398, R399, R400). On a path that may write FWU_CMD, an OP while another
runs gives RESULT 9 and FAILED; else it is BUSY with the result of its first failed check: a VERIFY's length,
header and stepping, CRCs, SVN and signature, a PROGRAM without VERIFIED or under a power-fail warning, an
ACTIVATE without VERIFIED, in recovery or without slots, OP 4 and 5 in recovery. At its end: a VERIFY whose
staging was written gives 6, a good one sets VERIFIED with version and SVN; a PROGRAM writes the image and the
seal and counts, or reads back wrong with result 10 and an open unit count, and restarts the part from recovery;
OP 4 raises the fused SVN, OP 5 writes the recovery record, OP 6 empties the staging area. A delivered word
lands in its unit, the last moves on. -/
def Obligations.FirmwareOperationsRunAndEnd : Prop :=
  ∀ (s : State), s.takes = true →
    let leaves (u : State) (r : Host.Outcome State Fault Refusal) : Prop := r = .next (u.keepQueue s)
    let ended (u : State) (j : FwuJob) (r : Nat) : State :=
      let v := State.setFlag { u with fwu := { u.fwu with job := none } } FWU_STATUS_BUSY 0 false;
      ((v.setReg FWU_STATUS_RESULT 0 r).raise (if r = 0 then FWU_EVENT_DONE else FWU_EVENT_FAILED)).fwuRecord 0 j.op r
    let asked (op : Nat) (t : Host.Outcome State Fault Refusal) : Prop :=
      (s.fwu.job.isSome = true → leaves ((s.setReg FWU_STATUS_RESULT 0 9).raise FWU_EVENT_FAILED) t) ∧
      (s.fwu.job = none →
        let r := s.fwuChecks op
        let len := if op = 1 then s.reg FWU_LEN_UNITS * 4096 else fwLength (s.staged 4096)
        let j : FwuJob := { op := op, result := r, image := if op ≤ 3 ∧ r = 0 then s.staged len else [] }
        let u := State.setFlag { s with fwu := { s.fwu with job := some j } } FWU_STATUS_BUSY 0 true;
        leaves (if r = 0 then u.fwuBegin op j else u) t);
    (∀ p, s.mayWrite p FWU_CMD_OP.addr = true →
      asked 1 (exec (.fwVerify p) s) ∧ asked 2 (exec (.fwProgram p) s) ∧ asked 3 (exec (.fwActivate p) s) ∧
      asked 4 (exec (.fwCommitSvn p) s) ∧ asked 5 (exec (.fwWriteRecovery p) s) ∧ asked 6 (exec (.fwClearStaging p) s)) ∧
    (let n := s.reg FWU_LEN_UNITS
      let img := s.staged (n * 4096);
      (n < 2 ∨ 15739 < n → s.fwuChecks 1 = 1) ∧
      (2 ≤ n → n ≤ 15739 → fwHeaderOk img (n * 4096) = false ∨ s.steppingOk img = false → s.fwuChecks 1 = 2) ∧
      (2 ≤ n → n ≤ 15739 → fwHeaderOk img (n * 4096) = true → s.steppingOk img = true → fwCrcOk img = false → s.fwuChecks 1 = 3) ∧
      (2 ≤ n → n ≤ 15739 → fwHeaderOk img (n * 4096) = true → s.steppingOk img = true → fwCrcOk img = true →
        fwSvn img < s.reg FWU_SVN_FUSED → s.fwuChecks 1 = 4) ∧
      (s.flag FWU_STATUS_VERIFIED = false → s.fwuChecks 2 = 6 ∧ s.fwuChecks 3 = 6) ∧
      (s.flag FWU_STATUS_VERIFIED = true → s.fwuChecks 2 = if s.top.pfw then 7 else 0) ∧
      (s.inRecovery = true → s.fwuChecks 4 = 8 ∧ s.fwuChecks 5 = 8) ∧
      (s.inRecovery = false → s.fwuChecks 4 = 0) ∧ s.fwuChecks 6 = 0) ∧
    (∀ m, leaves (if s.handingOver && !(s.fwuDone m).handingOver then (s.fwuDone m).deliverAll.settle else s.fwuDone m)
      (exec (.fwOpDone m) s)) ∧
    (s.fwu.job = none → ∀ m, s.fwuDone m = s) ∧
    (∀ j m, s.fwu.job = some j →
      let r := s.fwuDone m
      let units := j.image.length / 4096;
      (s.fwuReady j = false → r = s) ∧
      (j.op = 1 → j.dirtied = true → r = (ended s j 6)) ∧
      (j.op = 1 → j.dirtied = false → j.result ≠ 0 → r = (ended s.endVerified j j.result)) ∧
      (j.op ≠ 1 → j.op ≠ 2 → j.result ≠ 0 → r = (ended s j j.result)) ∧
      (j.op = 1 → j.dirtied = false → j.result = 0 →
        r = (ended (((s.setFlag FWU_STATUS_VERIFIED 0 true).setReg FWU_VER_STAGED 0 (fwVersion j.image)).setReg
          FWU_SVN_STAGED 0 (fwSvn j.image)) j 0)) ∧
      (j.op = 2 → j.result = 0 → m = true →
        r = (ended ((s.freeBits 14).2.setReg FWU_PROG_UNITS 0 ((s.freeBits 14).1 % (units + 1))) j 10)) ∧
      (j.op = 2 → j.result = 0 → m = false →
        let u : State := { s with fwu := { s.fwu with
          image := j.image ++ s.fwu.image.drop j.image.length, sealBlock := sealFor j.image j.count } }
        let v := ended ((u.setReg FWU_PROG_UNITS 0 units).bump FWU_PROGRAMS) j 0;
        r = (if v.inRecovery then v.warmReset 0 else v)) ∧
      (j.op = 4 → j.result = 0 →
        let n := max (s.reg FWU_SVN_FUSED) (s.reg FWU_SVN_RUNNING)
        let u := s.setReg FWU_SVN_FUSED 0 n;
        r = (ended (if u.flag FWU_STATUS_VERIFIED = true ∧ u.reg FWU_SVN_STAGED < n then u.endVerified else u) j 0)) ∧
      (j.op = 5 → j.result = 0 → r = (ended { s with fwu := { s.fwu with recovery := s.recoveryRecord } } j 0)) ∧
      (j.op = 6 → j.result = 0 →
        let keep := s.sbd.mem.filter fun e => decide (e.1 < hostArea) || decide (hostArea + stagingSize ≤ e.1);
        r = (ended (State.endVerified { s with sbd := { s.sbd with mem := keep } }) j 0))) ∧
    (∀ p idx val, idx < 1024 → val < 2 ^ 32 → s.mayWrite p (FWU_BLK_DATA_DATA.addr + 4 * idx) = true →
      let b := s.reg FWU_BLK_OFF_UNITS
      let u := s.sbWrite (hostArea + 4096 * b + 4 * idx) (leBytes 4 val);
      leaves (if idx = 1023 then (u.setReg FWU_BLK_OFF_UNITS 0 (b + 1)).bump FWU_UNITS_IN 0
        (accessAttr p (FWU_BLK_DATA_DATA.addr + 4 * idx)) else u) (exec (.blkDataWrite p idx val) s))

/-- BOOT starts a sealed image that its checks pass or enters recovery, and the debug state locks and unlocks (R328,
R394, R395, R397, R401). At the release of a reset, once, and not while a trip holds the part: without a good
loader the ROM runs recovery with code 2, with a torn or failing image the loader runs it with code 1, else the
image starts. A release counts ns from 0, samples UNIT and the clocks, and trains both stacks and starts the
Sideboard. On a path that may write FWU_DBG_CMD: a bad signature draws a new nonce, a good one unlocks,
zeroising every key slot, unless the fuse is blown; OP 2 and a debug reset abandon JTAG's locks, OP 2 locks
again. -/
def Obligations.BootAndDebugStateAct : Prop :=
  ∀ (s : State),
    let leaves (u : State) (r : Host.Outcome State Fault Refusal) : Prop := r = .next (u.keepQueue s);
    (s.top.phase = .tripped ∨ (s.top.phase = .run ∧ s.top.booted = true) → leaves s (exec .boot s)) ∧
    (s.top.phase = .powerOn ∨ s.top.phase = .warm ∨ s.top.phase = .shelf →
      let u : State := { s with top := { s.top with phase := .run, booted := true }, ns := 0 }
      let v := (u.setReg TOP_RSTCAUSE_UNIT 0 (s.top.unitSel % 2)).setReg HNG_STATUS_UNIT 0 (s.top.unitSel % 2)
      let w := v.setReg TOP_CLKSTAT_PRESENT 0 (31 - (s.top.clocksLost.map fun c => 2 ^ c).sum)
      let x := if s.top.clocksLost = [] then w else w.raise TOP_HW_EVENT_CLK_LOSS
      let y := if x.top.clocksLost.contains 0 then x.setFlag TOP_CLKSTAT_HOLD 0 true else x
      let img := s.release.fwu.sealedImage
      let good := s.release.fwu.isSealed = true ∧ s.release.checkFw img (s.release.fwu.sealUnits * 4096) = 0;
      (s.release = (((y.setFlag SLP_STATUS_PFW 0 y.top.pfw).setFlag SBD_STATUS_TRAINED0 0 true).setFlag
        SBD_STATUS_TRAINED1 0 true).setRuns bSBD true) ∧
      (s.release.fwu.loaderOk = false → leaves (s.release.recover 2) (exec .boot s)) ∧
      (s.release.fwu.loaderOk = true → ¬ good → leaves (s.release.recover 1) (exec .boot s)) ∧
      (s.release.fwu.loaderOk = true → good → leaves (s.release.startImage img) (exec .boot s))) ∧
    (s.takes = true →
      leaves (s.abandonOwner .jtag) (exec .dbgReset s) ∧
      ∀ p, s.mayWrite p FWU_DBG_CMD_OP.addr = true →
        (s.dbgSigned = false → leaves s.newNonce (exec (.dbgUnlock p) s)) ∧
        (s.dbgSigned = true → s.fwu.dbgDisable = true → leaves s (exec (.dbgUnlock p) s)) ∧
        (s.dbgSigned = true → s.fwu.dbgDisable = false →
          leaves ((State.setFlag { s with cph := { s.cph with slots := [] } } FWU_DBG_CMD_UNLOCKED 0 true).raise FWU_EVENT_DBG_UNLOCKED)
            (exec (.dbgUnlock p) s)) ∧
        leaves ((s.setFlag FWU_DBG_CMD_UNLOCKED 0 false).abandonOwner .jtag) (exec (.dbgLock p) s))

/-- The recorder flushes, posts, serves its window by cursor, commits extents, and the counters clear at the next
boundary (R307, R407, R408, R409, R410, R414, R418, R419, R420). On a path that may write EVR_CMD a flush starts
with cause 3, or follows the one that runs; on one that may write EVR_POST, GO from the Bureau records a type of
0xC0 or above with SOURCE 0 and discards a lower one, from another path it is logged with code 5; EVR_CUR moves
the path's cursor and drops its page; PMC_CMD marks every counter for the next boundary. A window read on a path
that may read builds a page from the cursor where there is none, answers the word, and its last word moves the
cursor behind the page. An extent write that ends takes its extent from the drive's queue, one that fails loses
the drive and plans its orphans again. -/
def Obligations.RecorderCommandsAct : Prop :=
  ∀ (s : State), s.takes = true →
    let leaves (u : State) (r : Host.Outcome State Fault Refusal) : Prop := r = .next (u.keepQueue s);
    (∀ p, s.mayWrite p EVR_CMD_OP.addr = true →
      (s.evr.flushing = true → leaves { s with evr := { s.evr with flushAgain := some (s.evr.flushAgain.getD 3) } }
        (exec (.evrFlush p) s)) ∧
      (s.evr.flushing = false →
        leaves (State.setFlag { s with evr := { s.evr with
          flushing := true, flushCause := 3, flushNs := s.ns, range := s.evr.unflushed.map (·.seq) } } EVR_STATUS_FLUSHING 0 true)
          (exec (.evrFlush p) s))) ∧
    (∀ p, s.mayWrite p EVR_POST_GO.addr = true →
      (p ≠ .bureau → leaves (s.logErr 5 p EVR_POST_GO.addr) (exec (.evrPost p) s)) ∧
      (p = .bureau → s.reg EVR_POST_TYPE < 0xC0 → leaves s (exec (.evrPost p) s)) ∧
      (p = .bureau → 0xC0 ≤ s.reg EVR_POST_TYPE →
        leaves (s.record (s.reg EVR_POST_TYPE) (s.reg EVR_POST_SEVERITY) 0
          (((List.range 256).flatMap fun i => leBytes 4 (s.reg EVR_POST_BODY i)).take (s.reg EVR_POST_LEN))) (exec (.evrPost p) s))) ∧
    (∀ p seq, s.mayWrite p EVR_CUR_SEQ.addr = true →
      leaves (s.setPathCursor p { s.pathCursor p with cur := seq, page := none, count := 0 }) (exec (.evrCurWrite p seq) s)) ∧
    (∀ p, s.mayWrite p PMC_CMD_OP.addr = true → leaves { s with pmc := { s.pmc with clearDue := true } } (exec (.pmcClear p) s)) ∧
    (∀ p idx, idx < 1024 → (p = .jtag → s.flag FWU_DBG_CMD_UNLOCKED = true) →
      s.pathAllows p false ((blockOf (EVR_WINDOW_DATA.addr + 4 * idx)).getD 0) = true →
      let c := if (s.pathCursor p).page.isNone then s.buildPage (s.pathCursor p) else s.pathCursor p
      let len := (c.page.getD []).length
      let u := s.answerRead p [leNat (((c.page.getD []).drop (4 * idx)).take 4)];
      leaves (u.setPathCursor p (if 0 < len ∧ (len - 1) / 4 = idx then
        { c with cur := (c.lastSeq + 1) % 2 ^ 32, page := none, count := 0 } else c)) (exec (.evrWindowRead p idx) s)) ∧
    (∀ d ok, d < 48 → SMap.get [] s.evr.queues d = [] → leaves s.planFlush.settle (exec (.extentCommitted d ok) s)) ∧
    (∀ d x rest, d < 48 → SMap.get [] s.evr.queues d = x :: rest →
      leaves ((s.extentDone d x rest).planFlush.endFlush.stageExtents).settle (exec (.extentCommitted d true) s) ∧
      (let u := State.ledgerDriveLost { s with evr := { s.evr with queues := SMap.del d s.evr.queues } } d
        let orphans := (x :: rest).filter fun y => y.raw == [] && !u.isFlushed y && !(u.evr.queues.flatMap fun e => e.2).contains y
        let v : State := { u with evr := { u.evr with range := (orphans.flatMap fun y => y.recs.map (·.seq)) ++ u.evr.range } };
        leaves (v.planFlush.endFlush.stageExtents).settle (exec (.extentCommitted d false) s)))

/-- Power-on, warm, shelf and trip resets act by the phase, set their cause, and keep what R424 lists (R2, R392,
R406, R410, R422, R423, R424, R426, R429, R446, R447). PWR_OK low puts the part in power-on reset from any phase
with scope 0; a warm reset acts but in power-on reset and after a trip, with scope 1, a shelf reset from running
alone, with scope 2, and loses PRESERVED until both stacks are in self-refresh. TOP_RESET on a path that may
write it acts with KEY 0xC0DE and source 1 alone, else RESET_REFUSED. A trip holds the part and asserts
THERMTRIP. What each leaves is held in reset: registers at their reset values but for the fused SVN and the SEQ
after the highest in the recorder areas, NOR, fuses, ledger media and recorder areas kept, Sideboard memory lost
but for a preserved ledger area, Drawers as their presence pins. -/
def Obligations.ResetsClearWhatTheyDoNotKeep : Prop :=
  ∀ (s : State),
    let leaves (u : State) (r : Host.Outcome State Fault Refusal) : Prop := r = .next (u.keepQueue s)
    let caused (u : State) (unit scope source : Nat) (kept : Bool) : State :=
      (((u.setReg TOP_RSTCAUSE_UNIT 0 unit).setFlag TOP_RSTCAUSE_PRESERVED 0 kept).setReg TOP_RSTCAUSE_SOURCE 0 source).setReg
        TOP_RSTCAUSE_SCOPE 0 scope
    let unit := s.reg TOP_RSTCAUSE_UNIT
    let warm (src : Nat) : State := caused (s.cleared .warm false) unit 1 src false
    let shelf (src : Nat) : State := caused { s with top := { s.top with phase := .shelfEntry, blkrst := [] } } unit 2 src false;
    leaves (caused (s.cleared .powerOn false) 0 0 0 false) (exec .powerOnReset s) ∧
    (s.top.phase ≠ .powerOn → s.top.phase ≠ .tripped → leaves (warm 0) (exec .warmReset s)) ∧
    (s.top.phase = .powerOn ∨ s.top.phase = .tripped → leaves s (exec .warmReset s) ∧ leaves s (exec .shelfReset s)) ∧
    (s.top.phase = .run → leaves (shelf 0) (exec .shelfReset s)) ∧
    (s.top.phase = .shelfEntry →
      leaves (caused (s.cleared .shelf true) unit 2 (s.reg TOP_RSTCAUSE_SOURCE) true) (exec .selfRefreshDone s)) ∧
    (s.top.phase ≠ .shelfEntry → leaves s (exec .selfRefreshDone s)) ∧
    leaves (caused (s.cleared .tripped false) unit (s.reg TOP_RSTCAUSE_SCOPE) (s.reg TOP_RSTCAUSE_SOURCE) false) (exec .thermalTrip s) ∧
    (∀ p key, s.takes = true → key < 2 ^ 16 → s.mayWrite p TOP_RESET_OP.addr = true →
      (key = 0xC0DE → s.top.phase = .run → leaves (warm 1) (exec (.warmResetCmd p key) s) ∧
        leaves (shelf 1) (exec (.shelfResetCmd p key) s)) ∧
      (key ≠ 0xC0DE → leaves (s.raise TOP_EVENT_RESET_REFUSED) (exec (.warmResetCmd p key) s) ∧
        leaves (s.raise TOP_EVENT_RESET_REFUSED) (exec (.shelfResetCmd p key) s))) ∧
    (∀ ph kept,
      let u := s.cleared ph kept;
      u.fwu.image = s.fwu.image ∧ u.fwu.sealBlock = s.fwu.sealBlock ∧ u.fwu.recovery = s.fwu.recovery ∧
        u.fwu.dbgDisable = s.fwu.dbgDisable ∧ u.ldg.media = s.ldg.media ∧ u.evr.area = s.evr.area ∧ u.evr.ring = [] ∧
        u.top.unitSel = s.top.unitSel ∧ u.top.pfw = s.top.pfw ∧ u.top.thermtrip = (ph == .tripped) ∧ u.cph = {} ∧ u.ctx = {} ∧
        u.cmd = {} ∧ u.nlt = {} ∧ u.reg FWU_SVN_FUSED = s.reg FWU_SVN_FUSED ∧ u.regs.cur = [] ∧ u.regs.pend = [] ∧
        (kept = false → u.sbd.mem = []) ∧ (ph ≠ .run → u.held = true))

/-- TOP_BLKRST resets one block, sensors report warnings, and lost and returning input clocks act (R427, R428, R444,
R446, R448, R450). On a path that may write TOP_BLKRST: a block that may be reset now and is not in reset masks
its seats, returns its registers but class L and its own state, as an FLR for MEP, and clears its counters with
BUSY; another sets BLKRST_REFUSED; the oldest one's end unmasks its seats and sets BLKRST_DONE, and BUSY clears
after the last. A sensor at its trip temperature, by the ordering code, trips the part, held or not; else,
unless held, its reading is kept with the highest of all; at WARN it sets THERM_WARN, above 85 °C an HBM stack
sets HBM_HOT. A lost clock is noted and, running, sets CLK_LOSS and acts: REF_CLK enters holdover, a NETCLK
downs its ports; its return clears HOLD for REF_CLK. -/
def Obligations.BlockResetsSensorsAndClocksAct : Prop :=
  ∀ (s : State),
    let leaves (u : State) (r : Host.Outcome State Fault Refusal) : Prop := r = .next (u.keepQueue s);
    (∀ p b, s.takes = true → b < 32 → s.mayWrite p TOP_BLKRST_BLOCK.addr = true →
      let may := s.blockResettable b = true ∧ b ∉ s.top.blkrst
      let u : State := { s with top := { s.top with blkrst := s.top.blkrst ++ [b] } }
      let v := ((u.setFlag TOP_STATUS_BUSY 0 true).setReg TOP_STATUS_BLOCK 0 b).maskBlock b
      let w := if b = bMEP then v.flrStart else (v.resetBlockRegs b).resetUnit b;
      (may → leaves ((List.range 8).foldl (fun x k => x.setReg PMC_CTR_VALUE (8 * b + k) 0) w) (exec (.blockReset p b) s)) ∧
      (¬ may → leaves (s.raise TOP_EVENT_BLKRST_REFUSED) (exec (.blockReset p b) s))) ∧
    (s.takes = true → s.top.blkrst = [] → leaves s (exec .blockResetDone s)) ∧
    (∀ b rest, s.takes = true → s.top.blkrst = b :: rest →
      let u := State.unmaskBlock { s with top := { s.top with blkrst := rest } } b;
      leaves ((if rest = [] then u.setFlag TOP_STATUS_BUSY 0 false else u).raise TOP_EVENT_BLKRST_DONE) (exec .blockResetDone s)) ∧
    (∀ i t, s.takes = true ∨ s.held = true → i < 8 → t < 2 ^ 16 →
      let value := (if i = 5 ∨ i = 6 then 110 else 120) + (if s.reg TOP_ID_ORDER = 0 then 0 else 10);
      i < 7 → (16 * value : Nat) ≤ signedTemp t → leaves s.trip (exec (.thermalWarning i t) s)) ∧
    (∀ i t, s.held = true → i < 8 → t < 2 ^ 16 → s.trips i t = false → leaves s (exec (.thermalWarning i t) s)) ∧
    (∀ i t, s.takes = true → i < 8 → t < 2 ^ 16 → s.trips i t = false →
      let u := if i < 7 then s.setReg TOP_TEMP_TEMP i t else s
      let v := u.setReg TOP_TEMP_TEMP 7 u.hottest
      let w := if (16 * v.reg TOP_THERM_WARN : Int) ≤ signedTemp t then v.raise TOP_HW_EVENT_THERM_WARN else v;
      leaves (if (i = 5 ∨ i = 6) ∧ 16 * 85 < signedTemp t then w.raise TOP_HW_EVENT_HBM_HOT else w) (exec (.thermalWarning i t) s)) ∧
    (∀ c, c < 5 →
      let lost : State := { s with top := { s.top with clocksLost := c :: s.top.clocksLost } }
      let back : State := { s with top := { s.top with clocksLost := s.top.clocksLost.filter (· != c) } }
      let shown := lost.showClocks.raise TOP_HW_EVENT_CLK_LOSS
      let again := back.showClocks.raise TOP_HW_EVENT_CLK_LOSS;
      (s.top.clocksLost.contains c = true → leaves s (exec (.clockLoss c) s)) ∧
      (s.top.clocksLost.contains c = false → s.held = true → leaves lost (exec (.clockLoss c) s)) ∧
      (s.top.clocksLost.contains c = false → s.held = false →
        leaves (shown.clockAction c).settle (exec (.clockLoss c) s) ∧
        (c = 0 → shown.clockAction c = (shown.setFlag TOP_CLKSTAT_HOLD 0 true).enterHoldover) ∧
        (c = 2 → shown.clockAction c = (List.range 16).foldl (fun x i =>
          if x.portRuns (16 + i) then x.portGoesDown (16 + i) else x) shown)) ∧
      (s.top.clocksLost.contains c = false → leaves s (exec (.clockReturn c) s)) ∧
      (s.top.clocksLost.contains c = true → s.held = true → leaves back (exec (.clockReturn c) s)) ∧
      (s.top.clocksLost.contains c = true → s.held = false →
        leaves (if c = 0 then again.setFlag TOP_CLKSTAT_HOLD 0 false else again) (exec (.clockReturn c) s)))

/-- Every command of the clock, the register space, resets, the network, Cipher, the hosts and the Benches completes
with its own effect (R1, R19, R31, R40, R44, R78, R124, R174, R422, R432). In every state that is not held in
reset and owes no epoch boundary, each of these commands whose operands name what the part has, on a path that
may write the register it writes, answers the next state of its own operation with the queue as it was: a reset,
its end, BOOT, a trip and an input clock also while the device is held, EPOCH_BOUNDARY also while the boundary
is owed. What the operation computes is said by the statements about its family. -/
def Obligations.CommandsOfTimeNetworkAndBenchesComplete : Prop :=
  ∀ (s : State),
    (s.held = false → exec .epochBoundary s = .next (s.epochBoundary.keepQueue s)) ∧
    exec .powerOnReset s = .next (s.powerOn.keepQueue s) ∧
    exec .warmReset s = .next ((s.warmReset 0).keepQueue s) ∧
    exec .shelfReset s = .next ((s.shelfReset 0).keepQueue s) ∧
    exec .selfRefreshDone s = .next (s.selfRefreshed.keepQueue s) ∧
    exec .thermalTrip s = .next (s.trip.keepQueue s) ∧
    (∀ (clk : Nat), decide (clk < 5) = true → exec (.clockLoss clk) s = .next ((s.clockLost clk).keepQueue s)) ∧
    (∀ (clk : Nat), decide (clk < 5) = true → exec (.clockReturn clk) s = .next ((s.clockReturns clk).keepQueue s)) ∧
    (s.takes = true →
    (∀ (p : Path) (addr width val : Nat), decide (val < 2 ^ 32) = true →
      exec (.registerWrite p addr width val) s = .next (((s.regWrite p (pathOwner p) addr width val).2).keepQueue s)) ∧
    (∀ (p : Path) (addr val coincident : Nat), decide (val < 2 ^ 32) = true →
      exec (.w1cWrite p addr val coincident) s = .next ((s.w1cWrite p addr val coincident).keepQueue s)) ∧
    (∀ (p : Path) (addr coincident : Nat), exec (.rcRead p addr coincident) s = .next ((s.rcRead p addr coincident).keepQueue s)) ∧
    (∀ (p : Path) (addr : Nat), exec (.lowWordRead p addr) s = .next ((s.readAnswer p addr).keepQueue s)) ∧
    (∀ (p : Path), s.mayWrite p RTU_CMD_START.addr = true → exec (.rtuStart p) s = .next ((s.rtuDoStart p).keepQueue s)) ∧
    (∀ (p : Path), s.mayWrite p RTU_CMD_STOP.addr = true → exec (.rtuStop p) s = .next ((s.rtuDoStop p).keepQueue s)) ∧
    (∀ (t : RefEdge), exec (.referenceEdge t) s = .next ((s.firstSchedulerLine (s.referenceEdgeAt t.time t.falling)).keepQueue s)) ∧
    (∀ (n : Nat), exec (.ptpVirtualEdge n) s = .next ((s.firstSchedulerLine (s.ptpEdge n)).keepQueue s)) ∧
    (∀ (lport master selected : Nat) (m : PtpMsg), (decide (lport < 32) && decide (m.domain < 256) && decide (m.transport < 3)) = true →
      exec (.ptpEventMessage lport master selected m) s = .next ((s.ptpMessage lport master selected m).keepQueue s)) ∧
    exec .ptpReferenceLoss s = .next (s.ptpLost.keepQueue s) ∧
    exec .missedEdge s = .next (s.missEdge.keepQueue s) ∧
    exec .lineStart s = .next (s.nextLine.keepQueue s) ∧
    exec .workingCycleStart s = .next (s.nextCycle.keepQueue s) ∧
    (∀ (p : Path) (gen : Nat), decide (gen < 2 ^ 32) = true → s.mayWrite p CFG_COMMIT_GEN.addr = true →
      exec (.cfgCommit p gen) s = .next ((s.commitStart p gen).keepQueue s)) ∧
    exec .commitCheckDone s = .next (s.commitEnds.keepQueue s) ∧
    (∀ (p : Path), s.mayWrite p CFG_CTRL_ROLLBACK.addr = true → exec (.cfgRollback p) s = .next ((s.rollback p).keepQueue s)) ∧
    (∀ (p : Path), s.mayWrite p CFG_CTRL_DISCARD.addr = true → exec (.cfgDiscard p) s = .next ((s.discard p).keepQueue s)) ∧
    (∀ (p : Path) (inst view : Nat), (decide (inst < 3) && decide (view < 4)) = true → s.mayWrite p (CFG_VIEW_VIEW.addr + 4 * inst) = true →
      exec (.cfgViewWrite p inst view) s = .next ((s.setReg CFG_VIEW_VIEW inst view).keepQueue s)) ∧
    (∀ (p : Path), s.mayWrite p CFG_ERRLOG_POP_POP.addr = true → exec (.errlogPop p) s = .next (s.popErr.keepQueue s)) ∧
    (∀ (m : RxMeta) (k : Packet), rxWf m k = true → exec (.rxCmd m k) s = .next ((s.arrive m .cmd k).keepQueue s)) ∧
    (∀ (m : RxMeta) (k : Packet), rxWf m k = true → exec (.rxData m k) s = .next ((s.arrive m .data k).keepQueue s)) ∧
    (∀ (m : RxMeta) (k : Packet), rxWf m k = true → exec (.rxAck m k) s = .next ((s.arrive m .ack k).keepQueue s)) ∧
    (∀ (m : RxMeta) (k : Packet), rxWf m k = true → exec (.rxNak m k) s = .next ((s.arrive m .nak k).keepQueue s)) ∧
    (∀ (m : RxMeta) (k : Packet), rxWf m k = true → exec (.rxFlush m k) s = .next ((s.arrive m .flush k).keepQueue s))) ∧
    (s.takes = true →
    (∀ (m : RxMeta) (k : Packet), rxWf m k = true → exec (.rxFlushed m k) s = .next ((s.arrive m .flushed k).keepQueue s)) ∧
    (∀ (m : RxMeta) (k : Packet), rxWf m k = true → exec (.rxProbeRequest m k) s = .next ((s.arrive m .probe k).keepQueue s)) ∧
    (∀ (m : RxMeta) (k : Packet), rxWf m k = true → exec (.rxProbeReply m k) s = .next ((s.arrive m .probe k).keepQueue s)) ∧
    (∀ (m : RxMeta) (k : Packet), rxWf m k = true → exec (.connectReq m k) s = .next ((s.arrive m .ctrl k).keepQueue s)) ∧
    (∀ (m : RxMeta) (k : Packet), rxWf m k = true → exec (.ctrlReady m k) s = .next ((s.arrive m .ctrl k).keepQueue s)) ∧
    (∀ (m : RxMeta) (k : Packet), rxWf m k = true → exec (.ctrlKeepalive m k) s = .next ((s.arrive m .ctrl k).keepQueue s)) ∧
    (∀ (m : RxMeta) (k : Packet), rxWf m k = true → exec (.ctrlClose m k) s = .next ((s.arrive m .ctrl k).keepQueue s)) ∧
    (∀ (m : RxMeta) (k : Packet), rxWf m k = true → exec (.ctrlClosed m k) s = .next ((s.arrive m .ctrl k).keepQueue s)) ∧
    (∀ (m : RxMeta) (k : Packet), rxWf m k = true → exec (.ctrlReset m k) s = .next ((s.arrive m .ctrl k).keepQueue s)) ∧
    (∀ (m : RxMeta) (k : Packet), rxWf m k = true → exec (.mgmtRegRead m k) s = .next ((s.arrive m .mgmt k).keepQueue s)) ∧
    (∀ (m : RxMeta) (k : Packet), rxWf m k = true → exec (.mgmtRegWrite m k) s = .next ((s.arrive m .mgmt k).keepQueue s)) ∧
    (∀ (m : RxMeta) (k : Packet), rxWf m k = true → exec (.mgmtAreaWrite m k) s = .next ((s.arrive m .mgmt k).keepQueue s)) ∧
    (∀ (conn : Nat), decide (conn < 2 ^ 24) = true → exec (.ackDelayExpiry conn) s = .next ((s.ackDelayOver conn).keepQueue s)) ∧
    (∀ (conn : Nat), decide (conn < 2 ^ 24) = true → exec (.retransmitTimeout conn) s = .next (((s.retransmitAll conn).settle).keepQueue s)) ∧
    (∀ (conn : Nat), decide (conn < 2 ^ 24) = true → exec (.rateIntervalEnd conn) s = .next ((s.rateEnd conn).keepQueue s)) ∧
    (∀ (lport : Nat), decide (lport < 32) = true → exec (.transmitOpportunity lport) s = .next (((s.transmitOne lport).settle).keepQueue s)) ∧
    (∀ (p : Path) (lport : Nat), decide (lport < 32) = true → s.mayWrite p (nltCmdAddr lport) = true →
      exec (.nltStart p lport) s = .next ((s.nltDoStart p lport).keepQueue s)) ∧
    (∀ (p : Path) (lport : Nat), decide (lport < 32) = true → s.mayWrite p (nltCmdAddr lport) = true →
      exec (.nltStop p lport) s = .next ((s.nltDoStop p lport).keepQueue s)) ∧
    (∀ (lport : Nat), decide (lport < 32) = true → exec (.linkFault lport) s = .next ((s.linkFaulty lport).keepQueue s)) ∧
    (∀ (lport : Nat), decide (lport < 32) = true → exec (.linkRecover lport) s = .next ((s.linkRecovers lport).keepQueue s)) ∧
    (∀ (lport : Nat), decide (lport < 32) = true → exec (.portDown lport) s = .next ((s.holdExpires lport).keepQueue s)) ∧
    (∀ (lport : Nat), decide (lport < 32) = true → exec (.portFlushDone lport) s = .next ((s.flushDone lport).keepQueue s)) ∧
    (∀ (conn : Nat), decide (conn < 2 ^ 24) = true → exec (.setupTimeout conn) s = .next ((s.setupExpires conn).keepQueue s)) ∧
    (∀ (conn : Nat), decide (conn < 2 ^ 24) = true → exec (.quarantineEnd conn) s = .next (((s.quarantineOver conn).resumeLost).keepQueue s))) ∧
    (s.takes = true →
    (∀ (conn : Nat), decide (conn < 2 ^ 24) = true → exec (.livenessExpiry conn) s = .next ((s.livenessOver conn).keepQueue s)) ∧
    (∀ (lport : Nat), decide (lport < 32) = true → exec (.paramsSend lport) s = .next ((s.sendParams lport).keepQueue s)) ∧
    (∀ (conn : Nat), decide (conn < 2 ^ 24) = true → exec (.contextFetchDone conn) s = .next (((s.fetchDone conn).settle).keepQueue s)) ∧
    (∀ (conn : Nat), decide (conn < 2 ^ 24) = true → exec (.contextWritebackDone conn) s = .next ((s.writebackDone conn).keepQueue s)) ∧
    (∀ (p : Path) (conn : Nat), decide (conn < 2 ^ 24) = true → s.mayWrite p CTX_CMD_OP.addr = true →
      exec (.ctxTeardown p conn) s = .next ((s.ctxTeardown conn).keepQueue s)) ∧
    (∀ (p : Path) (conn : Nat), decide (conn < 2 ^ 24) = true → s.mayWrite p CTX_CMD_OP.addr = true →
      exec (.ctxPin p conn) s = .next ((s.ctxPin conn).keepQueue s)) ∧
    (∀ (p : Path) (conn : Nat), decide (conn < 2 ^ 24) = true → s.mayWrite p CTX_CMD_OP.addr = true →
      exec (.ctxUnpin p conn) s = .next ((s.ctxUnpin conn).keepQueue s)) ∧
    (∀ (p : Path) (conn : Nat), decide (conn < 2 ^ 24) = true → s.mayWrite p CTX_CMD_OP.addr = true →
      exec (.ctxClose p conn) s = .next ((s.ctxClose conn).keepQueue s)) ∧
    (∀ (conn : Nat), decide (conn < 2 ^ 24) = true → exec (.read conn) s = .next (((s.takeCapsule conn (· == opREAD)).settle).keepQueue s)) ∧
    (∀ (conn : Nat), decide (conn < 2 ^ 24) = true → exec (.write conn) s = .next (((s.takeCapsule conn (· == opWRITE)).settle).keepQueue s)) ∧
    (∀ (conn : Nat), decide (conn < 2 ^ 24) = true → exec (.cmdFlush conn) s = .next (((s.takeCapsule conn (· == opFLUSH)).settle).keepQueue s)) ∧
    (∀ (conn : Nat), decide (conn < 2 ^ 24) = true →
      exec (.writeZeroes conn) s = .next (((s.takeCapsule conn (· == opWRITE_ZEROES)).settle).keepQueue s)) ∧
    (∀ (conn : Nat), decide (conn < 2 ^ 24) = true →
      exec (.deallocate conn) s = .next (((s.takeCapsule conn (· == opDEALLOCATE)).settle).keepQueue s)) ∧
    (∀ (conn : Nat), decide (conn < 2 ^ 24) = true →
      exec (.compareWrite conn) s = .next (((s.takeCapsule conn (· == opCOMPARE_WRITE)).settle).keepQueue s)) ∧
    (∀ (conn : Nat), decide (conn < 2 ^ 24) = true → exec (.abort conn) s = .next (((s.takeCapsule conn (· == opABORT)).settle).keepQueue s)) ∧
    (∀ (conn : Nat), decide (conn < 2 ^ 24) = true →
      exec (.regionRegister conn) s = .next (((s.takeCapsule conn (· == opREGION_REGISTER)).settle).keepQueue s)) ∧
    (∀ (conn : Nat), decide (conn < 2 ^ 24) = true →
      exec (.regionRevoke conn) s = .next (((s.takeCapsule conn (· == opREGION_REVOKE)).settle).keepQueue s)) ∧
    (∀ (conn : Nat), decide (conn < 2 ^ 24) = true →
      exec (.cycleReserve conn) s = .next (((s.takeCapsule conn (· == opCYCLE_RESERVE)).settle).keepQueue s)) ∧
    (∀ (conn : Nat), decide (conn < 2 ^ 24) = true →
      exec (.cycleRelease conn) s = .next (((s.takeCapsule conn (· == opCYCLE_RELEASE)).settle).keepQueue s)) ∧
    (∀ (conn : Nat), decide (conn < 2 ^ 24) = true →
      exec (.identify conn) s = .next (((s.takeCapsule conn (· == opIDENTIFY)).settle).keepQueue s)) ∧
    (∀ (conn : Nat), decide (conn < 2 ^ 24) = true →
      exec (.logRead conn) s = .next (((s.takeCapsule conn (· == opLOG_READ)).settle).keepQueue s)) ∧
    (∀ (conn : Nat), decide (conn < 2 ^ 24) = true →
      exec (.cmdKeepalive conn) s = .next (((s.takeCapsule conn (· == opKEEPALIVE)).settle).keepQueue s)) ∧
    (∀ (conn : Nat), decide (conn < 2 ^ 24) = true → exec (.userCommand conn) s = .next (((s.takeCapsule conn isUserOp).settle).keepQueue s)) ∧
    (∀ (grant : Nat), decide (grant < 131072) = true → exec (.grantTimeout grant) s = .next (((s.grantExpires grant).settle).keepQueue s))) ∧
    (s.takes = true →
    (∀ (frame thread : Nat), (decide (frame < 65536) && decide (thread < 512)) = true →
      exec (.commandDispatch frame thread) s = .next (((s.startCommand frame thread).settle).keepQueue s)) ∧
    (∀ (frame thread : Nat) (cached : Bool), (decide (frame < 65536) && decide (thread < 512)) = true →
      exec (.commandResume frame thread cached) s = .next (((s.resumeCommand frame thread cached).settle).keepQueue s)) ∧
    (∀ (owner ticket : Nat), decide (ticket < 64) = true →
      exec (.requestComplete owner ticket) s = .next (((s.completeRequest owner ticket).settle).keepQueue s)) ∧
    (∀ (frame : Nat), decide (frame < 65536) = true → exec (.userWallTimeout frame) s = .next (((s.wallExpires frame).settle).keepQueue s)) ∧
    (∀ (p : Path) (slot : Nat), decide (slot < 64) = true → s.mayWrite p BNC_LOAD_CMD_OP.addr = true →
      exec (.imageLoad p slot) s = .next ((s.loadCmd p slot (·.loadStart slot)).keepQueue s)) ∧
    (∀ (p : Path) (slot : Nat), decide (slot < 64) = true → s.mayWrite p BNC_LOAD_CMD_OP.addr = true →
      exec (.imageUnload p slot) s = .next ((s.loadCmd p slot (·.unload slot)).keepQueue s)) ∧
    exec .imageLoadDone s = .next (s.loadDone.keepQueue s) ∧
    (∀ (t rd ra rb : Nat), (decide (rd < 32) && decide (ra < 32) && decide (rb < 32)) = true →
      exec (.add t rd ra rb) s = .next ((s.runAlu .add t rd ra rb).keepQueue s)) ∧
    (∀ (t rd ra rb : Nat), (decide (rd < 32) && decide (ra < 32) && decide (rb < 32)) = true →
      exec (.sub t rd ra rb) s = .next ((s.runAlu .sub t rd ra rb).keepQueue s)) ∧
    (∀ (t rd ra rb : Nat), (decide (rd < 32) && decide (ra < 32) && decide (rb < 32)) = true →
      exec (.and t rd ra rb) s = .next ((s.runAlu .and t rd ra rb).keepQueue s)) ∧
    (∀ (t rd ra rb : Nat), (decide (rd < 32) && decide (ra < 32) && decide (rb < 32)) = true →
      exec (.or t rd ra rb) s = .next ((s.runAlu .or t rd ra rb).keepQueue s)) ∧
    (∀ (t rd ra rb : Nat), (decide (rd < 32) && decide (ra < 32) && decide (rb < 32)) = true →
      exec (.xor t rd ra rb) s = .next ((s.runAlu .xor t rd ra rb).keepQueue s)) ∧
    (∀ (t rd ra rb : Nat), (decide (rd < 32) && decide (ra < 32) && decide (rb < 32)) = true →
      exec (.andn t rd ra rb) s = .next ((s.runAlu .andn t rd ra rb).keepQueue s)) ∧
    (∀ (t rd ra rb : Nat), (decide (rd < 32) && decide (ra < 32) && decide (rb < 32)) = true →
      exec (.shl t rd ra rb) s = .next ((s.runAlu .shl t rd ra rb).keepQueue s)) ∧
    (∀ (t rd ra rb : Nat), (decide (rd < 32) && decide (ra < 32) && decide (rb < 32)) = true →
      exec (.shr t rd ra rb) s = .next ((s.runAlu .shr t rd ra rb).keepQueue s)) ∧
    (∀ (t rd ra rb : Nat), (decide (rd < 32) && decide (ra < 32) && decide (rb < 32)) = true →
      exec (.sar t rd ra rb) s = .next ((s.runAlu .sar t rd ra rb).keepQueue s)) ∧
    (∀ (t rd ra rb : Nat), (decide (rd < 32) && decide (ra < 32) && decide (rb < 32)) = true →
      exec (.mul t rd ra rb) s = .next ((s.runAlu .mul t rd ra rb).keepQueue s)) ∧
    (∀ (t rd ra rb : Nat), (decide (rd < 32) && decide (ra < 32) && decide (rb < 32)) = true →
      exec (.mulhu t rd ra rb) s = .next ((s.runAlu .mulhu t rd ra rb).keepQueue s)) ∧
    (∀ (t rd ra rb : Nat), (decide (rd < 32) && decide (ra < 32) && decide (rb < 32)) = true →
      exec (.seq t rd ra rb) s = .next ((s.runAlu .seq t rd ra rb).keepQueue s)) ∧
    (∀ (t rd ra rb : Nat), (decide (rd < 32) && decide (ra < 32) && decide (rb < 32)) = true →
      exec (.sne t rd ra rb) s = .next ((s.runAlu .sne t rd ra rb).keepQueue s)) ∧
    (∀ (t rd ra rb : Nat), (decide (rd < 32) && decide (ra < 32) && decide (rb < 32)) = true →
      exec (.slt t rd ra rb) s = .next ((s.runAlu .slt t rd ra rb).keepQueue s)) ∧
    (∀ (t rd ra rb : Nat), (decide (rd < 32) && decide (ra < 32) && decide (rb < 32)) = true →
      exec (.sltu t rd ra rb) s = .next ((s.runAlu .sltu t rd ra rb).keepQueue s)) ∧
    (∀ (t rd ra rb : Nat), (decide (rd < 32) && decide (ra < 32) && decide (rb < 32)) = true →
      exec (.sel t rd ra rb) s = .next ((s.runAlu .sel t rd ra rb).keepQueue s)) ∧
    (∀ (t rd ra : Nat), (decide (rd < 32) && decide (ra < 32)) = true → exec (.clz t rd ra) s = .next ((s.runAlu .clz t rd ra 0).keepQueue s))) ∧
    (s.takes = true →
    (∀ (t rd ra : Nat), (decide (rd < 32) && decide (ra < 32)) = true → exec (.popc t rd ra) s = .next ((s.runAlu .popc t rd ra 0).keepQueue s)) ∧
    (∀ (t rd ra : Nat) (imm : BitVec 16), (decide (rd < 32) && decide (ra < 32)) = true →
      exec (.addi t rd ra imm) s = .next ((s.runImm .addi t rd ra imm).keepQueue s)) ∧
    (∀ (t rd ra : Nat) (imm : BitVec 16), (decide (rd < 32) && decide (ra < 32)) = true →
      exec (.andi t rd ra imm) s = .next ((s.runImm .andi t rd ra imm).keepQueue s)) ∧
    (∀ (t rd ra : Nat) (imm : BitVec 16), (decide (rd < 32) && decide (ra < 32)) = true →
      exec (.ori t rd ra imm) s = .next ((s.runImm .ori t rd ra imm).keepQueue s)) ∧
    (∀ (t rd ra : Nat) (imm : BitVec 16), (decide (rd < 32) && decide (ra < 32)) = true →
      exec (.xori t rd ra imm) s = .next ((s.runImm .xori t rd ra imm).keepQueue s)) ∧
    (∀ (t rd ra : Nat) (imm : BitVec 16), (decide (rd < 32) && decide (ra < 32)) = true →
      exec (.shli t rd ra imm) s = .next ((s.runImm .shli t rd ra imm).keepQueue s)) ∧
    (∀ (t rd ra : Nat) (imm : BitVec 16), (decide (rd < 32) && decide (ra < 32)) = true →
      exec (.shri t rd ra imm) s = .next ((s.runImm .shri t rd ra imm).keepQueue s)) ∧
    (∀ (t rd ra : Nat) (imm : BitVec 16), (decide (rd < 32) && decide (ra < 32)) = true →
      exec (.sari t rd ra imm) s = .next ((s.runImm .sari t rd ra imm).keepQueue s)) ∧
    (∀ (t p rd ra : Nat) (imm : BitVec 16), (decide (p < 4) && decide (rd < 32) && decide (ra < 32)) = true →
      exec (.seth t p rd ra imm) s = .next ((s.runImm (sethOp p) t rd ra imm).keepQueue s)) ∧
    (∀ (t rd ra : Nat) (imm : BitVec 16), (decide (rd < 32) && decide (ra < 32)) = true →
      exec (.seqi t rd ra imm) s = .next ((s.runImm .seqi t rd ra imm).keepQueue s)) ∧
    (∀ (t rd ra : Nat) (imm : BitVec 16), (decide (rd < 32) && decide (ra < 32)) = true →
      exec (.slti t rd ra imm) s = .next ((s.runImm .slti t rd ra imm).keepQueue s)) ∧
    (∀ (t rd ra : Nat) (imm : BitVec 16), (decide (rd < 32) && decide (ra < 32)) = true →
      exec (.sltiu t rd ra imm) s = .next ((s.runImm .sltiu t rd ra imm).keepQueue s)) ∧
    (∀ (t rt ra sp w : Nat) (off : BitVec 12), (decide (rt < 32) && decide (ra < 32) && decide (sp < 4) && decide (w < 4)) = true →
      exec (.load t rt ra sp w off) s = .next ((s.runLoad t rt ra sp w off).keepQueue s)) ∧
    (∀ (t rt ra sp w : Nat) (off : BitVec 12), (decide (rt < 32) && decide (ra < 32) && decide (sp < 4) && decide (w < 4)) = true →
      exec (.loads t rt ra sp w off) s = .next ((s.runLoads t rt ra sp w off).keepQueue s)) ∧
    (∀ (t rt ra sp w : Nat) (off : BitVec 12), (decide (rt < 32) && decide (ra < 32) && decide (sp < 4) && decide (w < 4)) = true →
      exec (.store t rt ra sp w off) s = .next ((s.runStore t rt ra sp w off).keepQueue s)) ∧
    (∀ (t rt ra : Nat) (off : BitVec 12), (decide (rt < 32) && decide (ra < 32)) = true →
      exec (.aadd t rt ra off) s = .next ((s.runAadd t rt ra off).keepQueue s)) ∧
    (∀ (t ra : Nat) (disp : BitVec 20), decide (ra < 32) = true →
      exec (.bz t ra disp) s = .next ((s.runBranch .bz t ra disp (· == 0)).keepQueue s)) ∧
    (∀ (t ra : Nat) (disp : BitVec 20), decide (ra < 32) = true →
      exec (.bnz t ra disp) s = .next ((s.runBranch .bnz t ra disp (· != 0)).keepQueue s)) ∧
    (∀ (t ra : Nat) (disp : BitVec 20), decide (ra < 32) = true → exec (.jal t ra disp) s = .next ((s.runJal t ra disp).keepQueue s)) ∧
    (∀ (t rd ra : Nat), (decide (rd < 32) && decide (ra < 32)) = true → exec (.jalr t rd ra) s = .next ((s.runJalr t rd ra).keepQueue s)) ∧
    (∀ (t rd ra : Nat), (decide (rd < 32) && decide (ra < 32)) = true → exec (.wait t rd ra) s = .next ((s.runWait t rd ra).keepQueue s)) ∧
    (∀ (t ra : Nat), decide (ra < 32) = true → exec (.park t ra) s = .next (((s.runPark t ra).settle).keepQueue s)) ∧
    (∀ (t ra : Nat), decide (ra < 32) = true → exec (.drop t ra) s = .next ((s.runDrop t ra).keepQueue s)) ∧
    (∀ (t : Nat), exec (.endThread t) s = .next ((s.runEnd t).keepQueue s))) ∧
    (s.takes = true →
    (∀ (t rd : Nat), decide (rd < 32) = true → exec (.rdtime t rd) s = .next ((s.runRdtime t rd).keepQueue s)) ∧
    (∀ (t rd n : Nat), (decide (rd < 32) && decide (n < 32)) = true → exec (.rdc t rd n) s = .next ((s.runRdc t rd n).keepQueue s)) ∧
    (∀ (t : Nat), exec (.mfence t) s = .next ((s.runMfence t).keepQueue s)) ∧
    (∀ (t : Nat), exec (.eret t) s = .next ((s.runEret t).keepQueue s)) ∧
    (∀ (t : Nat), exec (.wfi t) s = .next ((s.runWfi t).keepQueue s)) ∧
    (∀ (t rd imm : Nat), (decide (rd < 32) && decide (imm < 65536)) = true → exec (.csrr t rd imm) s = .next ((s.runCsrr t rd imm).keepQueue s)) ∧
    (∀ (t ra imm : Nat), (decide (ra < 32) && decide (imm < 65536)) = true → exec (.csrw t ra imm) s = .next ((s.runCsrw t ra imm).keepQueue s)) ∧
    (∀ (t : Nat), isBureau t = true → exec (.bureauInterrupt t) s = .next ((s.interrupt t).keepQueue s)) ∧
    (∀ (t : Nat), isBureau t = true → exec (.bureauTimer t) s = .next ((s.timerPending t).keepQueue s)) ∧
    (∀ (t rd ra rb : Nat), (decide (rd < 32) && decide (ra < 32) && decide (rb < 32)) = true →
      exec (.xreqCells t rd ra rb) s = .next ((s.runXreq t rd ra rb 1 (parseCells (s.blockAt t ra))).keepQueue s)) ∧
    (∀ (t rd ra rb : Nat), (decide (rd < 32) && decide (ra < 32) && decide (rb < 32)) = true →
      exec (.xreqRelease t rd ra rb) s = .next ((s.runXreq t rd ra rb 2 (parseRelease (s.blockAt t ra))).keepQueue s)) ∧
    (∀ (t rd ra rb : Nat), (decide (rd < 32) && decide (ra < 32) && decide (rb < 32)) = true →
      exec (.xreqEmitXrdy t rd ra rb) s = .next ((s.runXreq t rd ra rb 3 (parseEmit (s.blockAt t ra))).keepQueue s)) ∧
    (∀ (t rd ra rb : Nat), (decide (rd < 32) && decide (ra < 32) && decide (rb < 32)) = true →
      exec (.xreqEmitData t rd ra rb) s = .next ((s.runXreq t rd ra rb 3 (parseEmit (s.blockAt t ra))).keepQueue s)) ∧
    (∀ (t rd ra rb : Nat), (decide (rd < 32) && decide (ra < 32) && decide (rb < 32)) = true →
      exec (.xreqEmitCmpl t rd ra rb) s = .next ((s.runXreq t rd ra rb 3 (parseEmit (s.blockAt t ra))).keepQueue s)) ∧
    (∀ (t rd ra rb : Nat), (decide (rd < 32) && decide (ra < 32) && decide (rb < 32)) = true →
      exec (.xreqEmitCtrl t rd ra rb) s = .next ((s.runXreq t rd ra rb 3 (parseEmit (s.blockAt t ra))).keepQueue s)) ∧
    (∀ (t rd ra rb : Nat), (decide (rd < 32) && decide (ra < 32) && decide (rb < 32)) = true →
      exec (.xreqEmitMgmt t rd ra rb) s = .next ((s.runXreq t rd ra rb 3 (parseEmit (s.blockAt t ra))).keepQueue s)) ∧
    (∀ (t rd ra rb : Nat), (decide (rd < 32) && decide (ra < 32) && decide (rb < 32)) = true →
      exec (.xreqCipherEncrypt t rd ra rb) s = .next ((s.runXreq t rd ra rb 4 (parseCipher (s.blockAt t ra))).keepQueue s)) ∧
    (∀ (t rd ra rb : Nat), (decide (rd < 32) && decide (ra < 32) && decide (rb < 32)) = true →
      exec (.xreqCipherDecrypt t rd ra rb) s = .next ((s.runXreq t rd ra rb 4 (parseCipher (s.blockAt t ra))).keepQueue s)) ∧
    (∀ (t rd ra rb : Nat), (decide (rd < 32) && decide (ra < 32) && decide (rb < 32)) = true →
      exec (.xreqParityGen t rd ra rb) s = .next ((s.runXreq t rd ra rb 5 (parseParity (s.blockAt t ra))).keepQueue s)) ∧
    (∀ (t rd ra rb : Nat), (decide (rd < 32) && decide (ra < 32) && decide (rb < 32)) = true →
      exec (.xreqParityUpdate t rd ra rb) s = .next ((s.runXreq t rd ra rb 5 (parseParity (s.blockAt t ra))).keepQueue s)) ∧
    (∀ (t rd ra rb : Nat), (decide (rd < 32) && decide (ra < 32) && decide (rb < 32)) = true →
      exec (.xreqParityRecon t rd ra rb) s = .next ((s.runXreq t rd ra rb 5 (parseParity (s.blockAt t ra))).keepQueue s)) ∧
    (∀ (t rd ra rb : Nat), (decide (rd < 32) && decide (ra < 32) && decide (rb < 32)) = true →
      exec (.xreqParityCompare t rd ra rb) s = .next ((s.runXreq t rd ra rb 5 (parseParity (s.blockAt t ra))).keepQueue s)) ∧
    (∀ (t rd ra rb : Nat), (decide (rd < 32) && decide (ra < 32) && decide (rb < 32)) = true →
      exec (.xreqLedger t rd ra rb) s = .next ((s.runXreq t rd ra rb 6 (parseLedger (s.blockAt t ra))).keepQueue s)) ∧
    (∀ (t rd ra rb : Nat), (decide (rd < 32) && decide (ra < 32) && decide (rb < 32)) = true →
      exec (.xreqDriveRead t rd ra rb) s = .next ((s.runXreq t rd ra rb 7 (parseDrive (s.blockAt t ra))).keepQueue s))) ∧
    (s.takes = true →
    (∀ (t rd ra rb : Nat), (decide (rd < 32) && decide (ra < 32) && decide (rb < 32)) = true →
      exec (.xreqDriveWrite t rd ra rb) s = .next ((s.runXreq t rd ra rb 7 (parseDrive (s.blockAt t ra))).keepQueue s)) ∧
    (∀ (t rd ra rb : Nat), (decide (rd < 32) && decide (ra < 32) && decide (rb < 32)) = true →
      exec (.xreqDriveFlush t rd ra rb) s = .next ((s.runXreq t rd ra rb 7 (parseDrive (s.blockAt t ra))).keepQueue s)) ∧
    (∀ (t rd ra rb : Nat), (decide (rd < 32) && decide (ra < 32) && decide (rb < 32)) = true →
      exec (.xreqDriveDeallocate t rd ra rb) s = .next ((s.runXreq t rd ra rb 7 (parseDrive (s.blockAt t ra))).keepQueue s)) ∧
    (∀ (t rd ra rb : Nat), (decide (rd < 32) && decide (ra < 32) && decide (rb < 32)) = true →
      exec (.xreqTrack t rd ra rb) s = .next ((s.runXreq t rd ra rb 8 (parseTrack (s.blockAt t ra))).keepQueue s)) ∧
    (∀ (t rd ra rb : Nat), (decide (rd < 32) && decide (ra < 32) && decide (rb < 32)) = true →
      exec (.xreqClear t rd ra rb) s = .next ((s.runXreq t rd ra rb 9 parseClear).keepQueue s)) ∧
    (∀ (t rd ra rb : Nat), (decide (rd < 32) && decide (ra < 32) && decide (rb < 32)) = true →
      exec (.xreqDraw t rd ra rb) s = .next ((s.runXreq t rd ra rb 10 (parseDraw (s.blockAt t ra) (s.blockAt t rb))).keepQueue s)) ∧
    (∀ (t rd ra rb : Nat), (decide (rd < 32) && decide (ra < 32) && decide (rb < 32)) = true →
      exec (.xreqMark t rd ra rb) s = .next ((s.runXreq t rd ra rb 11 parseMark).keepQueue s)) ∧
    (∀ (t rd ra rb : Nat), (decide (rd < 32) && decide (ra < 32) && decide (rb < 32)) = true →
      exec (.xreqRcheck t rd ra rb) s = .next ((s.runXreq t rd ra rb 12 (parseRcheck (s.blockAt t ra))).keepQueue s)) ∧
    (∀ (t rd ra rb : Nat), (decide (rd < 32) && decide (ra < 32) && decide (rb < 32)) = true →
      exec (.xreqFilled t rd ra rb) s = .next ((s.runXreq t rd ra rb 13 (parseFilled (s.blockAt t ra))).keepQueue s)) ∧
    (∀ (p : Path), s.mayWrite p CAB_CMD_START.addr = true → exec (.cabStart p) s = .next ((s.cabDoStart p).keepQueue s)) ∧
    (∀ (p : Path), s.mayWrite p CAB_CMD_STOP.addr = true → exec (.cabStop p) s = .next (s.cabDoStop.keepQueue s)) ∧
    (∀ (drawer addr len : Nat), decide (drawer < 48) = true →
      exec (.apertureRead drawer addr len) s = .next ((s.apertureGet addr len).keepQueue s)) ∧
    (∀ (drawer addr : Nat) (data : List Byte), decide (drawer < 48) = true →
      exec (.apertureWrite drawer addr data) s = .next ((s.apertureWrite addr data).keepQueue s)) ∧
    (∀ (drawer addr : Nat), decide (drawer < 48) = true → exec (.prpListRead drawer addr) s = .next ((s.prpGet addr).keepQueue s)) ∧
    (∀ (group first count : Nat), decide (group < 262144) = true →
      exec (.spillExtentDone group first count) s = .next (((s.spillExtent group first count).settle).keepQueue s)) ∧
    (∀ (group first : Nat), decide (group < 262144) = true →
      exec (.spillReturnDone group first) s = .next (((s.spillReturn group first).settle).keepQueue s)) ∧
    (∀ (p : Path), s.mayWrite p SCH_CMD_START.addr = true → exec (.schStart p) s = .next ((s.schDoStart p).keepQueue s)) ∧
    (∀ (p : Path), s.mayWrite p SCH_CMD_STOP.addr = true → exec (.schStop p) s = .next (s.schDoStop.keepQueue s)) ∧
    (∀ (lport entry : Nat), (decide (lport < 32) && decide (entry < 256)) = true →
      exec (.gateEntry lport entry) s = .next (((s.gateActs lport entry).syncPorts).keepQueue s)) ∧
    (∀ (p : Path) (slot kind : Nat), (decide (slot < 8192) && decide (kind < 16)) = true → s.mayWrite p CPH_KEY_CMD_OP.addr = true →
      exec (.keyImportPlain p slot kind) s = .next ((s.keyStart p 1 kind slot).keepQueue s)) ∧
    (∀ (p : Path) (slot kind : Nat), (decide (slot < 8192) && decide (kind < 16)) = true → s.mayWrite p CPH_KEY_CMD_OP.addr = true →
      exec (.keyImportKek p slot kind) s = .next ((s.keyStart p 2 kind slot).keepQueue s)) ∧
    (∀ (p : Path) (slot kind : Nat), (decide (slot < 8192) && decide (kind < 16)) = true → s.mayWrite p CPH_KEY_CMD_OP.addr = true →
      exec (.keyImportBlob p slot kind) s = .next ((s.keyStart p 3 kind slot).keepQueue s)) ∧
    (∀ (p : Path) (slot : Nat), decide (slot < 8192) = true → s.mayWrite p CPH_KEY_CMD_OP.addr = true →
      exec (.keyExport p slot) s = .next ((s.keyStart p 4 0 slot).keepQueue s)) ∧
    (∀ (p : Path) (slot : Nat), decide (slot < 8192) = true → s.mayWrite p CPH_KEY_CMD_OP.addr = true →
      exec (.keyErase p slot) s = .next ((s.keyStart p 5 0 slot).keepQueue s))) ∧
    (s.takes = true →
    exec .keyOpDone s = .next (s.keyDone.keepQueue s) ∧
    (∀ (p : Path) (pair : Nat), decide (pair < 72) = true → s.mayWrite p CPH_PAIR_CMD_OP.addr = true →
      exec (.pairTest p pair) s = .next ((s.pairTestStart pair).keepQueue s)) ∧
    (∀ (pair : Nat) (pass : Bool), decide (pair < 72) = true → exec (.pairTestDone pair pass) s = .next ((s.pairTestEnd pair pass).keepQueue s)) ∧
    (∀ (pair : Nat) (agree : Bool), decide (pair < 72) = true →
      exec (.cipherItemDone pair agree) s = .next (((s.itemEnds pair agree).settle).keepQueue s)) ∧
    exec .entropyHealthFail s = .next (s.entropyFail.keepQueue s) ∧
    (∀ (p : Path) (key : Nat), decide (key < 2 ^ 16) = true → s.mayWrite p TOP_RESET_OP.addr = true →
      exec (.warmResetCmd p key) s = .next ((s.topReset key (·.warmReset 1)).keepQueue s)) ∧
    (∀ (p : Path) (key : Nat), decide (key < 2 ^ 16) = true → s.mayWrite p TOP_RESET_OP.addr = true →
      exec (.shelfResetCmd p key) s = .next ((s.topReset key (·.shelfReset 1)).keepQueue s)) ∧
    (∀ (p : Path) (block : Nat), decide (block < 32) = true → s.mayWrite p TOP_BLKRST_BLOCK.addr = true →
      exec (.blockReset p block) s = .next ((s.blockReset block).keepQueue s)) ∧
    exec .blockResetDone s = .next (s.blockResetEnds.keepQueue s) ∧
    (∀ (sensor temp : Nat), sensor < 8 → temp < 2 ^ 16 →
      exec (.thermalWarning sensor temp) s = .next ((s.sensorReads sensor temp).keepQueue s)) ∧
    exec .entropySourceRecover s = .next (s.entropyRecovers.keepQueue s) ∧
    (∀ (lport target : Nat) (v6 : Bool), decide (lport < 32) = true →
      exec (.arpOrNeighborSolicitation lport target v6) s = .next ((s.answerAddress lport target v6).keepQueue s)) ∧
    exec .dbgReset s = .next ((s.abandonOwner .jtag).keepQueue s))

/-- Every command of the drives, Parity, Ledger, the Sideboard, slot power, the Hinge, the endpoint, firmware and
the recorder completes with its own effect (R19, R212, R251, R285, R316, R333, R366, R383, R398, R410, R432,
R435). In every state that is not held in reset and owes no epoch boundary, each of these commands whose
operands name what the part has, on a path that may write the register it writes, answers the next state of its
own operation with the queue as it was; a Bench's lock command needs no path. What the operation computes is
said by the statements about its family. -/
def Obligations.CommandsOfDrivesSideboardAndPairComplete : Prop :=
  ∀ (s : State),
    exec .boot s = .next (s.boot.keepQueue s) ∧
    (s.takes = true →
    (∀ (drawer : Nat) (record ok : Bool), decide (drawer < 48) = true →
      exec (.generationAreaWriteDone drawer record ok) s = .next (((s.areaWritten drawer record ok).settle).keepQueue s)) ∧
    (∀ (slots : RestoreRead), exec (.generationRestoreDone slots) s = .next ((s.restoreDone slots.slots slots.peer).keepQueue s)) ∧
    (∀ (p : Path), s.mayWrite p PAR_CMD_START.addr = true → exec (.parStart p) s = .next ((s.parDoStart p).keepQueue s)) ∧
    (∀ (p : Path), s.mayWrite p PAR_CMD_STOP.addr = true → exec (.parStop p) s = .next (s.parDoStop.keepQueue s)) ∧
    (∀ (p : Path), s.mayWrite p LDG_CMD_START.addr = true → exec (.ldgStart p) s = .next ((s.ldgDoStart p).keepQueue s)) ∧
    (∀ (p : Path), s.mayWrite p LDG_CMD_STOP.addr = true → exec (.ldgStop p) s = .next (s.ldgDoStop.keepQueue s)) ∧
    (∀ (drawer : Nat) (ok : Bool), decide (drawer < 48) = true →
      exec (.ledgerBatchDone drawer ok) s = .next (((s.ringBatchDone drawer ok).pumpAll.settle).keepQueue s)) ∧
    (∀ (set row off count : Nat) (disagree : Bool), decide (set < 8) = true →
      exec (.resyncPieceDone set row off count disagree) s = .next (((s.resyncDone set row off count disagree).settle).keepQueue s)) ∧
    (∀ (p : Path) (set pos drawer : Nat), (decide (set < 8) && decide (pos < 26) && decide (drawer < 48)) = true →
      s.mayWrite p PAR_RB_CMD_OP.addr = true →
      exec (.rbTarget p set pos drawer) s = .next ((s.rbTarget set pos drawer).keepQueue s)) ∧
    (∀ (p : Path) (set newn : Nat), (decide (set < 8) && decide (newn < 32)) = true → s.mayWrite p PAR_RB_CMD_OP.addr = true →
      exec (.rbReshape p set newn) s = .next ((s.rbReshape set newn).keepQueue s)) ∧
    (∀ (p : Path) (set drawer : Nat), (decide (set < 8) && decide (drawer < 48)) = true → s.mayWrite p PAR_RB_CMD_OP.addr = true →
      exec (.rbRevive p set drawer) s = .next ((s.rbRevive set drawer).keepQueue s)) ∧
    (∀ (p : Path) (set : Nat), decide (set < 8) = true → s.mayWrite p PAR_RB_CMD_OP.addr = true →
      exec (.rbPause p set) s = .next ((s.rbPause set).keepQueue s)) ∧
    (∀ (p : Path) (set : Nat), decide (set < 8) = true → s.mayWrite p PAR_RB_CMD_OP.addr = true →
      exec (.rbResume p set) s = .next ((s.rbResume set).keepQueue s)) ∧
    (∀ (set : Nat), decide (set < 8) = true → exec (.rebuildPieceDone set) s = .next (((s.pieceDone set).settle).keepQueue s)) ∧
    (∀ (set : Nat), decide (set < 8) = true → exec (.reshapeRowDone set) s = .next (((s.reshapeRowDone set).settle).keepQueue s)) ∧
    (∀ (set : Nat), decide (set < 8) = true → exec (.reshapeStagingDone set) s = .next ((s.stagingDone set).keepQueue s)) ∧
    (∀ (set pos block : Nat) (ok : Bool), (decide (set < 8) && decide (pos < 26)) = true →
      exec (.repairWritebackDone set pos block ok) s = .next (((s.repairWritten set pos block ok).settle).keepQueue s)) ∧
    (∀ (p : Path), s.mayWrite p DRV_GCMD_START.addr = true → exec (.drvStart p) s = .next ((s.drvDoStart p).keepQueue s)) ∧
    (∀ (p : Path), s.mayWrite p DRV_GCMD_STOP.addr = true → exec (.drvStop p) s = .next (s.drvDoStop.keepQueue s)) ∧
    (∀ (p : Path) (d : Nat), decide (d < 48) = true → s.mayWrite p (drvCmdAddr d) = true →
      exec (.drawerPowerOn p d) s = .next ((s.drvPowerOn d).keepQueue s)) ∧
    (∀ (p : Path) (d : Nat), decide (d < 48) = true → s.mayWrite p (drvCmdAddr d) = true →
      exec (.drawerPowerOff p d) s = .next (((s.drvPowerOff d).settle).keepQueue s)) ∧
    (∀ (p : Path) (d : Nat), decide (d < 48) = true → s.mayWrite p (drvCmdAddr d) = true →
      exec (.drawerControllerReset p d) s = .next (((s.drvReset d).settle).keepQueue s)) ∧
    (∀ (p : Path) (d : Nat), decide (d < 48) = true → s.mayWrite p (drvCmdAddr d) = true →
      exec (.drawerReadmit p d) s = .next ((s.drvReadmit d).keepQueue s)) ∧
    (∀ (d : Nat), decide (d < 48) = true → exec (.presenceDebounceEnd d) s = .next ((s.debounced d).keepQueue s))) ∧
    (s.takes = true →
    (∀ (d : Nat), decide (d < 48) = true → exec (.presenceLost d) s = .next (((s.presenceGone d).settle).keepQueue s)) ∧
    (∀ (d : Nat), decide (d < 48) = true → exec (.perstDelayEnd d) s = .next ((s.perstDelayEnd d).keepQueue s)) ∧
    (∀ (d width speed : Nat) (flit : Bool), (decide (d < 48) && decide (width ≤ 2) && decide (speed < 8)) = true →
      exec (.dlActive d width speed flit) s = .next ((s.linkActive d width speed flit).keepQueue s)) ∧
    (∀ (d : Nat), decide (d < 48) = true → exec (.initDelayEnd d) s = .next ((s.initStart d).keepQueue s)) ∧
    (∀ (d : Nat), decide (d < 48) = true → exec (.trainingTimeout d) s = .next ((s.trainTimeout d).keepQueue s)) ∧
    (∀ (d : Nat) (v : DriveFacts), decide (d < 48) = true →
      exec (.driveRegisterAccessDone d v) s = .next (((s.admitDrive d v).settle).keepQueue s)) ∧
    (∀ (d : Nat) (cfs : Bool), decide (d < 48) = true → exec (.driveLinkDown d cfs) s = .next (((s.linkDown d cfs).settle).keepQueue s)) ∧
    (∀ (d sq cid : Nat) (status : NvmeStatus), (decide (d < 48) && decide (sq < 16) && decide (cid < 65536)) = true →
      exec (.nvmeCompletion d sq cid status) s = .next ((((s.nvmeCompletion d sq cid status).pumpAll).settle).keepQueue s)) ∧
    (∀ (d sq cid : Nat), (decide (d < 48) && decide (sq < 16) && decide (cid < 65536)) = true →
      exec (.ioTimeout d sq cid) s = .next (((s.timeOut d sq cid).settle).keepQueue s)) ∧
    (∀ (d : Nat), decide (d < 48) = true → exec (.adminTimeout d) s = .next (((s.adminTimeout d).settle).keepQueue s)) ∧
    (∀ (d : Nat), decide (d < 48) = true → exec (.pcieCompletionTimeout d) s = .next (((s.pcieTimeout d).settle).keepQueue s)) ∧
    (∀ (d sq cid : Nat), (decide (d < 48) && decide (sq < 16) && decide (cid < 65536)) = true →
      exec (.contextQuarantineEnd d sq cid) s = .next (((s.quarantineEnd d sq cid).settle).keepQueue s)) ∧
    (∀ (d warning : Nat), (decide (d < 48) && decide (warning < 256)) = true →
      exec (.asyncEvent d warning) s = .next (((s.driveWarning d warning).settle).keepQueue s)) ∧
    (∀ (d unc cor : Nat) (hdr : List Byte), decide (d < 48) = true →
      exec (.driveAerMessage d unc cor hdr) s = .next ((s.record 0x51 2 bDRV (aerBody d unc cor hdr)).keepQueue s)) ∧
    (∀ (d : Nat) (ok : Bool), decide (d < 48) = true → exec (.drawerResetDone d ok) s = .next (((s.resetDone d ok).settle).keepQueue s)) ∧
    (∀ (p : Path), s.mayWrite p SBD_CMD_START.addr = true → exec (.sbdStart p) s = .next ((s.sbdDoStart p).keepQueue s)) ∧
    (∀ (p : Path), s.mayWrite p SBD_CMD_STOP.addr = true → exec (.sbdStop p) s = .next (s.sbdDoStop.keepQueue s)) ∧
    (∀ (off len : Nat), exec (.bar2Read off len) s = .next ((s.bar2Read off len).keepQueue s)) ∧
    (∀ (off : Nat) (data : List Byte), exec (.bar2Write off data) s = .next ((s.bar2Write off data).keepQueue s)) ∧
    (∀ (requester addr owner : Nat), decide (requester < 12) = true →
      exec (.sideboardUe requester addr owner) s = .next ((s.sideboardError requester addr owner).keepQueue s)) ∧
    (∀ (arb : Nat), decide (arb < 3) = true → exec (.arbiterGrant arb) s = .next ((s.arbitrate arb).keepQueue s)) ∧
    (∀ (arb seat : Nat), (decide (arb < 3) && decide (seat < 16)) = true →
      exec (.seatMask arb seat) s = .next ((s.maskSeat arb seat).keepQueue s)) ∧
    (∀ (arb seat : Nat), (decide (arb < 3) && decide (seat < 16)) = true →
      exec (.seatUnmask arb seat) s = .next ((s.unmaskSeat arb seat).keepQueue s)) ∧
    (∀ (who : LockOwner) (n : Nat), (who.wf && decide (n < 256)) = true → (∀ p, who.path = some p → s.mayWrite p (lockCmdAddr n) = true) →
      exec (.lockAcquire who n) s = .next ((s.acquireLock who n).keepQueue s))) ∧
    (s.takes = true →
    (∀ (who : LockOwner) (n gen : Nat), (who.wf && decide (n < 256) && decide (gen < 2 ^ 24)) = true →
      (∀ p, who.path = some p → s.mayWrite p (lockCmdAddr n) = true) →
      exec (.lockRelease who n gen) s = .next ((s.releaseLock who n gen).keepQueue s)) ∧
    (∀ (who : LockOwner) (n gen : Nat), (who.wf && decide (n < 256) && decide (gen < 2 ^ 24)) = true →
      (∀ p, who.path = some p → s.mayWrite p (lockCmdAddr n) = true) →
      exec (.lockRenew who n gen) s = .next ((s.renewLock who n gen).keepQueue s)) ∧
    (∀ (who : LockOwner) (n gen : Nat), (who.wf && decide (n < 256) && decide (gen < 2 ^ 24)) = true →
      (∀ p, who.path = some p → s.mayWrite p (lockCmdAddr n) = true) →
      exec (.lockClean who n gen) s = .next ((s.cleanLock who n gen).keepQueue s)) ∧
    (∀ (who : LockOwner) (n : Nat), (who.wf && decide (n < 256)) = true →
      exec (.lockStateRead who n) s = .next (({ s with out := { s.out with lockResult := SMap.put who.kind (s.lockWord n) s.out.lockResult } }).keepQueue s)) ∧
    (∀ (p : Path) (n : Nat), decide (n < 256) = true → s.mayWrite p (lockCmdAddr n) = true →
      exec (.lockForce p n) s = .next ((s.forceLock p n).keepQueue s)) ∧
    (∀ (n : Nat), decide (n < 256) = true → exec (.lockLeaseExpiry n) s = .next ((s.expireLease n).keepQueue s)) ∧
    (∀ (p : Path), s.mayWrite p HNG_CMD_OP.addr = true → exec (.hngStart p) s = .next (((s.hngDoStart p).settle).keepQueue s)) ∧
    (∀ (p : Path), s.mayWrite p HNG_CMD_OP.addr = true → exec (.hngStop p) s = .next (s.hngDoStop.keepQueue s)) ∧
    (∀ (p : Path), s.mayWrite p HNG_CMD_OP.addr = true → exec (.roleSwap p) s = .next (s.hngSwap.keepQueue s)) ∧
    (∀ (p : Path), s.mayWrite p HNG_CMD_OP.addr = true → exec (.rejoin p) s = .next (s.hngRejoin.settle.keepQueue s)) ∧
    (∀ (p : Path), s.mayWrite p HNG_CMD_OP.addr = true → exec (.detach p) s = .next (s.hngDetach.keepQueue s)) ∧
    (∀ (h : HingeHdr) (sections : List CopySection),
      exec (.hingeCopy h sections) s = .next ((s.hingeReceive h (sections.map sectionBytes).flatten.length (·.copyArrives sections)).keepQueue s)) ∧
    (∀ (h : HingeHdr) (counts : List Nat) (crc : Nat),
      exec (.hingeCopyEnd h counts crc) s = .next ((s.hingeReceive h 68 (·.copyEndArrives h crc)).keepQueue s)) ∧
    (∀ (h : HingeHdr) (epoch crc result : Nat),
      exec (.hingeConfirm h epoch crc result) s = .next (((s.hingeReceive h 13 (·.confirmArrives epoch result)).pumpAll.settle).keepQueue s)) ∧
    (∀ (h : HingeHdr) (seq : Nat), decide (seq < 65536) = true →
      exec (.hingeAck h seq) s = .next ((s.hingeReceiveControl h fun s => ((s.ackRecorder seq).hingeAcked seq).planFlush).keepQueue s)) ∧
    (∀ (h : HingeHdr) (seq : Nat), decide (seq < 65536) = true →
      exec (.hingeNak h seq) s = .next ((s.hingeReceiveControl h (·.hingeResend seq)).keepQueue s)) ∧
    (∀ (h : HingeHdr) (sections : List CopySection),
      exec (.hingeSync h sections) s = .next ((s.hingeReceive h (sections.map sectionBytes).flatten.length (·.syncArrives h sections)).keepQueue s)) ∧
    (∀ (h : HingeHdr) (time epoch flight : Nat), (decide (h.svn ≤ 64) && decide (h.rkey < 2 ^ 64)) = true →
      exec (.hingeTime h time epoch flight) s = .next ((s.hingeReceive h 16 (·.timeArrives h time epoch flight)).keepQueue s)) ∧
    (∀ (h : HingeHdr) (data : List Byte),
      exec (.hingeRecorder h data) s = .next ((s.hingeReceive h data.length (·.peerExtent data)).keepQueue s)) ∧
    exec .hingeResendTimeout s = .next (s.resendDue.keepQueue s) ∧
    exec .hingeAckTimer s = .next (s.ackDue.keepQueue s) ∧
    (∀ (lanes : Nat), decide (lanes ≤ 8) = true → exec (.hingeLinkDown lanes) s = .next (((s.lanesFail lanes).settle).keepQueue s)) ∧
    (∀ (pair : Nat) (f : TetherFrame), decide (pair < 2) = true →
      exec (.tetherFrame pair f) s = .next (((s.tetherArrives pair f).settle).keepQueue s)) ∧
    exec .tetherSend s = .next (s.tetherTick.keepQueue s)) ∧
    (s.takes = true →
    exec .tetherSilent s = .next (s.tetherFalls.settle.keepQueue s) ∧
    exec .copyEndMissed s = .next (s.copyEndMiss.settle.keepQueue s) ∧
    exec .watchdogLapse s = .next (({ s with hng := { s.hng with coreOk := false } }).keepQueue s) ∧
    (∀ (drawer : Nat), decide (drawer < 48) = true →
      exec (.contestTimeout drawer) s = .next ((if s.hng.contesting then (s.contestTimesOut drawer).pumpAll.settle else s).keepQueue s)) ∧
    exec .startDeferEnd s = .next (s.deferEnds.settle.keepQueue s) ∧
    exec .announceRepeat s = .next (s.announceAgain.keepQueue s) ∧
    exec .powerFailWarning s = .next (s.powerFails.settle.keepQueue s) ∧
    exec .pfwRelease s = .next (s.powerReturns.keepQueue s) ∧
    (∀ (p : Path), s.mayWrite p SLP_CMD_START.addr = true → exec (.slpStart p) s = .next ((s.slpDoStart p).keepQueue s)) ∧
    (∀ (p : Path), s.mayWrite p SLP_CMD_STOP.addr = true → exec (.slpStop p) s = .next (s.slpDoStop.keepQueue s)) ∧
    (∀ (d : Nat), decide (d < 48) = true → exec (.slotOnCommand d) s = .next ((s.slotOn d).keepQueue s)) ∧
    (∀ (d : Nat), decide (d < 48) = true → exec (.slotOffCommand d) s = .next ((s.slotOff d).keepQueue s)) ∧
    (∀ (d : Nat), decide (d < 48) = true → exec (.startPhaseEnd d) s = .next ((s.startPhaseEnd d).keepQueue s)) ∧
    (∀ (d : Nat), decide (d < 48) = true → exec (.rampComplete d) s = .next ((s.rampComplete d).keepQueue s)) ∧
    (∀ (d : Nat), decide (d < 48) = true → exec (.fastTrip d) s = .next ((s.fastTrip d).keepQueue s)) ∧
    (∀ (d : Nat), decide (d < 48) = true → exec (.limitingStart d) s = .next ((s.limitingStart d).keepQueue s)) ∧
    (∀ (d : Nat), decide (d < 48) = true → exec (.limitingEnd d) s = .next ((s.endLimiting d).keepQueue s)) ∧
    (∀ (d : Nat), decide (d < 48) = true → exec (.faultTimerExpiry d) s = .next ((s.timerExpires d).keepQueue s)) ∧
    (∀ (d : Nat), decide (d < 48) = true → exec (.powerGoodDebounceEnd d) s = .next ((s.pgAsserts d).keepQueue s)) ∧
    (∀ (d : Nat), decide (d < 48) = true → exec (.powerGoodFail d) s = .next ((s.dropPg d).keepQueue s)) ∧
    (∀ (d : Nat), decide (d < 48) = true → exec (.retryDelayEnd d) s = .next ((s.retryStart d).keepQueue s)) ∧
    (∀ (d : Nat), decide (d < 48) = true → exec (.retryCountClear d) s = .next ((s.retriesClear d).keepQueue s)) ∧
    exec .controlLinkSilent s = .next ((s.setLinkSilent true).keepQueue s) ∧
    exec .controlLinkRecover s = .next (s.powerLinkRecovers.keepQueue s)) ∧
    (s.takes = true →
    (∀ (f : Nat), decide (f < 2) = true → exec (.feedOvercurrent f) s = .next ((s.feedFault f 0).keepQueue s)) ∧
    (∀ (f : Nat), decide (f < 2) = true → exec (.feedReverseCurrent f) s = .next ((s.feedFault f 1).keepQueue s)) ∧
    (∀ (bus : Nat) (slots feeds : List (Nat × Nat × Nat)),
      exec (.adcSample bus slots feeds) s = .next ((s.adcSample bus slots feeds).keepQueue s)) ∧
    exec .mepPerst s = .next (s.mepPerst.keepQueue s) ∧
    (∀ (p : Path), s.mayWrite p MEP_CTRL_CFG_READY.addr = true → exec (.cfgReadySet p) s = .next (s.setCfgReady.keepQueue s)) ∧
    exec .functionLevelReset s = .next (s.flrStart.keepQueue s) ∧
    exec .flrComplete s = .next (s.flrDone.keepQueue s) ∧
    exec .bmeClear s = .next (s.bmeClear.keepQueue s) ∧
    exec .bmeSet s = .next (((s.setFlag MEP_LINK_BME 0 true).sendPending).keepQueue s) ∧
    (∀ (d3 : Bool), exec (.powerStateWrite d3) s = .next (({ s with mep := { s.mep with d3 := d3 } }.sendPending).keepQueue s)) ∧
    (∀ (p : Path) (mask : Nat), s.mayWrite p MEP_VEC_ACK_ACK.addr = true → exec (.vectorAck p mask) s = .next ((s.ackVectors mask).keepQueue s)) ∧
    (∀ (p : Path) (v : Nat), decide (v < 64) = true → s.mayWrite p (MSIX_TABLE_ADDR.addr + 16 * v + 12) = true →
      exec (.msixMaskClear p v) s = .next ((s.setMsixMask v false).keepQueue s)) ∧
    exec .l1IdleExpiry s = .next (s.enterL1.keepQueue s) ∧
    (∀ (p : Path) (ch ctl : Nat), (decide (ch < 4) && decide (ctl < 8)) = true → s.mayWrite p (MEP_DMA_HOST.addr + 0x20 * ch + 0x14) = true →
      exec (.dmaStart p ch ctl) s = .next ((s.dmaStart ch ctl).keepQueue s)) ∧
    (∀ (ch : Nat) (ok : Bool) (data : List Byte), decide (ch < 4) = true →
      exec (.dmaDone ch ok data) s = .next ((s.dmaDone ch ok data).keepQueue s)) ∧
    (∀ (addr size tag : Nat), exec (.atsInvalidate addr size tag) s = .next ((s.invalidate addr size tag).keepQueue s)) ∧
    (∀ (p : Path), s.mayWrite p FWU_CMD_OP.addr = true → exec (.fwVerify p) s = .next ((s.fwuStart 1).keepQueue s)) ∧
    (∀ (p : Path), s.mayWrite p FWU_CMD_OP.addr = true → exec (.fwProgram p) s = .next ((s.fwuStart 2).keepQueue s)) ∧
    (∀ (p : Path), s.mayWrite p FWU_CMD_OP.addr = true → exec (.fwActivate p) s = .next ((s.fwuStart 3).keepQueue s)) ∧
    (∀ (p : Path), s.mayWrite p FWU_CMD_OP.addr = true → exec (.fwCommitSvn p) s = .next ((s.fwuStart 4).keepQueue s)) ∧
    (∀ (p : Path), s.mayWrite p FWU_CMD_OP.addr = true → exec (.fwWriteRecovery p) s = .next ((s.fwuStart 5).keepQueue s)) ∧
    (∀ (p : Path), s.mayWrite p FWU_CMD_OP.addr = true → exec (.fwClearStaging p) s = .next ((s.fwuStart 6).keepQueue s)) ∧
    (∀ (mismatch : Bool),
      exec (.fwOpDone mismatch) s = .next ((
          let t := s.fwuDone mismatch;
          if s.handingOver && !t.handingOver then t.deliverAll.settle else t
        ).keepQueue s)) ∧
    (∀ (p : Path) (idx val : Nat), (decide (idx < 1024) && decide (val < 2 ^ 32)) = true →
      s.mayWrite p (FWU_BLK_DATA_DATA.addr + 4 * idx) = true →
      exec (.blkDataWrite p idx val) s = .next ((s.blkData p idx val).keepQueue s))) ∧
    (s.takes = true →
    (∀ (p : Path), s.mayWrite p FWU_DBG_CMD_OP.addr = true → exec (.dbgUnlock p) s = .next (s.unlock.keepQueue s)) ∧
    (∀ (p : Path), s.mayWrite p FWU_DBG_CMD_OP.addr = true → exec (.dbgLock p) s = .next (s.lock.keepQueue s)) ∧
    (∀ (p : Path), s.mayWrite p EVR_CMD_OP.addr = true → exec (.evrFlush p) s = .next ((s.startFlush 3).keepQueue s)) ∧
    (∀ (p : Path), s.mayWrite p EVR_POST_GO.addr = true → exec (.evrPost p) s = .next ((s.post p).keepQueue s)) ∧
    (∀ (p : Path) (idx : Nat), decide (idx < 1024) = true →
      exec (.evrWindowRead p idx) s = .next ((s.viaRead p (EVR_WINDOW_DATA.addr + 4 * idx) (·.windowRead p idx)).keepQueue s)) ∧
    (∀ (p : Path) (seq : Nat), s.mayWrite p EVR_CUR_SEQ.addr = true → exec (.evrCurWrite p seq) s = .next ((s.moveCursor p seq).keepQueue s)) ∧
    (∀ (drawer : Nat) (ok : Bool), decide (drawer < 48) = true →
      exec (.extentCommitted drawer ok) s = .next (((s.extentCommitted drawer ok).settle).keepQueue s)) ∧
    (∀ (p : Path), s.mayWrite p PMC_CMD_OP.addr = true → exec (.pmcClear p) s = .next (s.pmcClear.keepQueue s)) ∧
    (∀ (lanes : Nat), decide (lanes ≤ 8) = true → exec (.hingeLinkUp lanes) s = .next ((s.lanesTrain lanes).keepQueue s)) ∧
    exec .mepLinkDown s = .next (s.mepLinkLeaves.keepQueue s) ∧
    (∀ (width : Nat) (top : Bool), decide (width ≤ 4) = true → exec (.mepLinkUp width top) s = .next ((s.mepLinkUp width top).keepQueue s)) ∧
    exec .msixEnable s = .next (((s.setFlag MEP_LINK_MSIX 0 true).sendPending).keepQueue s) ∧
    exec .atsEnableClear s = .next (({ s with mep := { s.mep with atsOn := false, ats := [] } }).keepQueue s) ∧
    (∀ (unc cor : Nat) (hdr : List Byte), exec (.endpointAerError unc cor hdr) s = .next ((s.endpointAer unc cor hdr).keepQueue s)) ∧
    (∀ (d : Nat), decide (d < 48) = true → exec (.prsntAssert d) s = .next ((s.presenceSeen d).keepQueue s)) ∧
    (∀ (d : Nat), decide (d < 48) = true → exec (.cstsRdyTimeout d) s = .next (((s.readyTimeout d).settle).keepQueue s)) ∧
    (∀ (d : Nat), decide (d < 48) = true → exec (.perstAssertEnd d) s = .next ((s.perstAsserted d).keepQueue s)) ∧
    (∀ (d sq : Nat), (decide (d < 48) && decide (sq < 16)) = true → exec (.cqHeadDoorbellDelay d sq) s = .next ((s.cqDoorbell d sq).keepQueue s)))

/-- A step takes the command at the front of the queue and runs it; with an empty queue a nanosecond passes (R26).
For every command and state: the step of a state with the command in front of its queue is the command's
execution on that state with the queue's rest. An idle step is the model's choice (log entry 1): it counts a
nanosecond of the 1 GHz timebase and nothing else. A word spells no command, so placing one leaves the state. -/
def Obligations.StepRunsTheFrontCommand : Prop :=
  (∀ (s : State) (c : Instr) (rest : List Instr), step { s with pending := c :: rest } = exec c { s with pending := rest }) ∧
    (∀ (s : State), s.pending = [] → step s = .next { s with ns := s.ns + 1 }) ∧
    ∀ (s : State) (nbits w : Nat), s.withFetchWord nbits w = s

/-- Every command ends in a next state with the queue kept; one whose operands name nothing changes nothing; an owed
boundary comes first (R19, R37, R432). For every constructor and every state: the command answers a next state
whose queue is the one it was given, never a fault and never a refusal; where its operands name nothing the part
has, the state is unchanged (log entry 90). Where an epoch boundary is owed, a command that does not act in a
reset runs on the state that the boundary's actions leave, as if they had come before it (log entry 84). -/
def Obligations.EveryCommandAnswers : Prop :=
  ∀ (i : Instr) (s : State),
    (∃ t, exec i s = .next t ∧ t.pending = s.pending) ∧
    (i.wellFormed = false → exec i s = .next s) ∧
    (i.wellFormed = true → s.held = false → s.epochBoundary.takes = true → s.epochBoundary.pending = s.pending →
      i ∉ [Instr.powerOnReset, .warmReset, .shelfReset, .selfRefreshDone, .thermalTrip, .boot, .epochBoundary] →
      (∀ c, i ≠ .clockLoss c ∧ i ≠ .clockReturn c) → exec i s = exec i s.epochBoundary)

/-- While the device is held in reset nothing but a reset, its end, a trip, BOOT and the input clocks changes it
(R422, R432, R448). In every state whose device is held, every command but POWER_ON_RESET, WARM_RESET,
SHELF_RESET, SELF_REFRESH_DONE, THERMAL_TRIP, BOOT, CLOCK_LOSS, CLOCK_RETURN and a sensor at its trip
temperature leaves the whole state as it is. That a command which reaches a held device is ignored, not kept, is
the model's choice (log entry 16). -/
def Obligations.AHeldDeviceIgnoresCommands : Prop :=
  ∀ (i : Instr) (s : State), s.held = true →
    i ∉ [Instr.powerOnReset, .warmReset, .shelfReset, .selfRefreshDone, .thermalTrip, .boot] →
    (∀ c, i ≠ .clockLoss c ∧ i ≠ .clockReturn c) → (∀ k t, i = .thermalWarning k t → s.trips k t = false) → exec i s = .next s

/-- A step takes the front command off the queue, adds none, and keeps the others well-formed (R432). For every
state: if the step answers a next state, that state's queue is the rest of the old one; where all commands of
the old one name what the part has, so do all of the new one. -/
def Obligations.TheQueueStaysWellFormed : Prop :=
  ∀ (s t : State), step s = .next t → t.pending = s.pending.tail ∧ (s.queueOk = true → t.queueOk = true)

/-- From any state, with any queue, a run of any length never stops, and takes its commands in order (R432).
Whatever the registers, memories and units of a state hold, and whatever its queue holds: every number of steps
ends in a next state, never in a fault or a refusal, and the queue has then lost exactly that many commands from
its front. -/
def Obligations.RunsNeverStop : Prop :=
  ∀ (s : State), s.safe ∧ ∀ n t, Host.Core.run core n s = .next t → State.pending t = s.pending.drop n

/-- Right after reset every register field reads its reset value, memory is empty, and the part waits for its start
(R392, R422, R423, R424, R432). In State.reset every field of every instance reads its reset value, the reset is
released, no command waits, no thread, connection, command or recorder entry exists, and the Sideboard lists
nothing. That memory reads 0 there, and the strap and fuse values, are the model's choices (log entries 3 and
4). A BOOT then runs recovery with code 1 for want of a sealed image. -/
def Obligations.ResetLeavesTheSpecsValues : Prop :=
  (∀ (f : Field) (i : Nat), State.reset.reg f i = f.reset i) ∧ State.reset.held = false ∧ State.reset.queueOk = true ∧
    State.reset.pending = [] ∧ State.reset.sbd.mem = [] ∧ State.reset.sbd.mem.wf = true ∧ State.reset.regs.rising ∧
    State.reset.bnc.threads = [] ∧ State.reset.ctx.conns = [] ∧ State.reset.cmd.frames = [] ∧ State.reset.evr.ring = [] ∧
    State.reset.top.booted = false ∧ State.reset.regs.cur = [] ∧ State.reset.regs.live = [] ∧
    exec .boot State.reset = .next ((State.reset.release.recover 1).keepQueue State.reset)

/-- Every Beykor instruction decodes from its word, and every word that decodes is the encoding of what it decodes
to (R175, R176, R177, R178, R179, R180, R183, R187, R192). For every instruction whose fields fit and are 0
where the tables say so, the word the formats of R175 give it is below 2^32 and decodes to it, with every field
at every value; and every 32-bit word that decodes at all stands for such an instruction, whose encoding is that
word again. So no bit of a word is dropped, no two instructions share one, and every word with a bit set where
it must be 0 is undefined. -/
def Obligations.BeykorEncodingAndDecodingAgree : Prop :=
  (∀ b : BkWord, b.wf = true → b.encode < 2 ^ 32 ∧ decodeBk b.encode = some b) ∧
    ∀ w b, w < 2 ^ 32 → decodeBk w = some b → b.wf = true ∧ b.encode = w

/-- Words written out from R175 and R176 decode to the instructions they stand for (R175, R176, R177, R178, R179,
R180, R183, R187). ADD g3, g1, g2 is major 0 with RD in bits 25:21, RA in 20:16, RB in 15:11 and FN 0; ADDI g5,
g0, -1 has the immediate in bits 15:0; LOAD, BZ, JALR, END, RDC and XREQ words have their fields in the places
of R175; a word of an unused major opcode, an ALU word of an unused FN and a CLZ with RB set decode to nothing. -/
def Obligations.BeykorWordsDecode : Prop :=
  decodeBk 0b00000000011000010001000000000000 = some (.alu .add 3 1 2) ∧
    decodeBk 0b00000100101000001111111111111111 = some (.imm .addi 5 0 65535) ∧
    decodeBk 0b00010100001000100000000000111111 = some (.imm .shli 1 2 63) ∧
    decodeBk 0b00010100001000100000000001000000 = none ∧
    decodeBk 0b01000000001000100111000000001000 = some (.mem .load 1 2 1 3 8) ∧
    decodeBk 0b01100000111011111111111111111111 = some (.branch .bz 7 0xFFFFF) ∧
    decodeBk 0b01101100001000100000000000000000 = some (.jalr 1 2) ∧
    decodeBk 0b01110000000000000000000000000011 = some .endThread ∧
    decodeBk 0b01110000001000000001100000000101 = some (.rdc 1 3) ∧
    decodeBk 0b11000000001000100000000000100000 = some (.xreq 1 2 0 1) ∧
    decodeBk 0b11111100000000000000000000000000 = none ∧
    decodeBk 0b00000000001000100001100000000110 = none ∧
    decodeBk 0b00000000001000100001100000100000 = none

/-- BAR2 writes, granted bursts, copies into the Sideboard and delivered words change the bytes they store to, and
no other (R316, R317, R320, R383, R396). For each form that stores to the Sideboard, the bytes at the address it
computes become the data it stores, every byte outside that range reads as before, and a memory in canonical
form stays in it; a BAR2 write outside the host area, a grant with no burst, a copy to the host and a copy
outside the host area leave every byte. -/
def Obligations.StoresTouchTheirBytesAlone : Prop :=
  ∀ (s t : State), s.takes = true → s.sbd.mem.wf = true →
    let outside (a n : Nat) : Prop := ∀ c, c < a ∨ a + n ≤ c → t.sbd.mem.read c = s.sbd.mem.read c
    let holds (a : Nat) (bs : List Byte) : Prop := ∀ k, k < bs.length → t.sbd.mem.read (a + k) = bs.getD k 0
    let stores (a : Nat) (bs : List Byte) : Prop := t.sbd.mem.wf = true ∧ holds a bs ∧ outside a bs.length;
    (∀ off data, exec (.bar2Write off data) s = .next t →
      (hostArea ≤ s.bar2Addr off → s.bar2Addr off + data.length ≤ hostArea + hostAreaSize → stores (s.bar2Addr off) data) ∧
      (s.bar2Addr off < hostArea → t.sbd.mem = s.sbd.mem)) ∧
    (∀ a k b rest, a < 3 → s.nextSeat a = some k → s.seatQueue a k = b :: rest → exec (.arbiterGrant a) s = .next t →
      stores b.addr b.data) ∧
    (∀ a, a < 3 → s.nextSeat a = none → exec (.arbiterGrant a) s = .next t → t.sbd.mem = s.sbd.mem) ∧
    (∀ ch x data, ch < 4 → SMap.find s.mep.dma ch = some x → s.reg MEP_DMA_STATUS ch = 1 →
      exec (.dmaDone ch true data) s = .next t →
      (x.toHost = false → x.inHostArea = true → stores x.sbd ((data ++ List.replicate x.len 0).take x.len)) ∧
      (x.toHost = true ∨ x.inHostArea = false → t.sbd.mem = s.sbd.mem)) ∧
    (∀ p idx val, idx < 1024 → val < 2 ^ 32 → s.mayWrite p (FWU_BLK_DATA_DATA.addr + 4 * idx) = true →
      exec (.blkDataWrite p idx val) s = .next t →
      stores (hostArea + 4096 * s.reg FWU_BLK_OFF_UNITS + 4 * idx) (leBytes 4 val))

/-- An ALU or immediate word that issues writes RD and moves its thread on; other threads, registers, memories and
units stay (R174, R177, R178, R415). For every ALU and I-format instruction on a thread that can issue, with
budget left, register fields in range and the next address in its code (and, for a shift by an immediate, an
amount below 64): there is a next state. There every other thread is unchanged; on its own thread every register
but RD reads as before, g0 reads 0, the PC lies 4 further and the local store, tickets and control registers are
unchanged; no Sideboard byte, output, connection, packet queue, ledger, set, Drawer, lock or recorder entry
changes, and no class-L register. Only the command's issue count and the slot counters of R415 may change
beside. -/
def Obligations.RegisterWordsChangeTheirDestinationAlone : Prop :=
  ∀ (s : State) (t rd ra rb p : Nat) (v : BitVec 16), s.takes = true → s.canIssue t = true → s.budgetSpent t = false →
    s.pcOk t ((s.thread t).pc + 4) = true → rd < 32 → ra < 32 → rb < 32 → p < 4 →
    let leaves (i : Instr) : Prop := ∃ u, exec i s = .next u ∧ (∀ y, y ≠ t → u.thread y = s.thread y) ∧
        (∀ r, r ≠ rd → (u.thread t).rg r = (s.thread t).rg r) ∧ (u.thread t).rg 0 = 0 ∧ (u.thread t).pc = (s.thread t).pc + 4 ∧
        (u.thread t).store = (s.thread t).store ∧ (u.thread t).tickets = (s.thread t).tickets ∧ (u.thread t).csr = (s.thread t).csr ∧
        u.sbd = s.sbd ∧ u.out = s.out ∧ u.ctx = s.ctx ∧ u.nlt = s.nlt ∧ u.ldg = s.ldg ∧ u.par = s.par ∧ u.drv = s.drv ∧ u.cab = s.cab ∧
        u.evr = s.evr ∧ u.regs.cur = s.regs.cur ∧ u.pending = s.pending;
    (∀ i ∈ [Instr.add t rd ra rb, .sub t rd ra rb, .and t rd ra rb, .or t rd ra rb, .xor t rd ra rb, .andn t rd ra rb, .shl t rd ra rb,
        .shr t rd ra rb, .sar t rd ra rb, .mul t rd ra rb, .mulhu t rd ra rb, .seq t rd ra rb, .sne t rd ra rb, .slt t rd ra rb,
        .sltu t rd ra rb, .sel t rd ra rb, .clz t rd ra, .popc t rd ra, .addi t rd ra v, .andi t rd ra v, .ori t rd ra v, .xori t rd ra v,
        .seqi t rd ra v, .slti t rd ra v, .sltiu t rd ra v, .seth t p rd ra v], leaves i) ∧
    (v.toNat < 64 → ∀ i ∈ [Instr.shli t rd ra v, .shri t rd ra v, .sari t rd ra v], leaves i)

/-- A Tether frame this part sends passes the checks a peer of the other unit makes, and carries its role and pair
state (R344, R345). For every state whose ROLE and PAIR fields hold values of their widths: the 64 bits sent are
below 2^64, their version is 1, their CRC-8 is the one a receiver computes, UNIT is this part's, and role, pair
state, CORE_OK, PFW and the detach flags lie in the places of R344. -/
def Obligations.EveryTetherFrameSentIsAcceptable : Prop :=
  ∀ (s : State), s.role < 8 → s.pair < 8 →
    let v := s.tetherBits;
    v < 2 ^ 64 ∧ v / 2 ^ 60 = 1 ∧ v % 256 = tetherCrc v ∧ v / 2 ^ 59 % 2 = s.top.unitSel % 2 ∧ v / 2 ^ 56 % 8 = s.role ∧
      v / 2 ^ 53 % 8 = s.pair ∧ v / 2 ^ 52 % 2 = Bool.nat s.hng.coreOk ∧ v / 2 ^ 51 % 2 = Bool.nat s.top.pfw ∧
      v / 2 ^ 50 % 2 = Bool.nat s.hng.detachReq ∧ v / 2 ^ 49 % 2 = Bool.nat s.hng.detachAck ∧
      v / 2 ^ 32 % 65536 = s.epoch % 65536 ∧ v / 2 ^ 16 % 65536 = s.hng.tetherSeq % 65536

/-- Any two lost strips of a column, data or syndrome, are recovered from the others, whatever their places hold
(R252, R253). For every column of at most 22 data bytes and every one or two lost members, or none: from data
bytes, P and Q that are right wherever a member is not lost and arbitrary where one is, the recovery gives back
every data byte, P as the XOR and Q as the sum over GF(2^8) of all. -/
def Obligations.TwoLostStripsAreRecovered : Prop :=
  ∀ (ds ds' : List Byte) (p q : Byte) (miss : List Nat), ds.length ≤ 22 → ds'.length = ds.length → miss.length ≤ 2 → miss.Nodup →
    (∀ i, i < ds.length → i ∉ miss → ds'.getD i 0 = ds.getD i 0) →
    (ds.length ∉ miss → p = synP ds) → (ds.length + 1 ∉ miss → q = synQ ds) → (∀ i ∈ miss, i < ds.length + 2) →
    recoverByte ds.length ds' p q miss = (ds, synP ds, synQ ds)
end

