-- ==== Sys2Proof/Laws/Beykor.lean ====
section
/-! SUPPORT. How a Beykor word on a thread ends: one lemma for each way (R155, R179, R183, R190). -/

namespace Sys2Proof.Machine

theorem runWord_to (s : State) (t : Nat) (b : BkWord) (f : State → Thread → Issued) (hi : s.starts t b = true)
    (u : State) (pc : Int) (hf : f (s.countIssue t) (s.thread t) = .goes u pc) :
    s.runWord t b f = if s.pcOk t pc then u.goesTo t pc.toNat else s.trap t excTARGET (some (BitVec.ofInt 64 pc)) := by
  simp only [State.starts, Bool.and_eq_true, Bool.not_eq_true'] at hi
  obtain ⟨⟨⟨h1, h2⟩, h3⟩, h4⟩ := hi
  unfold State.runWord
  simp only [h1, h2, h3, h4, Bool.not_true, Bool.false_eq_true, if_false, hf, State.finishWord, State.goesTo]

theorem runWord_raise (s : State) (t : Nat) (b : BkWord) (f : State → Thread → Issued) (hi : s.starts t b = true)
    (e : Nat) (a : Option DWord) (hf : f (s.countIssue t) (s.thread t) = .raise e a) :
    s.runWord t b f = s.trap t e a := by
  simp only [State.starts, Bool.and_eq_true, Bool.not_eq_true'] at hi
  obtain ⟨⟨⟨h1, h2⟩, h3⟩, h4⟩ := hi
  unfold State.runWord
  simp only [h1, h2, h3, h4, Bool.not_true, Bool.false_eq_true, if_false, hf, State.finishWord]

theorem runWord_over (s : State) (t : Nat) (b : BkWord) (f : State → Thread → Issued) (hi : s.starts t b = true)
    (u : State) (hf : f (s.countIssue t) (s.thread t) = .over u) :
    s.runWord t b f = u.countSlot t 1 := by
  simp only [State.starts, Bool.and_eq_true, Bool.not_eq_true'] at hi
  obtain ⟨⟨⟨h1, h2⟩, h3⟩, h4⟩ := hi
  unfold State.runWord
  simp only [h1, h2, h3, h4, Bool.not_true, Bool.false_eq_true, if_false, hf, State.finishWord]

theorem runWord_left (s : State) (t : Nat) (b : BkWord) (f : State → Thread → Issued) (hi : s.issues t b = true)
    (u : State) (hf : f (s.countIssue t) (s.thread t) = .left u ((s.thread t).pc + 4)) :
    s.runWord t b f = u.countSlot t 1 := by
  simp only [State.issues, Bool.and_eq_true, Bool.not_eq_true'] at hi
  obtain ⟨⟨⟨⟨h1, h2⟩, h3⟩, h4⟩, h5⟩ := hi
  unfold State.runWord
  simp only [h1, h2, h3, h4, h5, Bool.not_true, Bool.false_eq_true, if_false, if_true, hf, State.finishWord]

theorem runWord_next (s : State) (t : Nat) (b : BkWord) (f : State → Thread → Issued) (hi : s.issues t b = true)
    (u : State) (hf : f (s.countIssue t) (s.thread t) = .goes u ((s.thread t).pc + 4)) :
    s.runWord t b f = s.movesOn u t := by
  simp only [State.issues, Bool.and_eq_true, Bool.not_eq_true'] at hi
  obtain ⟨⟨⟨⟨h1, h2⟩, h3⟩, h4⟩, h5⟩ := hi
  unfold State.runWord
  simp only [h1, h2, h3, h4, Bool.not_true, Bool.false_eq_true, if_false, hf, State.finishWord, h5, if_true, State.movesOn]
  have : ((((s.thread t).pc : Int) + 4)).toNat = (s.thread t).pc + 4 := by omega
  rw [this]

theorem signedField_toInt (n : Nat) (hn : 0 < n) (d : BitVec n) : signedField n d.toNat = d.toInt := by
  unfold signedField
  rw [BitVec.toInt_eq_toNat_cond]
  have := d.isLt
  have e : 2 ^ n = 2 * 2 ^ (n - 1) := by rw [← Nat.pow_succ']; congr 1; omega
  have e2 : ((2 ^ n : Nat) : Int) = (2 : Int) ^ n := by simp
  split <;> split <;> omega

theorem starts_of_issues {s : State} {t : Nat} {b : BkWord} (h : s.issues t b = true) : s.starts t b = true := by
  simp only [State.issues, State.starts, Bool.and_eq_true] at *; exact h.1

theorem address_eq (th : Thread) (ra : Nat) (off : BitVec 12) : th.address ra off = (th.rg ra + off.signExtend 64).toNat := by
  unfold Thread.address; rw [signedField_toInt 12 (by decide)]; rfl

/-! ### XREQ (R185) -/

theorem firstOf_skip {c : Bool × Parsed} {l : List (Bool × Parsed)} {r : Parsed} (h : c.1 = false) : firstOf (c :: l) r = firstOf l r := by
  simp [firstOf, List.find?, h]
theorem firstOf_pair {b : Bool} {p : Parsed} {l : List (Bool × Parsed)} {r : Parsed} (h : b = false) :
    firstOf ((b, p) :: l) r = firstOf l r := firstOf_skip (c := (b, p)) h
theorem firstOf_refuse {b : Bool} {l : List (Bool × Parsed)} {r : Parsed} (h : b = false) :
    firstOf (refuse b :: l) r = firstOf l r := firstOf_skip (c := (b, _)) h
theorem firstOf_hit {c : Bool × Parsed} {l : List (Bool × Parsed)} {r : Parsed} (h : c.1 = true) : firstOf (c :: l) r = c.2 := by
  simp [firstOf, List.find?, h]

theorem runXreq_req (s : State) (t rd ra rb n : Nat) (parse : Issuer → Parsed) (hs : s.issues t (.xreq rd ra rb n) = true) (q : Req)
    (act : State → Nat → State)
    (hp : parse { s := s.countIssue t, t := t, o := (s.countIssue t).ownerOf t, th := s.thread t, cmd := (s.countIssue t).threadCmd t,
                  user := (s.countIssue t).profileOf t == .user } = .req q act) :
    ((s.countIssue t).ticketNumber ((s.countIssue t).ownerOf t) = none → s.runXreq t rd ra rb n parse = s.settle) ∧
    (∀ k, (s.countIssue t).ticketNumber ((s.countIssue t).ownerOf t) = some k → s.runXreq t rd ra rb n parse =
      (s.movesOn ((act ((s.countIssue t).issue ((s.countIssue t).ownerOf t) k q (rd == 0)) k).onThread t
        fun y => y.setG rd (BitVec.ofNat 64 k)) t).settle) := by
  constructor
  · intro hk
    unfold State.runXreq
    congr 1
    have hs' := starts_of_issues hs
    simp only [State.starts, Bool.and_eq_true, Bool.not_eq_true'] at hs'
    obtain ⟨⟨⟨h1, h2⟩, h3⟩, h4⟩ := hs'
    unfold State.runWord
    simp only [h1, h2, h3, h4, Bool.not_true, Bool.false_eq_true, if_false, hp, hk, State.finishWord]
  · intro k hk
    unfold State.runXreq
    congr 1
    exact runWord_next s t _ _ hs _ (by simp only [hp, hk]; rfl)

theorem runXreq_raise (s : State) (t rd ra rb n : Nat) (parse : Issuer → Parsed) (hs : s.issues t (.xreq rd ra rb n) = true) (e : Nat)
    (hp : parse { s := s.countIssue t, t := t, o := (s.countIssue t).ownerOf t, th := s.thread t, cmd := (s.countIssue t).threadCmd t,
                  user := (s.countIssue t).profileOf t == .user } = .raise e) :
    s.runXreq t rd ra rb n parse = (s.trap t e none).settle := by
  unfold State.runXreq
  congr 1
  exact runWord_raise s t _ _ (starts_of_issues hs) _ _ (by simp only [hp])

theorem runXreq_fault (s : State) (t rd ra rb n : Nat) (parse : Issuer → Parsed) (hs : s.issues t (.xreq rd ra rb n) = true) (e : Nat)
    (hp : parse { s := s.countIssue t, t := t, o := (s.countIssue t).ownerOf t, th := s.thread t, cmd := (s.countIssue t).threadCmd t,
                  user := (s.countIssue t).profileOf t == .user } = .fault e) :
    s.runXreq t rd ra rb n parse = (s.benchFault t e 0).settle := by
  unfold State.runXreq
  congr 1
  have hs' := starts_of_issues hs
  simp only [State.starts, Bool.and_eq_true, Bool.not_eq_true'] at hs'
  obtain ⟨⟨⟨h1, h2⟩, h3⟩, h4⟩ := hs'
  unfold State.runWord
  simp only [h1, h2, h3, h4, Bool.not_true, Bool.false_eq_true, if_false, hp, State.finishWord]

end Sys2Proof.Machine
end

