-- ==== Sys2Proof/Laws/Gate.lean ====
section
/-! SUPPORT. What the gate of every command can answer, and the paths to the register space. -/

namespace Sys2Proof.Machine

open Sys2Proof.Reg

theorem takes_held (s : State) (h : s.takes = true) : s.held = false := by simp_all [State.takes]

theorem takes_owed (s : State) (h : s.takes = true) : s.boundaryOwed = false := by simp_all [State.takes]

/-- Where no boundary is owed, none runs. -/
theorem epochBoundary_of_not_owed (s : State) (h : s.boundaryOwed = false) : s.epochBoundary = s := by
  simp [State.epochBoundary, h]

/-- A command whose operands name what the part has acts on a device that takes it. -/
theorem commandIf_next (ok : Bool) (s : State) (f : State → State) (hok : ok = true) (h : s.takes = true) :
    commandIf ok s f = .next ((f s).keepQueue s) := by
  simp [commandIf, commandAtOnce, hok, takes_held s h, epochBoundary_of_not_owed s (takes_owed s h)]

/-- A device held in reset ignores a command (R432). -/
theorem commandIf_held (ok : Bool) (s : State) (f : State → State) (h : s.held = true) :
    commandIf ok s f = .next s := by simp [commandIf, commandAtOnce, h]; rfl

/-- Operands that name nothing the part has have no effect. -/
theorem commandIf_illFormed (ok : Bool) (s : State) (f : State → State) (hok : ok = false) :
    commandIf ok s f = .next s := by simp [commandIf, commandAtOnce, hok]; rfl

theorem commandAlwaysIf_next (ok : Bool) (s : State) (f : State → State) (hok : ok = true) :
    commandAlwaysIf ok s f = .next ((f s).keepQueue s) := by simp [commandAlwaysIf, hok]

theorem commandAlwaysIf_illFormed (ok : Bool) (s : State) (f : State → State) (hok : ok = false) :
    commandAlwaysIf ok s f = .next s := by simp [commandAlwaysIf, hok]; rfl

theorem command_next (i : Instr) (s : State) (f : State → State) (hok : i.wellFormed = true) (h : s.takes = true) :
    command i s f = .next ((f s).keepQueue s) := commandIf_next _ _ _ hok h

/-- A gate answers a next state with the queue it was given, and nothing else. -/
theorem commandIf_cases (ok : Bool) (s : State) (f : State → State) :
    ∃ t, commandIf ok s f = .next t ∧ t.pending = s.pending := ⟨_, rfl, rfl⟩

theorem commandAlwaysIf_cases (ok : Bool) (s : State) (f : State → State) :
    ∃ t, commandAlwaysIf ok s f = .next t ∧ t.pending = s.pending := ⟨_, rfl, rfl⟩

theorem viaWrite_of_mayWrite (s : State) (p : Path) (addr : Nat) (f : State → State) (h : s.mayWrite p addr = true) :
    s.viaWrite p addr f = f s := by
  simp only [State.mayWrite, Bool.and_eq_true, Bool.not_eq_true', Bool.and_eq_false_iff, beq_eq_false_iff_ne] at h
  unfold State.viaWrite
  rw [if_neg, if_neg]
  · simp [h.2]
  · rintro ⟨hp, hu⟩
    rcases h.1 with h1 | h1
    · exact h1 hp
    · simp_all

/-- A row that a path writes, on a path that may write (R56). -/
theorem command_path (i : Instr) (s : State) (p : Path) (addr : Nat) (f : State → State) (hok : i.wellFormed = true)
    (h : s.takes = true) (hm : s.mayWrite p addr = true) :
    command i s (fun s => s.viaWrite p addr f) = .next ((f s).keepQueue s) := by
  rw [command_next _ _ _ hok h, viaWrite_of_mayWrite s p addr f hm]

theorem commandIf_path (ok : Bool) (s : State) (p : Path) (addr : Nat) (f : State → State) (hok : ok = true)
    (h : s.takes = true) (hm : s.mayWrite p addr = true) :
    commandIf ok s (fun s => s.viaWrite p addr f) = .next ((f s).keepQueue s) := by
  rw [commandIf_next _ _ _ hok h, viaWrite_of_mayWrite s p addr f hm]

/-- A START that nothing refuses (R430, R451). -/
theorem startBlock_of_needs (s : State) (p : Path) (addr b : Nat) (ev : Field) (needs : List Nat) (act : State → State)
    (hr : s.runs b = false) (hrec : s.inRecovery = false) (hn : needs.all s.runs = true) :
    s.startBlock p addr b ev needs act = act (s.setRuns b true) := by
  simp [State.startBlock, hr, hrec, hn]

/-- A STOP that nothing refuses (R451). -/
theorem stopBlock_of_runs (s : State) (b : Nat) (refused : Bool) (ev : Field) (act : State → State)
    (hr : s.runs b = true) (hf : refused = false) : s.stopBlock b refused ev act = act (s.setRuns b false) := by
  simp [State.stopBlock, hr, hf]

end Sys2Proof.Machine
end

