-- ==== Sys2Proof/Laws/Tables.lean ====
section
/-! SUPPORT. Laws of the sparse tables and of byte memory: read after write, and that every operation keeps the
canonical form. -/

namespace Sys2Proof

namespace SMap

variable {α : Type}

@[simp] theorem find_put_same (k : Nat) (a : α) (m : SMap α) : find (put k a m) k = some a := by
  induction m with
  | nil => simp [put, find]
  | cons e m ih =>
    obtain ⟨j, b⟩ := e
    by_cases h : j = k
    · simp [put, find, h]
    · by_cases h' : k < j <;> simp [put, find, h, h', ih]

theorem find_put_other {k j : Nat} (a : α) (m : SMap α) (h : j ≠ k) : find (put k a m) j = find m j := by
  induction m with
  | nil => simp [put, find, Ne.symm h]
  | cons e m ih =>
    obtain ⟨i, b⟩ := e
    by_cases hi : i = k
    · subst hi; simp [put, find, Ne.symm h]
    · by_cases hk : k < i
      · simp [put, find, hi, hk, Ne.symm h]
      · simp [put, find, hi, hk, ih]

/-- A key below the bound of a rising table is not listed. -/
theorem find_none_of_lt {m : SMap α} {lo k : Nat} (hm : risingFrom lo m = true) (h : k < lo) : find m k = none := by
  induction m generalizing lo with
  | nil => rfl
  | cons e m ih =>
    obtain ⟨j, b⟩ := e
    simp only [risingFrom, Bool.and_eq_true, decide_eq_true_eq] at hm
    have hj : j ≠ k := by omega
    simpa [find, hj] using ih hm.2 (by omega)

theorem find_del_same {m : SMap α} {lo : Nat} (k : Nat) (hm : risingFrom lo m = true) : find (del k m) k = none := by
  induction m generalizing lo with
  | nil => rfl
  | cons e m ih =>
    obtain ⟨j, b⟩ := e
    simp only [risingFrom, Bool.and_eq_true, decide_eq_true_eq] at hm
    by_cases h : j = k
    · subst h; simpa [del] using find_none_of_lt hm.2 (Nat.lt_succ_self j)
    · simp [del, find, h, ih hm.2]

theorem find_del_other {k j : Nat} (m : SMap α) (h : j ≠ k) : find (del k m) j = find m j := by
  induction m with
  | nil => rfl
  | cons e m ih =>
    obtain ⟨i, b⟩ := e
    by_cases hi : i = k
    · subst hi; simp [del, find, Ne.symm h]
    · simp [del, find, hi, ih]

theorem risingFrom_mono {m : SMap α} {lo lo' : Nat} (hm : risingFrom lo m = true) (h : lo' ≤ lo) :
    risingFrom lo' m = true := by
  cases m with
  | nil => rfl
  | cons e m =>
    simp only [risingFrom, Bool.and_eq_true, decide_eq_true_eq] at hm ⊢
    exact ⟨by omega, hm.2⟩

theorem risingFrom_put {m : SMap α} {lo k : Nat} (a : α) (hm : risingFrom lo m = true) (h : lo ≤ k) :
    risingFrom lo (put k a m) = true := by
  induction m generalizing lo with
  | nil => simp [put, risingFrom, h]
  | cons e m ih =>
    obtain ⟨j, b⟩ := e
    simp only [risingFrom, Bool.and_eq_true, decide_eq_true_eq] at hm
    by_cases hj : j = k
    · subst hj; simp [put, risingFrom, h, hm.2]
    · by_cases hk : k < j
      · simp only [put, hj, hk, if_false, if_true, risingFrom, Bool.and_eq_true, decide_eq_true_eq]
        exact ⟨h, by omega, hm.2⟩
      · simp [put, hj, hk, risingFrom, hm.1, ih hm.2 (by omega)]

theorem risingFrom_del {m : SMap α} {lo : Nat} (k : Nat) (hm : risingFrom lo m = true) :
    risingFrom lo (del k m) = true := by
  induction m generalizing lo with
  | nil => rfl
  | cons e m ih =>
    obtain ⟨j, b⟩ := e
    simp only [risingFrom, Bool.and_eq_true, decide_eq_true_eq] at hm
    by_cases h : j = k
    · simpa [del, h] using risingFrom_mono hm.2 (by omega)
    · simp [del, h, risingFrom, hm.1, ih hm.2]

theorem all_put {m : SMap α} (p : Nat × α → Bool) (k : Nat) (a : α) (hm : m.all p = true) (h : p (k, a) = true) :
    (put k a m).all p = true := by
  induction m with
  | nil => simp [put, h]
  | cons e m ih =>
    obtain ⟨j, b⟩ := e
    simp only [List.all_cons, Bool.and_eq_true] at hm
    by_cases hj : j = k
    · simp [put, hj, h, hm.2]
    · by_cases hk : k < j <;> simp [put, hj, hk, h, hm.1, hm.2, ih hm.2]

theorem all_del {m : SMap α} (p : Nat × α → Bool) (k : Nat) (hm : m.all p = true) : (del k m).all p = true := by
  induction m with
  | nil => rfl
  | cons e m ih =>
    obtain ⟨j, b⟩ := e
    simp only [List.all_cons, Bool.and_eq_true] at hm
    by_cases hj : j = k <;> simp [del, hj, hm.1, hm.2, ih hm.2]

end SMap

namespace Mem

theorem wf_nil : wf [] = true := rfl

/-- A store keeps the canonical form. -/
theorem wf_write {m : Mem} (a : Nat) (b : Byte) (h : wf m = true) : wf (write a b m) = true := by
  simp only [wf, Bool.and_eq_true] at h ⊢
  by_cases hb : b = 0
  · simp only [write, hb, if_true]; exact ⟨SMap.risingFrom_del a h.1, SMap.all_del _ a h.2⟩
  · simp only [write, hb, if_false]
    exact ⟨SMap.risingFrom_put b h.1 (Nat.zero_le a), SMap.all_put _ a b h.2 (decide_eq_true hb)⟩

/-- A store of any length keeps the canonical form. -/
theorem wf_writeAll {m : Mem} (a : Nat) (bs : List Byte) (h : wf m = true) : wf (writeAll a bs m) = true := by
  induction bs generalizing a m with
  | nil => exact h
  | cons b bs ih => exact ih (a + 1) (wf_write a b h)

/-- A byte read where it was stored is the byte stored. -/
theorem read_write_same {m : Mem} (a : Nat) (b : Byte) (h : wf m = true) : read (write a b m) a = b := by
  simp only [wf, Bool.and_eq_true] at h
  unfold write read SMap.get
  split
  · next hb => rw [SMap.find_del_same a h.1, hb]; rfl
  · rw [SMap.find_put_same]; rfl

/-- A store leaves every other byte alone. -/
theorem read_write_other {m : Mem} {a c : Nat} (b : Byte) (h : c ≠ a) : read (write a b m) c = read m c := by
  unfold write read SMap.get
  split
  · rw [SMap.find_del_other m h]
  · rw [SMap.find_put_other b m h]

/-- A store of any length leaves every byte outside it alone. -/
theorem read_writeAll_other {m : Mem} {a c : Nat} (bs : List Byte) (h : c < a ∨ a + bs.length ≤ c) :
    read (writeAll a bs m) c = read m c := by
  induction bs generalizing a m with
  | nil => rfl
  | cons b bs ih =>
    rw [writeAll, ih (by simp only [List.length_cons] at h; omega), read_write_other b (by
      simp only [List.length_cons] at h; omega)]

end Mem

end Sys2Proof
end

