-- ==== Sys2Proof/Laws/State.lean ====
section
/-! SUPPORT. Laws of the state: one lemma per field and update, registers read after they are written. -/

namespace Sys2Proof.Machine

open Sys2Proof.Reg

/-! ### The queue -/

@[simp] theorem State.keepQueue_ns (t s : State) : (t.keepQueue s).ns = t.ns := rfl
@[simp] theorem State.keepQueue_freeCtr (t s : State) : (t.keepQueue s).freeCtr = t.freeCtr := rfl
@[simp] theorem State.keepQueue_regs (t s : State) : (t.keepQueue s).regs = t.regs := rfl
@[simp] theorem State.keepQueue_rtu (t s : State) : (t.keepQueue s).rtu = t.rtu := rfl
@[simp] theorem State.keepQueue_cfg (t s : State) : (t.keepQueue s).cfg = t.cfg := rfl
@[simp] theorem State.keepQueue_top (t s : State) : (t.keepQueue s).top = t.top := rfl
@[simp] theorem State.keepQueue_evr (t s : State) : (t.keepQueue s).evr = t.evr := rfl
@[simp] theorem State.keepQueue_pmc (t s : State) : (t.keepQueue s).pmc = t.pmc := rfl
@[simp] theorem State.keepQueue_mep (t s : State) : (t.keepQueue s).mep = t.mep := rfl
@[simp] theorem State.keepQueue_sbd (t s : State) : (t.keepQueue s).sbd = t.sbd := rfl
@[simp] theorem State.keepQueue_cab (t s : State) : (t.keepQueue s).cab = t.cab := rfl
@[simp] theorem State.keepQueue_sch (t s : State) : (t.keepQueue s).sch = t.sch := rfl
@[simp] theorem State.keepQueue_cph (t s : State) : (t.keepQueue s).cph = t.cph := rfl
@[simp] theorem State.keepQueue_nlt (t s : State) : (t.keepQueue s).nlt = t.nlt := rfl
@[simp] theorem State.keepQueue_ctx (t s : State) : (t.keepQueue s).ctx = t.ctx := rfl
@[simp] theorem State.keepQueue_cmd (t s : State) : (t.keepQueue s).cmd = t.cmd := rfl
@[simp] theorem State.keepQueue_bnc (t s : State) : (t.keepQueue s).bnc = t.bnc := rfl
@[simp] theorem State.keepQueue_par (t s : State) : (t.keepQueue s).par = t.par := rfl
@[simp] theorem State.keepQueue_ldg (t s : State) : (t.keepQueue s).ldg = t.ldg := rfl
@[simp] theorem State.keepQueue_drv (t s : State) : (t.keepQueue s).drv = t.drv := rfl
@[simp] theorem State.keepQueue_hng (t s : State) : (t.keepQueue s).hng = t.hng := rfl
@[simp] theorem State.keepQueue_slp (t s : State) : (t.keepQueue s).slp = t.slp := rfl
@[simp] theorem State.keepQueue_fwu (t s : State) : (t.keepQueue s).fwu = t.fwu := rfl
@[simp] theorem State.keepQueue_out (t s : State) : (t.keepQueue s).out = t.out := rfl
@[simp] theorem State.keepQueue_pending (t s : State) : (t.keepQueue s).pending = s.pending := rfl
@[simp] theorem State.keepQueue_reg (t s : State) (f : Field) (i : Nat) : (t.keepQueue s).reg f i = t.reg f i := rfl

/-- A state that has its own queue keeps it. -/
@[simp] theorem State.keepQueue_self (s : State) : s.keepQueue s = s := rfl

/-! ### A register field written: everything else of the state -/

@[simp] theorem State.setReg_ns (s : State) (f : Field) (i v : Nat) : (s.setReg f i v).ns = s.ns := by
  unfold State.setReg; split <;> rfl
@[simp] theorem State.setReg_freeCtr (s : State) (f : Field) (i v : Nat) : (s.setReg f i v).freeCtr = s.freeCtr := by
  unfold State.setReg; split <;> rfl
@[simp] theorem State.setReg_rtu (s : State) (f : Field) (i v : Nat) : (s.setReg f i v).rtu = s.rtu := by
  unfold State.setReg; split <;> rfl
@[simp] theorem State.setReg_cfg (s : State) (f : Field) (i v : Nat) : (s.setReg f i v).cfg = s.cfg := by
  unfold State.setReg; split <;> rfl
@[simp] theorem State.setReg_top (s : State) (f : Field) (i v : Nat) : (s.setReg f i v).top = s.top := by
  unfold State.setReg; split <;> rfl
@[simp] theorem State.setReg_evr (s : State) (f : Field) (i v : Nat) : (s.setReg f i v).evr = s.evr := by
  unfold State.setReg; split <;> rfl
@[simp] theorem State.setReg_pmc (s : State) (f : Field) (i v : Nat) : (s.setReg f i v).pmc = s.pmc := by
  unfold State.setReg; split <;> rfl
@[simp] theorem State.setReg_mep (s : State) (f : Field) (i v : Nat) : (s.setReg f i v).mep = s.mep := by
  unfold State.setReg; split <;> rfl
@[simp] theorem State.setReg_sbd (s : State) (f : Field) (i v : Nat) : (s.setReg f i v).sbd = s.sbd := by
  unfold State.setReg; split <;> rfl
@[simp] theorem State.setReg_cab (s : State) (f : Field) (i v : Nat) : (s.setReg f i v).cab = s.cab := by
  unfold State.setReg; split <;> rfl
@[simp] theorem State.setReg_sch (s : State) (f : Field) (i v : Nat) : (s.setReg f i v).sch = s.sch := by
  unfold State.setReg; split <;> rfl
@[simp] theorem State.setReg_cph (s : State) (f : Field) (i v : Nat) : (s.setReg f i v).cph = s.cph := by
  unfold State.setReg; split <;> rfl
@[simp] theorem State.setReg_nlt (s : State) (f : Field) (i v : Nat) : (s.setReg f i v).nlt = s.nlt := by
  unfold State.setReg; split <;> rfl
@[simp] theorem State.setReg_ctx (s : State) (f : Field) (i v : Nat) : (s.setReg f i v).ctx = s.ctx := by
  unfold State.setReg; split <;> rfl
@[simp] theorem State.setReg_cmd (s : State) (f : Field) (i v : Nat) : (s.setReg f i v).cmd = s.cmd := by
  unfold State.setReg; split <;> rfl
@[simp] theorem State.setReg_bnc (s : State) (f : Field) (i v : Nat) : (s.setReg f i v).bnc = s.bnc := by
  unfold State.setReg; split <;> rfl
@[simp] theorem State.setReg_par (s : State) (f : Field) (i v : Nat) : (s.setReg f i v).par = s.par := by
  unfold State.setReg; split <;> rfl
@[simp] theorem State.setReg_ldg (s : State) (f : Field) (i v : Nat) : (s.setReg f i v).ldg = s.ldg := by
  unfold State.setReg; split <;> rfl
@[simp] theorem State.setReg_drv (s : State) (f : Field) (i v : Nat) : (s.setReg f i v).drv = s.drv := by
  unfold State.setReg; split <;> rfl
@[simp] theorem State.setReg_hng (s : State) (f : Field) (i v : Nat) : (s.setReg f i v).hng = s.hng := by
  unfold State.setReg; split <;> rfl
@[simp] theorem State.setReg_slp (s : State) (f : Field) (i v : Nat) : (s.setReg f i v).slp = s.slp := by
  unfold State.setReg; split <;> rfl
@[simp] theorem State.setReg_fwu (s : State) (f : Field) (i v : Nat) : (s.setReg f i v).fwu = s.fwu := by
  unfold State.setReg; split <;> rfl
@[simp] theorem State.setReg_out (s : State) (f : Field) (i v : Nat) : (s.setReg f i v).out = s.out := by
  unfold State.setReg; split <;> rfl
@[simp] theorem State.setReg_pending (s : State) (f : Field) (i v : Nat) : (s.setReg f i v).pending = s.pending := by
  unfold State.setReg; split <;> rfl
@[simp] theorem State.setRuns_ns (s : State) (b : Nat) (v : Bool) : (s.setRuns b v).ns = s.ns :=
  State.setReg_ns ..
@[simp] theorem State.setRuns_freeCtr (s : State) (b : Nat) (v : Bool) : (s.setRuns b v).freeCtr = s.freeCtr :=
  State.setReg_freeCtr ..
@[simp] theorem State.setRuns_rtu (s : State) (b : Nat) (v : Bool) : (s.setRuns b v).rtu = s.rtu :=
  State.setReg_rtu ..
@[simp] theorem State.setRuns_cfg (s : State) (b : Nat) (v : Bool) : (s.setRuns b v).cfg = s.cfg :=
  State.setReg_cfg ..
@[simp] theorem State.setRuns_top (s : State) (b : Nat) (v : Bool) : (s.setRuns b v).top = s.top :=
  State.setReg_top ..
@[simp] theorem State.setRuns_evr (s : State) (b : Nat) (v : Bool) : (s.setRuns b v).evr = s.evr :=
  State.setReg_evr ..
@[simp] theorem State.setRuns_pmc (s : State) (b : Nat) (v : Bool) : (s.setRuns b v).pmc = s.pmc :=
  State.setReg_pmc ..
@[simp] theorem State.setRuns_mep (s : State) (b : Nat) (v : Bool) : (s.setRuns b v).mep = s.mep :=
  State.setReg_mep ..
@[simp] theorem State.setRuns_sbd (s : State) (b : Nat) (v : Bool) : (s.setRuns b v).sbd = s.sbd :=
  State.setReg_sbd ..
@[simp] theorem State.setRuns_cab (s : State) (b : Nat) (v : Bool) : (s.setRuns b v).cab = s.cab :=
  State.setReg_cab ..
@[simp] theorem State.setRuns_sch (s : State) (b : Nat) (v : Bool) : (s.setRuns b v).sch = s.sch :=
  State.setReg_sch ..
@[simp] theorem State.setRuns_cph (s : State) (b : Nat) (v : Bool) : (s.setRuns b v).cph = s.cph :=
  State.setReg_cph ..
@[simp] theorem State.setRuns_nlt (s : State) (b : Nat) (v : Bool) : (s.setRuns b v).nlt = s.nlt :=
  State.setReg_nlt ..
@[simp] theorem State.setRuns_ctx (s : State) (b : Nat) (v : Bool) : (s.setRuns b v).ctx = s.ctx :=
  State.setReg_ctx ..
@[simp] theorem State.setRuns_cmd (s : State) (b : Nat) (v : Bool) : (s.setRuns b v).cmd = s.cmd :=
  State.setReg_cmd ..
@[simp] theorem State.setRuns_bnc (s : State) (b : Nat) (v : Bool) : (s.setRuns b v).bnc = s.bnc :=
  State.setReg_bnc ..
@[simp] theorem State.setRuns_par (s : State) (b : Nat) (v : Bool) : (s.setRuns b v).par = s.par :=
  State.setReg_par ..
@[simp] theorem State.setRuns_ldg (s : State) (b : Nat) (v : Bool) : (s.setRuns b v).ldg = s.ldg :=
  State.setReg_ldg ..
@[simp] theorem State.setRuns_drv (s : State) (b : Nat) (v : Bool) : (s.setRuns b v).drv = s.drv :=
  State.setReg_drv ..
@[simp] theorem State.setRuns_hng (s : State) (b : Nat) (v : Bool) : (s.setRuns b v).hng = s.hng :=
  State.setReg_hng ..
@[simp] theorem State.setRuns_slp (s : State) (b : Nat) (v : Bool) : (s.setRuns b v).slp = s.slp :=
  State.setReg_slp ..
@[simp] theorem State.setRuns_fwu (s : State) (b : Nat) (v : Bool) : (s.setRuns b v).fwu = s.fwu :=
  State.setReg_fwu ..
@[simp] theorem State.setRuns_out (s : State) (b : Nat) (v : Bool) : (s.setRuns b v).out = s.out :=
  State.setReg_out ..
@[simp] theorem State.setRuns_pending (s : State) (b : Nat) (v : Bool) : (s.setRuns b v).pending = s.pending :=
  State.setReg_pending ..
@[simp] theorem State.setFlag_ns (s : State) (f : Field) (i : Nat) (b : Bool) : (s.setFlag f i b).ns = s.ns :=
  State.setReg_ns ..
@[simp] theorem State.setFlag_freeCtr (s : State) (f : Field) (i : Nat) (b : Bool) : (s.setFlag f i b).freeCtr = s.freeCtr :=
  State.setReg_freeCtr ..
@[simp] theorem State.setFlag_rtu (s : State) (f : Field) (i : Nat) (b : Bool) : (s.setFlag f i b).rtu = s.rtu :=
  State.setReg_rtu ..
@[simp] theorem State.setFlag_cfg (s : State) (f : Field) (i : Nat) (b : Bool) : (s.setFlag f i b).cfg = s.cfg :=
  State.setReg_cfg ..
@[simp] theorem State.setFlag_top (s : State) (f : Field) (i : Nat) (b : Bool) : (s.setFlag f i b).top = s.top :=
  State.setReg_top ..
@[simp] theorem State.setFlag_evr (s : State) (f : Field) (i : Nat) (b : Bool) : (s.setFlag f i b).evr = s.evr :=
  State.setReg_evr ..
@[simp] theorem State.setFlag_pmc (s : State) (f : Field) (i : Nat) (b : Bool) : (s.setFlag f i b).pmc = s.pmc :=
  State.setReg_pmc ..
@[simp] theorem State.setFlag_mep (s : State) (f : Field) (i : Nat) (b : Bool) : (s.setFlag f i b).mep = s.mep :=
  State.setReg_mep ..
@[simp] theorem State.setFlag_sbd (s : State) (f : Field) (i : Nat) (b : Bool) : (s.setFlag f i b).sbd = s.sbd :=
  State.setReg_sbd ..
@[simp] theorem State.setFlag_cab (s : State) (f : Field) (i : Nat) (b : Bool) : (s.setFlag f i b).cab = s.cab :=
  State.setReg_cab ..
@[simp] theorem State.setFlag_sch (s : State) (f : Field) (i : Nat) (b : Bool) : (s.setFlag f i b).sch = s.sch :=
  State.setReg_sch ..
@[simp] theorem State.setFlag_cph (s : State) (f : Field) (i : Nat) (b : Bool) : (s.setFlag f i b).cph = s.cph :=
  State.setReg_cph ..
@[simp] theorem State.setFlag_nlt (s : State) (f : Field) (i : Nat) (b : Bool) : (s.setFlag f i b).nlt = s.nlt :=
  State.setReg_nlt ..
@[simp] theorem State.setFlag_ctx (s : State) (f : Field) (i : Nat) (b : Bool) : (s.setFlag f i b).ctx = s.ctx :=
  State.setReg_ctx ..
@[simp] theorem State.setFlag_cmd (s : State) (f : Field) (i : Nat) (b : Bool) : (s.setFlag f i b).cmd = s.cmd :=
  State.setReg_cmd ..
@[simp] theorem State.setFlag_bnc (s : State) (f : Field) (i : Nat) (b : Bool) : (s.setFlag f i b).bnc = s.bnc :=
  State.setReg_bnc ..
@[simp] theorem State.setFlag_par (s : State) (f : Field) (i : Nat) (b : Bool) : (s.setFlag f i b).par = s.par :=
  State.setReg_par ..
@[simp] theorem State.setFlag_ldg (s : State) (f : Field) (i : Nat) (b : Bool) : (s.setFlag f i b).ldg = s.ldg :=
  State.setReg_ldg ..
@[simp] theorem State.setFlag_drv (s : State) (f : Field) (i : Nat) (b : Bool) : (s.setFlag f i b).drv = s.drv :=
  State.setReg_drv ..
@[simp] theorem State.setFlag_hng (s : State) (f : Field) (i : Nat) (b : Bool) : (s.setFlag f i b).hng = s.hng :=
  State.setReg_hng ..
@[simp] theorem State.setFlag_slp (s : State) (f : Field) (i : Nat) (b : Bool) : (s.setFlag f i b).slp = s.slp :=
  State.setReg_slp ..
@[simp] theorem State.setFlag_fwu (s : State) (f : Field) (i : Nat) (b : Bool) : (s.setFlag f i b).fwu = s.fwu :=
  State.setReg_fwu ..
@[simp] theorem State.setFlag_out (s : State) (f : Field) (i : Nat) (b : Bool) : (s.setFlag f i b).out = s.out :=
  State.setReg_out ..
@[simp] theorem State.setFlag_pending (s : State) (f : Field) (i : Nat) (b : Bool) : (s.setFlag f i b).pending = s.pending :=
  State.setReg_pending ..

/-- The copies of class L that a commit or a rollback moves are untouched by a register write of the hardware. -/
theorem State.setReg_pend (s : State) (f : Field) (i v : Nat) :
    (s.setReg f i v).regs.pend = s.regs.pend ∧ (s.setReg f i v).regs.prev = s.regs.prev ∧
      (s.setReg f i v).regs.latch = s.regs.latch := by
  unfold State.setReg; split <;> exact ⟨rfl, rfl, rfl⟩

/-! ### A register field read after it is written -/

theorem get_storeField_same (reset k v : Nat) {m : SMap Nat} (h : SMap.risingFrom 0 m = true) :
    SMap.get reset (storeField reset k v m) k = v := by
  unfold storeField SMap.get
  split
  · next e => rw [SMap.find_del_same k h, e]; rfl
  · rw [SMap.find_put_same]; rfl

theorem get_storeField_other (reset d v : Nat) {k j : Nat} (m : SMap Nat) (h : j ≠ k) :
    SMap.get d (storeField reset k v m) j = SMap.get d m j := by
  unfold storeField SMap.get
  split
  · rw [SMap.find_del_other m h]
  · rw [SMap.find_put_other v m h]

theorem risingFrom_storeField (reset k v : Nat) {m : SMap Nat} (h : SMap.risingFrom 0 m = true) :
    SMap.risingFrom 0 (storeField reset k v m) = true := by
  unfold storeField
  split
  · exact SMap.risingFrom_del k h
  · exact SMap.risingFrom_put v h (Nat.zero_le k)

/-- A register write keeps the tables' form. -/
theorem State.setReg_rising (s : State) (f : Field) (i v : Nat) (h : s.regs.rising) : (s.setReg f i v).regs.rising := by
  unfold State.setReg RegFile.rising
  split
  · exact ⟨h.1, risingFrom_storeField _ _ _ h.2⟩
  · exact ⟨risingFrom_storeField _ _ _ h.1, h.2⟩

/-- A field reads as the value written into it, cut to its width. -/
theorem State.reg_setReg_same (s : State) (f : Field) (i v : Nat) (h : s.regs.rising) :
    (s.setReg f i v).reg f i = v % 2 ^ f.width := by
  by_cases hL : f.cls = .L
  · simpa [State.setReg, State.reg, hL] using get_storeField_same (f.reset i) (f.key i) (v % 2 ^ f.width) h.2
  · simpa [State.setReg, State.reg, hL] using get_storeField_same (f.reset i) (f.key i) (v % 2 ^ f.width) h.1

/-- A field of another place, or of another class of copy, reads as before. -/
theorem State.reg_setReg_other (s : State) (f g : Field) (i j v : Nat) (h : g.key j ≠ f.key i) :
    (s.setReg f i v).reg g j = s.reg g j := by
  by_cases hf : f.cls = .L <;> by_cases hg : g.cls = .L
  · simpa [State.setReg, State.reg, hf, hg] using get_storeField_other _ _ _ _ h
  · simp [State.setReg, State.reg, hf, hg]
  · simp [State.setReg, State.reg, hf, hg]
  · simpa [State.setReg, State.reg, hf, hg] using get_storeField_other _ _ _ _ h

/-- Nothing is listed at reset. -/
theorem reset_rising : State.reset.regs.rising := ⟨rfl, rfl⟩

end Sys2Proof.Machine
end

