-- ==== Sys2Proof/Laws/Ops.lean ====
section
/-! SUPPORT. What each shared operation can change: counters change registers alone, events registers and vectors, records
the recorder beside them, a store its bytes. -/

namespace Sys2Proof.Machine

open Sys2Proof.Reg

/-! ### Counters: only registers -/

theorem State.setReg_frame (s : State) (f : Field) (i v : Nat) : ∃ r, s.setReg f i v = { s with regs := r } := by
  unfold State.setReg; split <;> exact ⟨_, rfl⟩

theorem foldl_frame {α : Type} (g : State → α → State) (hg : ∀ s a, ∃ r, g s a = { s with regs := r }) (l : List α) (s : State) :
    ∃ r, l.foldl g s = { s with regs := r } := by
  induction l generalizing s with
  | nil => exact ⟨s.regs, rfl⟩
  | cons a l ih =>
    obtain ⟨r, hr⟩ := hg s a
    obtain ⟨q, hq⟩ := ih (g s a)
    exact ⟨q, by rw [List.foldl_cons, hq, hr]⟩

theorem State.pmcCount_frame (s : State) (b e n : Nat) (a : Attr) : ∃ r, s.pmcCount b e n a = { s with regs := r } := by
  refine foldl_frame _ (fun s k => ?_) _ s
  split
  · exact s.setReg_frame ..
  · exact ⟨s.regs, rfl⟩

theorem State.bumpBy_frame (s : State) (f : Field) (i n : Nat) (a : Attr) : ∃ r, s.bumpBy f i n a = { s with regs := r } := by
  obtain ⟨r, hr⟩ := s.setReg_frame f i (s.reg f i + n)
  unfold State.bumpBy
  dsimp only
  split
  · next e b _ _ =>
    obtain ⟨q, hq⟩ := (s.setReg f i (s.reg f i + n)).pmcCount_frame b e n { a with inst := some (a.inst.getD i) }
    exact ⟨q, by rw [hq, hr]⟩
  · exact ⟨r, hr⟩

theorem State.bump_frame (s : State) (f : Field) (i : Nat) (a : Attr) : ∃ r, s.bump f i a = { s with regs := r } :=
  s.bumpBy_frame ..

/-! ### Events: registers and vectors -/

theorem State.sendMsix_frame (s : State) (v : Nat) : ∃ r m, s.sendMsix v = { s with regs := r, mep := m } := by
  unfold State.sendMsix
  split
  · dsimp only
    obtain ⟨r, hr⟩ := s.setReg_frame MEP_VEC_PEND_PEND 0 (s.reg MEP_VEC_PEND_PEND - 2 ^ v)
    rw [hr]
    unfold State.setFlag
    dsimp only
    obtain ⟨q, hq⟩ := State.setReg_frame _ MEP_LINK_L1 0 (Bool.nat false)
    rw [hq]
    obtain ⟨p, hp⟩ := State.bump_frame _ MEP_MSIX_SENT 0 {}
    exact ⟨p, _, by rw [hp]⟩
  · exact ⟨s.regs, s.mep, rfl⟩

theorem State.serviceVector_frame (s : State) (v : Nat) : ∃ r m, s.serviceVector v = { s with regs := r, mep := m } := by
  unfold State.serviceVector
  split
  · exact ⟨s.regs, s.mep, rfl⟩
  · split
    · dsimp only
      split
      · exact s.sendMsix_frame v
      · obtain ⟨r, hr⟩ := s.setReg_frame MEP_VEC_PEND_PEND 0 (s.reg MEP_VEC_PEND_PEND + 2 ^ v)
        rw [hr]
        obtain ⟨q, m, hq⟩ := State.sendMsix_frame _ v
        exact ⟨q, m, by rw [hq]⟩
    · exact ⟨s.regs, s.mep, rfl⟩

theorem State.raiseBits_frame (s : State) (f : Field) (i v : Nat) : ∃ r m, s.raiseBits f i v = { s with regs := r, mep := m } := by
  unfold State.raiseBits
  dsimp only
  obtain ⟨r, hr⟩ := s.setReg_frame f i (s.reg f i ||| v)
  rw [hr]
  split
  · obtain ⟨q, m, hq⟩ := State.serviceVector_frame _ _
    exact ⟨q, m, by rw [hq]⟩
  · exact ⟨r, s.mep, rfl⟩

theorem State.raise_frame (s : State) (f : Field) (i : Nat) : ∃ r m, s.raise f i = { s with regs := r, mep := m } :=
  s.raiseBits_frame ..

@[simp] theorem State.bump_sbd (s : State) (f : Field) (i : Nat) (a : Attr) : (s.bump f i a).sbd = s.sbd := by
  obtain ⟨r, h⟩ := s.bump_frame f i a; rw [h]
@[simp] theorem State.bumpBy_sbd (s : State) (f : Field) (i n : Nat) (a : Attr) : (s.bumpBy f i n a).sbd = s.sbd := by
  obtain ⟨r, h⟩ := s.bumpBy_frame f i n a; rw [h]
@[simp] theorem State.raise_sbd (s : State) (f : Field) (i : Nat) : (s.raise f i).sbd = s.sbd := by
  obtain ⟨r, m, h⟩ := s.raise_frame f i; rw [h]
@[simp] theorem State.raiseBits_sbd (s : State) (f : Field) (i v : Nat) : (s.raiseBits f i v).sbd = s.sbd := by
  obtain ⟨r, m, h⟩ := s.raiseBits_frame f i v; rw [h]

/-! ### Records: the recorder beside them -/

/-- `t` differs from `s` in registers, vectors and the recorder alone. -/
def State.recorded (s t : State) : Prop := ∃ r m e, t = { s with regs := r, mep := m, evr := e }

theorem State.recorded_refl (s : State) : s.recorded s := ⟨s.regs, s.mep, s.evr, rfl⟩

theorem State.recorded.trans {s t u : State} (h : s.recorded t) (k : t.recorded u) : s.recorded u := by
  obtain ⟨r, m, e, rfl⟩ := h
  obtain ⟨r', m', e', rfl⟩ := k
  exact ⟨r', m', e', rfl⟩

theorem State.recorded_evr (s : State) (e : Evr) : s.recorded { s with evr := e } := ⟨s.regs, s.mep, e, rfl⟩

theorem State.recorded_setReg (s : State) (f : Field) (i v : Nat) : s.recorded (s.setReg f i v) := by
  obtain ⟨r, h⟩ := s.setReg_frame f i v
  exact ⟨r, s.mep, s.evr, h⟩

theorem State.recorded_bumpBy (s : State) (f : Field) (i n : Nat) (a : Attr) : s.recorded (s.bumpBy f i n a) := by
  obtain ⟨r, h⟩ := s.bumpBy_frame f i n a
  exact ⟨r, s.mep, s.evr, h⟩

theorem State.recorded_raise (s : State) (f : Field) (i : Nat) : s.recorded (s.raise f i) := by
  obtain ⟨r, m, h⟩ := s.raise_frame f i
  exact ⟨r, m, s.evr, h⟩

theorem State.recorded_startFlush (s : State) (c : Nat) : s.recorded (s.startFlush c) := by
  unfold State.startFlush
  split
  · exact s.recorded_evr _
  · exact (s.recorded_evr _).trans (State.recorded_setReg _ _ _ _)

theorem State.recorded_flushSevere (s : State) (sev : Nat) : s.recorded (s.flushSevere sev) := by
  unfold State.flushSevere; split
  · exact (s.recorded_raise _ _).trans (State.recorded_startFlush _ _)
  · exact s.recorded_refl

theorem State.recorded_loseRecords (s : State) (lost : List Rec) : s.recorded (s.loseRecords lost) := by
  unfold State.loseRecords; split
  · exact s.recorded_refl
  · exact (s.recorded_evr _).trans ((State.recorded_bumpBy ..).trans (State.recorded_raise ..))

theorem State.recorded_spillRing (s : State) : s.recorded s.spillRing := by
  unfold State.spillRing; split
  · exact ((s.recorded_evr _).trans (State.recorded_bumpBy ..)).trans (State.recorded_loseRecords ..)
  · exact s.recorded_refl

theorem State.recorded_flushMarked (s : State) : s.recorded s.flushMarked := by
  unfold State.flushMarked; dsimp only; split
  · exact s.recorded_startFlush 4
  · exact s.recorded_refl

theorem State.recorded_loseRecord (s : State) (r : Rec) : s.recorded (s.loseRecord r) :=
  (s.recorded_evr _).trans ((State.recorded_bumpBy ..).trans (State.recorded_raise ..))

theorem State.putRec_frame (s : State) (r : Rec) : s.recorded (s.putRec r) := by
  unfold State.putRec
  refine (s.recorded_setReg EVR_SEQ_SEQ 0 (s.reg EVR_SEQ_SEQ + 1)).trans ?_
  dsimp only
  split
  · exact (State.recorded_evr _ _).trans ((State.recorded_bumpBy ..).trans ((State.recorded_flushSevere ..).trans
      ((State.recorded_spillRing _).trans (State.recorded_flushMarked _))))
  · exact State.recorded_loseRecord _ r

theorem State.reportLoss_frame (s : State) : s.recorded s.reportLoss := by
  unfold State.reportLoss
  split
  · exact ((s.recorded_evr _).trans (State.putRec_frame _ _)).trans (State.recorded_setReg _ _ _ _)
  · exact s.recorded_refl

/-- A record changes registers, vectors and the recorder alone. -/
theorem State.record_frame (s : State) (typ sev source : Nat) (body : List Byte) : s.recorded (s.record typ sev source body) :=
  s.reportLoss_frame.trans ((State.putRec_frame _ _).trans (State.reportLoss_frame _))

@[simp] theorem State.record_sbd (s : State) (typ sev source : Nat) (body : List Byte) : (s.record typ sev source body).sbd = s.sbd := by
  obtain ⟨r, m, e, h⟩ := s.record_frame typ sev source body; rw [h]

/-! ### Stores -/

theorem State.stagingWritten_sbd (s : State) : s.stagingWritten.sbd = s.sbd := by
  simp [State.stagingWritten, State.endVerified]

/-- A store changes its bytes and, in staging, what is known of the staged image. -/
theorem State.sbWrite_sbd (s : State) (a : Nat) (bs : List Byte) :
    (s.sbWrite a bs).sbd = { s.sbd with mem := Mem.writeAll a bs s.sbd.mem } := by
  unfold State.sbWrite
  dsimp only
  split
  · rw [State.stagingWritten_sbd]
  · rfl

end Sys2Proof.Machine
end

