-- ==== Sys2Proof/Laws/Net.lean ====
section
/-! SUPPORT. What metering, RED and the holding of cells leave alone: every connection. -/

namespace Sys2Proof.Machine

open Sys2Proof.Reg

theorem State.conn_of_ctx {s t : State} (h : t.ctx = s.ctx) (ci : Nat) : t.conn ci = s.conn ci := by
  unfold State.conn; rw [h]

@[simp] theorem State.bump_ctx (s : State) (f : Field) (i : Nat) (a : Attr) : (s.bump f i a).ctx = s.ctx := by
  obtain ⟨r, h⟩ := s.bump_frame f i a; rw [h]

@[simp] theorem State.raise_ctx (s : State) (f : Field) (i : Nat) : (s.raise f i).ctx = s.ctx := by
  obtain ⟨r, m, h⟩ := s.raise_frame f i; rw [h]

@[simp] theorem State.meter_ctx (s : State) (a : Attr) (u : Nat) (m : RxMeta) (n : Nat) :
    (s.meter a u m n).2.ctx = s.ctx := by
  unfold State.meter
  dsimp only
  (repeat' split) <;> simp

@[simp] theorem State.redDecide_ctx (s : State) (port acc : Nat) (egress : Bool) (col : Nat) :
    (s.redDecide port acc egress col).2.ctx = s.ctx := rfl

@[simp] theorem State.ingressRed_ctx (s : State) (m : RxMeta) (t : PktType) (k : Packet) (granted : Bool) (colour : Nat) :
    (s.ingressRed m t k granted colour).2.2.ctx = s.ctx := by
  unfold State.ingressRed
  split
  · rfl
  · dsimp only
    split
    · simp
    · simp
    · split <;> simp

@[simp] theorem State.setFill_ctx (s : State) (f : Nat) : (s.setFill f).ctx = s.ctx := by
  unfold State.setFill
  simp only [apply_ite State.ctx, State.raise_ctx, State.setReg_ctx, ite_self]

@[simp] theorem State.hold_ctx (s : State) (acc : Option Nat) (n : Nat) : (s.hold acc n).ctx = s.ctx := by
  unfold State.hold State.charge
  dsimp only
  split <;> simp

@[simp] theorem State.landPayload_ctx (s : State) (m : RxMeta) (n : Nat) : (s.landPayload m n).ctx = s.ctx := by
  unfold State.landPayload; split <;> simp

end Sys2Proof.Machine
end

