-- ==== Sys2Proof/Laws/Time.lean ====
section
/-! SUPPORT. What a line start does to the line count and the time, and what the scheduler may change at it. -/

namespace Sys2Proof.Machine

open Sys2Proof.Reg

/-- Nothing but registers and the scheduler differs. -/
def State.scheduled (s t : State) : Prop := ∃ r q, t = { s with regs := r, sch := q }

theorem State.scheduled_refl (s : State) : s.scheduled s := ⟨s.regs, s.sch, rfl⟩

theorem State.scheduled.trans {s t u : State} (h : s.scheduled t) (k : t.scheduled u) : s.scheduled u := by
  obtain ⟨r, q, rfl⟩ := h
  obtain ⟨r', q', rfl⟩ := k
  exact ⟨r', q', rfl⟩

theorem foldl_scheduled {α : Type} (g : State → α → State) (hg : ∀ (s : State) a, s.scheduled (g s a)) (l : List α) (s : State) :
    s.scheduled (l.foldl g s) := by
  induction l generalizing s with
  | nil => exact s.scheduled_refl
  | cons a l ih => exact (hg s a).trans (ih (g s a))

theorem State.gateActs_scheduled (s : State) (port e : Nat) : s.scheduled (s.gateActs port e) := by
  unfold State.gateActs
  split
  · exact ⟨_, s.sch, rfl⟩
  · exact s.scheduled_refl

/-- A scheduler's line start changes registers and the scheduler alone. -/
theorem State.schedulerLine_scheduled (s : State) : s.scheduled s.schedulerLine := by
  unfold State.schedulerLine
  split
  · refine State.scheduled.trans (t := s.refillPolicers) ⟨s.regs, _, rfl⟩ ?_
    refine State.scheduled.trans (t := s.refillPolicers.gatesAtLine) ?_ ?_
    · exact foldl_scheduled _ (fun s p => foldl_scheduled _ (fun s e => s.gateActs_scheduled p e) _ s) _ _
    · exact foldl_scheduled _ (fun s p => ⟨s.regs, _, rfl⟩) _ _
  · exact s.scheduled_refl

theorem State.recorded_rtu {s t : State} (h : s.recorded t) : t.rtu = s.rtu ∧ t.ns = s.ns := by
  obtain ⟨r, m, e, rfl⟩ := h; exact ⟨rfl, rfl⟩

theorem State.scheduled_rtu {s t : State} (h : s.scheduled t) : t.rtu = s.rtu ∧ t.ns = s.ns := by
  obtain ⟨r, q, rfl⟩ := h; exact ⟨rfl, rfl⟩

theorem State.recorded_enterRtu (s : State) (n : Nat) : s.recorded (s.enterRtu n) := by
  unfold State.enterRtu
  dsimp only
  split
  · exact s.recorded_refl
  · refine State.recorded.trans ?_ (State.record_frame _ _ _ _ _)
    refine (s.recorded_setReg RTU_STATUS_STATE 0 n).trans ?_
    split
    · exact State.recorded_raise _ _ _
    · split
      · exact State.recorded_raise _ _ _
      · split
        · exact State.recorded_raise _ _ _
        · exact State.recorded_refl _

@[simp] theorem State.bump_rtu (s : State) (f : Field) (i : Nat) (a : Attr) : (s.bump f i a).rtu = s.rtu := by
  obtain ⟨r, h⟩ := s.bump_frame f i a; rw [h]

@[simp] theorem State.bump_ns (s : State) (f : Field) (i : Nat) (a : Attr) : (s.bump f i a).ns = s.ns := by
  obtain ⟨r, h⟩ := s.bump_frame f i a; rw [h]

@[simp] theorem State.enterRtu_rtu (s : State) (n : Nat) : (s.enterRtu n).rtu = s.rtu :=
  (State.recorded_rtu (s.recorded_enterRtu n)).1

@[simp] theorem State.enterRtu_ns (s : State) (n : Nat) : (s.enterRtu n).ns = s.ns :=
  (State.recorded_rtu (s.recorded_enterRtu n)).2

/-- A line begins: its start is the time given, its boundary has not run, and it keeps its number. -/
theorem State.beginLine_time (s : State) (t : Nat) :
    (s.beginLine t).rtu.line = s.rtu.line ∧ (s.beginLine t).rtu.cycle = s.rtu.cycle ∧ (s.beginLine t).rtu.lineStart = t ∧
      (s.beginLine t).rtu.boundaryDone = false ∧ (s.beginLine t).ns = s.ns := by
  unfold State.beginLine
  simp [State.setPhase, apply_ite State.rtu, apply_ite State.ns]

/-- The line event of a line that is no boundary counts, and nothing else happens at the end of a line start. -/
theorem State.lineCounted_rtu (s : State) :
    (if s.atBoundary then s else s.countEverywhere 0x41).rtu = s.rtu ∧
      (if s.atBoundary then s else s.countEverywhere 0x41).ns = s.ns := by
  split
  · exact ⟨rfl, rfl⟩
  · obtain ⟨r, h⟩ := foldl_frame (fun (s : State) b => s.pmcCount b 0x41 1 {}) (fun s b => s.pmcCount_frame _ _ _ _) (List.range 22) s
    unfold State.countEverywhere
    rw [h]; exact ⟨rfl, rfl⟩

theorem State.lineScheduled_time (s : State) (t : Nat) :
    let u := (s.beginLine t).schedulerLine
    let v := if u.atBoundary then u else u.countEverywhere 0x41
    v.rtu.line = s.rtu.line ∧ v.rtu.cycle = s.rtu.cycle ∧ v.rtu.lineStart = t ∧ v.rtu.boundaryDone = false ∧ v.ns = s.ns := by
  intro u v
  have hb := s.beginLine_time t
  have hs := State.scheduled_rtu (State.schedulerLine_scheduled (s.beginLine t))
  have hv := u.lineCounted_rtu
  have e : v.rtu = (s.beginLine t).rtu := hv.1.trans hs.1
  have n : v.ns = (s.beginLine t).ns := hv.2.trans hs.2
  rw [e, n]; exact hb

/-- A line start: the number given, the time of the last line's end, and a boundary that has not run (R28). -/
theorem State.startLine_time (s : State) (cycle line : Nat) :
    let t := s.startLine cycle line
    t.rtu.line = line ∧ t.rtu.cycle = cycle ∧ t.rtu.lineStart = s.lineEnd ∧ t.rtu.boundaryDone = false ∧
      t.ns = max s.ns s.lineEnd :=
  State.lineScheduled_time { s.advanceTo s.lineEnd with rtu := { s.rtu with cycle := cycle, line := line } } s.lineEnd

end Sys2Proof.Machine
end

