-- ==== Sys2Proof/Tests/Slice0.lean ====
section
/-! SUPPORT. The model's own tests: what the checks of operands refuse, words and results written out from the spec's tables,
and, for each obligation with hypotheses, states and operands that meet them. -/

namespace Sys2Proof.Tests

open Sys2Proof Sys2Proof.Machine Sys2Proof.Reg

-- one test after the other: side by side they would ask for a thread each
set_option Elab.async false

/-- The state after reset with register fields at given values: field, instance, value. -/
def with' (rs : List (Field × Nat × Nat)) : State := rs.foldl (fun s r => s.setReg r.1 r.2.1 r.2.2) State.reset

/-- What a write of word `w` at address `a` meets, where the path may make it: `q` holds of the register found. -/
def found (s : State) (p : Path) (wr : Bool) (a : Nat) (q : RegAt → Bool) : Bool :=
  match s.access p wr a 4 with
  | .ok ra => q ra
  | _ => false

theorem found_some {s : State} {p : Path} {wr : Bool} {a : Nat} {q : RegAt → Bool} (h : found s p wr a q = true) :
    ∃ ra, s.access p wr a 4 = .ok ra ∧ q ra = true := by
  unfold found at h
  split at h
  · next ra e => exact ⟨ra, e, h⟩
  · cases h

/-- A word of each class: RTU_EPOCH (L) unlocked and locked, RTU_DIV (I) stopped and running, RTU_STATUS (S), CFG_COMMITS (K). -/
theorem witness_RegisterWriteFollowsItsClass :
    let q (c : RegClass) (ra : RegAt) : Bool := reservedBits ra.reg ra.off 1 == 0 && !writesC ra && wordClass ra.reg ra.off == c
    let locked := with' [(CFG_STATUS_SEALED, 0, 1)]
    let runs := State.reset.setRuns bRTU true
    (∃ ra, State.reset.access .bar0 true RTU_EPOCH_K.addr 4 = .ok ra ∧ q .L ra = true) ∧
      (∃ ra, locked.access .bar0 true RTU_EPOCH_K.addr 4 = .ok ra ∧ q .L ra = true) ∧
      (∃ ra, State.reset.access .bureau true RTU_DIV_M_M1.addr 4 = .ok ra ∧ q .I ra = true) ∧
      (∃ ra, runs.access .bureau true RTU_DIV_M_M1.addr 4 = .ok ra ∧ q .I ra = true) ∧
      (∃ ra, State.reset.access .bar0 true RTU_STATUS_STATE.addr 4 = .ok ra ∧ q .S ra = true) ∧
      (∃ ra, State.reset.access .bar0 true CFG_COMMITS.addr 4 = .ok ra ∧ q .K ra = true) ∧
      State.reset.takes = true ∧ locked.flag CFG_STATUS_SEALED = true ∧ runs.instRuns bRTU 0 = true ∧ State.reset.instRuns bRTU 0 = false :=
  ⟨found_some (by decide +kernel), found_some (by decide +kernel), found_some (by decide +kernel), found_some (by decide +kernel),
    found_some (by decide +kernel), found_some (by decide +kernel), by decide +kernel⟩

/-- An event register, a counter and a latching register. -/
theorem witness_ClearOnWriteAndReadThenCoincide :
    (∃ ra, State.reset.access .bar0 true RTU_EVENT_GLITCH.addr 4 = .ok ra ∧ findReg RTU_EVENT_GLITCH.addr = some ra ∧
      reservedBits ra.reg ra.off 8 = 0 ∧ writesC ra = true ∧
      State.reset.commandWrite .bar0 (pathOwner .bar0) RTU_EVENT_GLITCH.addr ra 8 = none) ∧
    (∃ ra, State.reset.access .bar0 false RTU_GLITCHES.addr 4 = .ok ra ∧ findReg RTU_GLITCHES.addr = some ra ∧
      ra.reg.addr ≠ EVR_WINDOW_DATA.addr ∧ latching.contains (ra.reg.addr, ra.off) = false ∧ ra.off < 4) ∧
    (∃ ra, State.reset.access .bar0 false RTU_NOW_TIME.addr 4 = .ok ra ∧ ra.reg.addr ≠ EVR_WINDOW_DATA.addr ∧
      latching.contains (ra.reg.addr, ra.off) = true) :=
  ⟨⟨_, rfl, rfl, by decide +kernel, by decide +kernel, rfl⟩, ⟨_, rfl, rfl, by decide +kernel⟩, ⟨_, rfl, by decide +kernel⟩⟩
/-- A unit that is ready to start, one that runs free and unused, one that CAB uses. -/
theorem witness_ReferenceTimeStartsAndStops :
    let ready := with' [(MEP_CTRL_CFG_READY, 0, 1), (RTU_SRC_SRC, 0, 2)]
    let free := with' [(RTU_STATUS_STATE, 0, rtuFree)]
    let used := free.setRuns bCAB true
    (ready.takes = true ∧ ready.mayWrite .bar0 RTU_CMD_START.addr = true ∧ ready.reg RTU_STATUS_STATE = rtuStopped ∧
      ready.inRecovery = false ∧ ready.flag MEP_CTRL_CFG_READY = true ∧ ready.top.clocksLost.contains 0 = false ∧
      ready.reg RTU_SRC_SRC ≠ 3 ∧ cycleInRange (ready.reg RTU_NOMPER_PERIOD) ready.rtuM ready.rtuD = true ∧
      epochInRange (ready.reg RTU_NOMPER_PERIOD) ready.rtuM ready.rtuD (ready.reg RTU_EPOCH_K) = true) ∧
    (free.mayWrite .bureau RTU_CMD_START.addr = true ∧ free.reg RTU_STATUS_STATE ≠ rtuStopped ∧ rtuUsers.any free.runs = false) ∧
    (used.mayWrite .bar0 RTU_CMD_START.addr = true ∧ used.reg RTU_STATUS_STATE ≠ rtuStopped ∧ rtuUsers.any used.runs = true) := by
  decide +kernel

/-- A LOCKED unit whose last edge lies one nominal period before the one that comes: it qualifies; a later one does not. -/
def lockedRtu (src : Nat) : State :=
  { with' [(RTU_STATUS_STATE, 0, rtuLocked), (RTU_SRC_SRC, 0, src), (RTU_PTP_PERIOD_PERIOD, 0, 8333333)] with
    rtu := { prevEdge := some 0, prevQual := some 0, expected := some 546133333333, boundaryDone := true } }

theorem witness_QualifiedEdgesSteerThePeriod :
    (lockedRtu 0).takes = true ∧ (lockedRtu 0).regs.rising ∧ (lockedRtu 0).reg RTU_STATUS_STATE = rtuLocked ∧
      (lockedRtu 0).reg RTU_SRC_SRC = 0 ∧ (lockedRtu 1).reg RTU_SRC_SRC = 1 ∧
      ((lockedRtu 0).advanceTo 8333333).edgeQualifies 8333333 = true ∧
      ((lockedRtu 0).advanceTo 4000000).edgeQualifies 4000000 = false ∧
      ((lockedRtu 1).advanceTo 8333333).edgeQualifies 8333333 = true ∧
      (lockedRtu 0).rtu.expected = some 546133333333 ∧ ((lockedRtu 0).advanceTo 8333333).rtu.prevQual = some 0 ∧ ((lockedRtu 0).advanceTo 8333333).rtu.missedSince = false := by
  unfold RegFile.rising; decide +kernel

theorem witness_PtpMessagesAndLosses :
    (State.reset.takes = true ∧ State.reset.reg RTU_PTP_CFG_LPORT = 0 ∧ State.reset.reg RTU_PTP_CFG_DOMAIN = 0 ∧
        State.reset.reg RTU_PTP_CFG_TRANSPORT = 0) ∧
      ((lockedRtu 1).reg RTU_SRC_SRC = 1 ∧ (lockedRtu 1).reg RTU_STATUS_STATE = rtuLocked) ∧
      ((lockedRtu 0).rtu.expected = some 546133333333 ∧ (lockedRtu 0).reg RTU_STATUS_STATE = rtuLocked) := by
  decide +kernel

/-- Lines run at a line of cycle 1 whose boundary, where it has one, has run or not; epochs are of eight lines. -/
def freeAt (line : Nat) (done : Bool) : State :=
  { with' [(RTU_STATUS_STATE, 0, rtuFree)] with rtu := { cycle := 1, line := line, lineTicks := 2000, boundaryDone := done } }

theorem witness_LinesAndEpochsAdvance :
    ((freeAt 8 true).takes = true ∧ (freeAt 8 true).mayStartLine = true ∧ (freeAt 8 true).rtu.line < 4095) ∧
      ((freeAt 4095 false).takes = true ∧ (freeAt 4095 false).mayStartLine = true ∧ (freeAt 4095 false).rtu.line = 4095) ∧
      ((freeAt 8 false).held = false ∧ (freeAt 8 false).boundaryOwed = true ∧ (freeAt 8 false).regs.rising) ∧
      State.reset.mayStartLine = false := by
  unfold RegFile.rising; decide +kernel
/-- A commit under number 1, its check of a pending copy that breaks no rule, and of one whose epoch is too long. -/
def checked (pend : SMap Nat) : State :=
  let s := with' [(CFG_STATUS_CHECKING, 0, 1)]
  { s with cfg := { s.cfg with checking := some 1 }, regs := { s.regs with pend := pend } }

theorem witness_CommitChecksTheWholePendingCopy :
    (State.reset.takes = true ∧ State.reset.mayWrite .bar0 CFG_COMMIT_GEN.addr = true ∧ State.reset.genIdle = true ∧
      State.reset.reg CFG_GEN_CURRENT_GEN < 1) ∧
      ((checked []).cfg.checking = some 1 ∧ (checked []).commitCheck = none) ∧
      (checked [(RTU_EPOCH_K.key 0, 15)]).cfg.checking = some 1 ∧
      (checked [(RTU_EPOCH_K.key 0, 15)]).commitCheck = some (1, 0) := by
  decide +kernel

theorem witness_RollbackDiscardAndErrorLog :
    let s := with' [(CFG_STATUS_PREV_VALID, 0, 1)]
    (s.takes = true ∧ s.mayWrite .bar0 CFG_CTRL_ROLLBACK.addr = true ∧ s.flag CFG_STATUS_PREV_VALID = true ∧ s.genIdle = true) ∧
      (with' [(CFG_STATUS_SEALED, 0, 1)]).genIdle = false ∧ s.mayWrite .bar0 (CFG_VIEW_VIEW.addr + 4 * 2) = true ∧
      s.mayWrite .bureau CFG_ERRLOG_POP_POP.addr = true := by
  decide +kernel

/-- A ring whose generation slot is owed, a restore that runs with no slot and with one that qualifies. -/
theorem witness_GenerationAreaWritesAndRestore :
    let s : State := { ({} : State) with ldg := { ringA := some { drawer := 5, genDue := true } }, cfg := { restoring := true } }
    s.takes = true ∧ s.ringOn 5 = some { drawer := 5, genDue := true } ∧
      (s.persistDone 5 true).ringOn 5 = some { drawer := 5, genDue := true } ∧ (s.persistDone 47 true).ringOn 47 = none ∧
      s.cfg.restoring = true ∧ bestSlot (s.restoreSlots []) = none ∧
      (let u := s.setReg DRV_STATE_STATE 5 4
       u.cfg.restoring = true ∧ bestSlot (u.restoreSlots [{ drawer := 5, sealed := true, crcOk := true }]) =
         some { drawer := 5, sealed := true, crcOk := true }) := by
  decide +kernel
/-- An active part with port 0 running, whose connection 5 is OPEN and cached, at working cycle `cycle`. -/
def serving (c : Conn) (cycle : Nat) (rs : List (Field × Nat × Nat)) : State :=
  { with' ([(NLT_RUN_RUN, 0, 1), (HNG_STATUS_ROLE, 0, 1), (NLT_UDP_V4, 0, 1), (NLT_ADDR4_ADDR, 0, 7)] ++ rs) with
    ctx := { conns := [(5, { c with id := 5 })] }, rtu := { cycle := cycle } }

/-- A packet with its HCHK and trailer. -/
def sent (t : PktType) (k : Packet) : Packet :=
  let k := { k with hchk := headCheck t k }
  { k with crc := trailer t k }

/-- What AcceptedPacketsAct asks of a state and a packet for connection 5 before the rows by type. -/
def accepts (s : State) (t : PktType) (k : Packet) : Bool :=
  let u := s.bump NLT_RX_PKTS 0 (s.pktAttr {} k.conn)
  let w := (u.bump CTX_HITS 0 (s.conn 5).attr).touchConn 5
  s.takes && rxWf {} k && s.portRuns 0 && decide (s.pair ≠ pairFENCED) && decide (frameLength {} k ≤ macLimit) &&
    decide (9417 = s.reg NLT_UDP_DPORT) && s.flag NLT_UDP_V4 && u.isActive && decide (u.findConn k.conn = some (5, s.conn 5)) &&
    (s.conn 5).known && decide ((s.conn 5).cache = .cached) && !u.hasParked 5 && !Packet.has k flagTag && !(w.conn 5).gcm &&
    headerLegal t k && decide (k.hchk = headCheck t k) && decide (k.crc = trailer t k)

/-- What it asks of a packet that takes a PSN. -/
def takesPsn (s : State) (t : PktType) (k : Packet) : Bool :=
  let w := ((s.bump NLT_RX_PKTS 0 (s.pktAttr {} k.conn)).bump CTX_HITS 0 (s.conn 5).attr).touchConn 5
  let x := w.meter (w.conn 5).attr (w.conn 5).sub {} (Packet.length k)
  let cells := if t = .data then 0 else cellsOf k.plen
  accepts s t k && decide ((w.conn 5).rx.psnPlace k.psn = .fresh) && !x.2.staleTag (w.conn 5).id k.msgid &&
    (decide (t ≠ .data) || decide (x.2.dataNak (w.conn 5) k = none)) &&
    (cells == 0 || x.2.arrivalFits (accountOf 0 0) cells) && decide (x.1 ≠ 2) && !(x.2.ingressRed {} t k (t == .data) x.1).1

/-- A grant of one block that connection 5 may fill. -/
def granted (s : State) : State :=
  { s with ctx := { s.ctx with grants := [(3, { isOpen := true, conn := 5, msgid := 9, len := 4096, total := 4096 })] } }

def openConn : State := serving { state := cOPEN } 0 []

def grantedConn : State := granted openConn

def ackPkt : Packet := sent .ack { conn := 5 }
def cmdPkt : Packet := sent .cmd { conn := 5, psn := 255 }
def nakPkt : Packet := sent .nak { conn := 5, code := 1 }
def flushPkt : Packet := sent .flush { conn := 5, code := 1 }
def closePkt : Packet := sent .ctrl { conn := 5, code := 7 }
def mgmtPkt : Packet := sent .mgmt { conn := 5, code := 2 }
def dataPkt : Packet := sent .data { conn := 5, msgid := 9, key := 2147483651, plen := 2, payload := [1, 2] }

theorem witness_AcceptedPacketsAct :
    (accepts openConn .ack ackPkt = true ∧ accepts openConn .nak nakPkt = true ∧ openConn.staleTag 5 nakPkt.msgid = false) ∧
      takesPsn openConn .cmd cmdPkt = true ∧ takesPsn grantedConn .data dataPkt = true ∧ takesPsn openConn .flush flushPkt = true ∧
      (closePkt.conn ≠ 0 ∧ ctrlLegal closePkt = true ∧ takesPsn openConn .ctrl closePkt = true) ∧
      takesPsn openConn .mgmt mgmtPkt = true := by
  decide +kernel

theorem witness_ConnectionTimersAct :
    (openConn.takes = true ∧ openConn.findConn 5 = some (5, { id := 5, state := cOPEN }) ∧ ({ state := cOPEN } : Conn).known = true) ∧
      (serving { state := cSETUP } 100000 []).setupCycles ≤ 100000 - 0 ∧ (serving { state := cOPEN } 100000 []).liveLimit < 100000 - 0 ∧
      (serving { state := cQUARANTINE } 100000 []).findConn 5 = some (5, { id := 5, state := cQUARANTINE }) ∧
      (serving { state := cQUARANTINE } 100000 []).mayFree { id := 5, state := cQUARANTINE } = true ∧
      ((serving { state := cOPEN, cache := .fetching } 0 []).conn (5 % 2 ^ 18)).cache = .fetching ∧
      SMap.find (serving { state := cOPEN, cache := .writing } 0 []).ctx.conns (5 % 2 ^ 18) = some { id := 5, state := cOPEN, cache := .writing } ∧
      openConn.portSends 0 = true := by
  decide +kernel

/-- An arrival that waits for its ACK, a bypass packet and a queued CMPL that a port's scheduler picks. -/
theorem witness_TransmitOpportunities :
    let late : Conn := { id := 5, state := cOPEN, rx := { oldest := some 100 } }
    let b : State := { openConn with nlt := { txq := [{ typ := .ack, ci := some 5 }] } }
    let paced : Conn := { state := cOPEN, tx := { tokens := 1000000, rate := 100000 } }
    let q : State := { serving paced 0 [] with nlt := { txq := [{ typ := .cmpl, ci := some 5 }] } }
    let r := q.syncRounds 0
    let hs := r.heads 0
    let u := r.bumpBy SCH_GUARD_HOLDS 0 (hs.filter fun o => r.headState o == .guard).length {}
    ((serving late 0 []).findConn 5 = some (5, late) ∧ late.rx.oldest = some 100) ∧
      b.nlt.txq.find? (fun o => decide (o.port = 0) && o.bypass && b.cipherRoom o) = some { typ := .ack, ci := some 5 } ∧
      (q.nlt.txq.find? (fun o => decide (o.port = 0) && o.bypass && q.cipherRoom o) = none ∧ r.portOpen 0 = true ∧
        (u.pickPacket 0 (hs.filter fun o => u.headState o == .ready && u.onDie o.cells && u.cipherRoom o)).map (fun x => x.1.ci) =
          some (some 5)) := by
  decide +kernel

theorem witness_PortsStartStopAndGoDown :
    let ready := with' [(CFG_BLKRUN_RUN, 0, 2 ^ bCAB + 2 ^ bSCH), (NLT_ADDR4_ADDR, 31, 9), (NLT_ADDR4_ADDR, 0, 9)]
    let run := openConn
    let flushing : State := { run with nlt := { flushing := [0] } }
    let faulty : State := { with' [(NLT_RUN_RUN, 0, 1), (CAB_PORTFILL_HOLDING, 0, 1)] with cab := { faultAt := [(0, 500)] } }
    (ready.takes = true ∧ ready.mayWrite .bar0 (nltCmdAddr 0) = true ∧ ready.flag NLT_RUN_STOPPING 0 = false ∧
      ready.portRuns 0 = false ∧ ready.inRecovery = false ∧ ready.runs bCAB = true ∧ ready.runs bSCH = true ∧
      ready.portInUse 0 = true ∧ ready.reg NLT_ADDR4_ADDR 0 ≠ 0) ∧
      (run.mayWrite .bar0 (nltCmdAddr 0) = true ∧ run.portRuns 0 = true) ∧ flushing.nlt.flushing.contains 0 = true ∧
      (SMap.find run.cab.faultAt 0 = none ∧ run.portRuns 0 = true) ∧
      ((SMap.find faulty.cab.faultAt 0).isSome = true ∧ faulty.flag CAB_PORTFILL_HOLDING 0 = true ∧ faulty.holdOver 0 = false ∧ faulty.portRuns 0 = true ∧
        SMap.find faulty.cab.faultAt 0 = some 500) := by
  decide +kernel
def connectPkt : Packet := sent .ctrl { conn := 0, code := 1 }

theorem witness_ConnectionCommandsAct :
    (openConn.takes = true ∧ openConn.mayWrite .bar0 CTX_CMD_OP.addr = true ∧ openConn.findConn 5 = some (5, { id := 5, state := cOPEN }) ∧
      ({ id := 5, state := cOPEN } : Conn).known = true ∧ ({ id := 5, state := cOPEN } : Conn).pin = false ∧ ({ id := 5, state := cOPEN } : Conn).closeSent = false ∧
      ((serving { state := cOPEN } 0 [(CTX_PIN_LIMIT_LIMIT, 0, 1)]).ctx.conns.filter fun e => e.2.pin).length <
        (serving { state := cOPEN } 0 [(CTX_PIN_LIMIT_LIMIT, 0, 1)]).pinLimit) ∧
      (rxWf {} connectPkt = true ∧ connectPkt.conn = 0 ∧ openConn.portRuns 0 = true ∧ openConn.pair ≠ pairFENCED ∧
        frameLength {} connectPkt ≤ macLimit ∧ 9417 = openConn.reg NLT_UDP_DPORT ∧ openConn.flag NLT_UDP_V4 = true ∧ (openConn.bump NLT_RX_PKTS).isActive = true ∧
        headerLegal .ctrl connectPkt = true ∧ ctrlLegal connectPkt = true ∧ connectPkt.hchk = headCheck .ctrl connectPkt ∧
        connectPkt.crc = trailer .ctrl connectPkt ∧
        (openConn.bump NLT_RX_PKTS).arrivalFits (accountOf 0 0) (cellsOf connectPkt.plen) = true) ∧
      (openConn.isActive = true ∧ openConn.portRuns 0 = true ∧ openConn.reg NLT_ADDR4_ADDR 0 = 7) := by
  decide +kernel
/-- A capsule of an opcode at the front of connection 5's inbox. -/
def delivered (op : Nat) : Delivered := { conn := 5, msgid := 1, csn := 0, capsule := BitVec.ofNat 8 op :: List.replicate 63 0 }

def inbox (op : Nat) (rs : List (Field × Nat × Nat)) : State :=
  { serving { state := cOPEN } 0 rs with cmd := { inbox := [delivered op] } }

/-- What DeliveredCommandsAreDispatched asks before the row's own checks. -/
def deliverable (s : State) (op : Nat) : Bool :=
  s.takes && !s.tagInUse (delivered op) && decide (s.inboxHead 5 = some (delivered op)) && decide (capField (delivered op).capsule 0 1 = op) && s.dispatches &&
    decide (s.findConn 5 = some (5, { id := 5, state := cOPEN })) && decide (s.freeFrame = some 0) &&
    decide (0 < min 65536 (max 1 (s.reg CMD_LIMITS_CONN_MAX)))

theorem witness_DeliveredCommandsAreDispatched :
    let s := inbox opKEEPALIVE []
    let u := inbox 0xBF [(BNC_HANDLER_VALID, 0xBF, 1)]
    let c : Cmd := { conn := 5, msgid := 1, opcode := opKEEPALIVE, capsule := (delivered opKEEPALIVE).capsule, phase := .fenced,
                     slot := builtinSlot }
    let twice : State := { s with cmd := { s.cmd with frames := [(0, { conn := 5, msgid := 1 })] } }
    (twice.takes = true ∧ twice.inboxHead 5 = some (delivered opKEEPALIVE) ∧ twice.dispatches = true ∧
      twice.findConn 5 = some (5, { id := 5, state := cOPEN }) ∧ twice.tagInUse (delivered opKEEPALIVE) = true) ∧
    deliverable s opKEEPALIVE = true ∧ c.fence = false ∧ isUserOp opKEEPALIVE = false ∧
      (∃ r, opRow opKEEPALIVE = some r ∧ s.dispatchChecks c r = none) ∧ deliverable u 0xBF = true ∧ isUserOp 0xBF = true ∧
      u.bound 0xBF = true ∧ (u.updConn 5 fun k => { k with inflight := k.inflight + 1 }).bound 0xBF = true :=
  ⟨by decide +kernel, by decide +kernel, by decide +kernel, by decide +kernel, ⟨_, rfl, by decide +kernel⟩, by decide +kernel,
    by decide +kernel, by decide +kernel, by decide +kernel⟩

/-- A frame whose command stands in a phase, with a ticket 2. -/
def framed (p : CmdPhase) (slot : Nat) (k : Ticket) (cycle : Nat) : State :=
  { ({} : State) with cmd := { frames := [(3, { phase := p, slot := slot, tickets := [(2, k)] })] }, rtu := { cycle := cycle } }

theorem witness_HandlersStartResumeAndFinish :
    let q := framed .queued builtinSlot {} 0
    let im : State := { framed .queued 33 {} 0 with bnc := { images := [(33, { user := true, entries := [(8, false)] })] } }
    let c (p : CmdPhase) (slot : Nat) (k : Ticket) : Cmd := { phase := p, slot := slot, tickets := [(2, k)] }
    let g : Grant := { isOpen := true, owner := 3 }
    let open' : State := { framed .queued 33 {} 100000 with ctx := { grants := [(131071, g)] } }
    (q.takes = true ∧ q.frame 3 = some (c .queued builtinSlot {}) ∧ q.firstQueued 3 (c .queued builtinSlot {}) = true ∧
      q.threadFree 511 = true ∧ q.noThread = false) ∧
      (im.frame 3 = some (c .queued 33 {}) ∧ SMap.find (im.bump BNC_DISPATCHES).bnc.images 33 = some { user := true, entries := [(8, false)] }) ∧
      ((framed (.parked 4) builtinSlot { done := some 0 } 0).frame 3 = some (c (.parked 4) builtinSlot { done := some 0 }) ∧
        (framed (.parked 4) builtinSlot { done := some 0 } 0).allDone 3 4 = true) ∧
      ((framed .queued 33 { ready := some 7 } 0).ticket 3 2 = some { ready := some 7 }) ∧
      ((framed .queued 33 { req := .track } 0).ticket 3 2 = some { req := .track } ∧
        (framed .queued 33 { req := .track } 0).trackFree 3 = true) ∧
      ((framed .queued 33 { req := .filled 1 0 4096 } 0).ticket 3 2 = some { req := .filled 1 0 4096 } ∧
        (framed .queued 33 { req := .filled 1 0 4096 } 0).isFilled 1 0 4096 = true) ∧
      (SMap.find open'.ctx.grants 131071 = some g ∧ max 1 (open'.reg CMD_GRANT_TIMEOUT) ≤ 100000 - g.lastCycle) ∧
      (open'.wall ≤ 100000 - 0 ∧ (c .queued 33 {}).comp = none) ∧
      (framed (.running 511) 63 {} 100000).frame 3 = some (c (.running 511) 63 {}) := by
  decide +kernel

theorem witness_ImagesLoadAndUnload :
    let loading : State := { ({} : State) with bnc := { loading := some (33, 0x100000000) } }
    (State.reset.takes = true ∧ State.reset.mayWrite .bar0 BNC_LOAD_CMD_OP.addr = true ∧ State.reset.flag BNC_LOAD_STATUS_BUSY = false ∧
      State.reset.reg BNC_SLOT_STATE_STATE 63 = slotEmpty ∧ State.reset.slotInUse 32 = false) ∧
      (loading.bnc.loading = some (33, 0x100000000) ∧ loading.checkImage 33 0x100000000 = (1, none)) := by
  decide +kernel
/-- A thread of the Bureau at address 0 of its code, with general registers and control registers. -/
def bureauThread (g csr : SMap DWord) (k : SMap Ticket) : State :=
  { ({} : State) with bnc := { threads := [(512, { g := g, csr := csr, tickets := k })] } }

/-- A command in frame 3 on Bench thread 0, in the image of a slot, with tickets and an argument block at 64. -/
def benchThread (slot : Nat) (g : SMap DWord) (block : List Byte) (k : SMap Ticket) (c : Cmd) : State :=
  let th : Thread := { frame := some 3, g := g }
  { ({} : State) with
    bnc := { threads := [(0, th.storeLocal 64 block)], images := [(slot, { user := slot == 33, code := [0, 0, 0], dataLen := 4096 })] }
    cmd := { frames := [(3, { c with phase := .running 0, slot := slot, tickets := k })] } }

def aluOps : List AluOp :=
  [.add, .sub, .and, .or, .xor, .andn, .shl, .shr, .sar, .mul, .mulhu, .seq, .sne, .slt, .sltu, .sel]

theorem witness_AluResults :
    let s := bureauThread [(1, 5)] [] []
    s.takes = true ∧ (aluOps.all fun op => s.issues 512 (.alu op 31 1 31)) = true ∧ s.issues 512 (.alu .clz 31 1 0) = true ∧
      s.issues 512 (.alu .popc 0 31 0) = true := by
  decide +kernel

theorem witness_ImmediateResults :
    let s := benchThread 33 [(1, 5)] [] [] {}
    (s.takes = true) ∧ ([ImmOp.addi, .andi, .ori, .xori, .seqi, .slti, .sltiu, .seth0, .seth1, .seth2, .seth3].all fun op =>
      s.issues 0 (.imm op 31 1 (65535#16).toNat)) = true ∧
      ([ImmOp.shli, .shri, .sari].all fun op => s.issues 0 (.imm op 31 1 (63#16).toNat)) = true := by
  decide +kernel

theorem witness_BranchesAndJumps :
    let s := benchThread 1 [(1, 8)] [] [] {}
    s.takes = true ∧ s.starts 0 (.branch .bz 31 (0x80000#20).toNat) = true ∧ s.starts 0 (.branch .bnz 1 2) = true ∧
      s.starts 0 (.branch .jal 1 (0xFFFFF#20).toNat) = true ∧ s.starts 0 (.jalr 1 1) = true := by
  decide +kernel

/-- One address for each clause, in g1: misaligned, at the edges of local memory and of the Sideboard, a register. -/
theorem witness_LoadsAndStores :
    let s (a : DWord) := bureauThread [(1, a)] [] []
    let b (a : DWord) := benchThread 1 [(1, a)] [] [] {}
    let lives (s : State) (t a sp w : Nat) : Bool := s.takes && (MemOp.legal .loads sp w == false || s.issues t (.mem .loads 2 1 sp w 0)) &&
      s.issues t (.mem .load 2 1 sp w 0) && s.issues t (.mem .store 2 1 sp w 0) &&
      ((s.thread t).rg 1 + (0 : BitVec 12).signExtend 64).toNat == a
    let reaches (s : State) (t a n : Nat) : Bool := let u := s.countIssue t
      u.sbTarget t a n == some a && !u.isLockWindow t a && !u.seatMasked t a && !u.storeStalls (sbCode t) a
    lives (s 9) 512 9 0 3 = true ∧ (9 : Nat) % 2 ^ 3 ≠ 0 ∧ lives (s 0x100000) 512 (localSize 512) 0 3 = true ∧
      (lives (s 0xC00000000) 512 (48 * 2 ^ 30) 1 3 = true ∧ ((s 0xC00000000).countIssue 512).profileOf 512 ≠ .user) ∧
      (lives (b 8184) 0 8184 0 3 = true ∧ 8184 < localSize 0) ∧ (lives (b 63) 0 63 0 0 = true) ∧
      (lives (s 0xBFFFFFFF8) 512 0xBFFFFFFF8 1 3 = true ∧ reaches (s 0xBFFFFFFF8) 512 0xBFFFFFFF8 8 = true) ∧
      lives (s 0x100040) 512 0x100040 3 2 = true ∧
      ((s 0).issues 512 (.mem .aadd 2 1 1 3 0) = true ∧ reaches (s 0) 512 0 8 = true ∧ (s 4).issues 512 (.mem .aadd 2 1 1 3 0) = true) := by
  decide +kernel

theorem witness_ThreadControlActs :
    let s := benchThread 33 [(1, 64), (2, 3), (3, 8), (4, 7)] [] [(3, { done := some 7 }), (4, {}), (5, { detached := true })] {}
    let u := s.countIssue 0
    let k (n : DWord) := (benchThread 33 [(1, n)] [] [(3, { done := some 7 }), (4, {}), (5, { detached := true })] {}).countIssue 0
    (s.takes = true ∧ s.issues 0 (.wait 31 1) = true ∧ s.issues 0 (.park 31) = true ∧ s.issues 0 (.drop 1) = true ∧
      s.starts 0 .endThread = true ∧ s.issues 0 (.rdtime 1) = true ∧ s.issues 0 (.rdc 1 15) = true ∧ s.issues 0 .mfence = true) ∧
      (64 ≤ ((s.thread 0).rg 1).toNat ∧ u.ticket 3 63 = none ∧ u.ticket 3 5 = some { detached := true } ∧
        u.ticket 3 3 = some { done := some 7 } ∧ u.ticket 3 4 = some {}) ∧
      ((maskTickets 8).all (fun n => (u.namedTicket 3 n).isSome) = true ∧ (u.fenceStores (sbCode 0)).allDone 3 8 = true ∧
        (maskTickets 16).all (fun n => (u.namedTicket 3 n).isSome) = true ∧ (u.fenceStores (sbCode 0)).allDone 3 16 = false ∧
        (maskTickets 7).all (fun n => (u.namedTicket 3 n).isSome) = false) ∧
      ((k 3).namedTicket 3 3 = some { done := some 7 } ∧ (k 4).namedTicket 3 4 = some {} ∧ (k 5).namedTicket 3 5 = none) ∧
      ((u.frame 3).bind (·.comp)) = none ∧
      ((((benchThread 33 [] [] [] { comp := some {} }).countIssue 0).frame 3).bind (·.comp)).isSome = true ∧
      (u.threadCmd 0).isSome = true := by
  decide +kernel

theorem witness_BureauControlActs :
    let s := bureauThread [(1, 5)] [(csrIEN, 2 ^ 63 + 2 ^ 32)] []
    let th : Thread := { g := [(1, 5)], csr := [(csrIEN, 2 ^ 63 + 2 ^ 32)] }
    (s.takes = true ∧ SMap.find s.bnc.threads 512 = some th ∧ th.gie = true ∧ th.waiting = none ∧ s.pendEnabled th ≠ 0 ∧
      s.pendEnabled th < 2 ^ 33) ∧
      (s.starts 512 .eret = true ∧ (th.csrOf csrEPC).toNat = 0 ∧ s.pcOk 512 0 = true) ∧ s.issues 512 .wfi = true ∧
      s.issues 512 (.csrr 31 8) = true ∧ s.issues 512 (.csrr 1 csrIPEND) = true ∧ s.issues 512 (.csrw 1 csrCAUSE) = true ∧
      s.issues 512 (.csrw 1 8) = true := by
  decide +kernel

/-- Register fields set in a state. -/
def setAll (s : State) (rs : List (Field × Nat × Nat)) : State := rs.foldl (fun s r => s.setReg r.1 r.2.1 r.2.2) s

/-- The issuer of a request on a thread. -/
def issuer (s : State) (t : Nat) : Issuer :=
  let u := s.countIssue t
  { s := u, t := t, o := u.ownerOf t, th := s.thread t, cmd := u.threadCmd t, user := u.profileOf t == .user }

/-- The word issues, with no completion request made before it. -/
def asks (s : State) (t n : Nat) : Bool :=
  s.takes && s.issues t ((if n = 10 then BkWord.xreq 2 1 3 n else if n = 9 ∨ n = 11 then .xreq 2 0 0 n else .xreq 2 1 0 n)) && !(issuer s t).completed && ((issuer s t).s.ticketNumber (issuer s t).o).isSome

/-- A group of 64 cells under handle 5, of command 3, and volume 9 of 100 blocks on set 0, tracked from its first block. -/
def withCells (s : State) : State :=
  setAll { s with cab := { s.cab with groups := [(5, { cells := 64, owner := some 3 })] } }
    [(PAR_VOL_VALID, 9, 1), (PAR_VOL_SIZE_LO, 9, 100), (CMD_VOLBIND_VALID, 0, 1), (CMD_VOLBIND_SUB, 0, 0), (CMD_VOLBIND_VOLUME, 0, 9),
     (CMD_VOLBIND_READ, 0, 1), (CMD_VOLBIND_WRITE, 0, 1), (CPH_VOLKEY_VALID, 9, 1), (CPH_VOLKEY_SLOT, 9, 8191)]

def block (fs : List (Nat × Nat)) : List Byte := fs.flatMap fun f => leBytes f.1 f.2

def tracked9 : Cmd := { track := some { asked := true, vol := 9, slba := 0, nblk := 100 }, work := { ledgered := [(9, 0, 100)] } }

theorem witness_RequestsOfThreadsStart :
    let k (g1 : DWord) (g3 : DWord) (b : List Byte) (c : Cmd) := withCells (benchThread 1 [(1, g1), (3, g3)] b [] c)
    let us (g1 : DWord) (b : List Byte) (c : Cmd) := withCells (benchThread 33 [(1, g1)] b [] c)
    let cells (n : Nat) := setAll (us (BitVec.ofNat 64 n) [] {}) [(BNC_USER_CELLS_CELLS, 0, 68)]
    let x (s : State) := issuer s 0
    let track := block [(2, 9), (6, 1), (8, 99), (4, 1)]
    let full : SMap Ticket := (List.range 64).map fun n => (n, {})
    let rsv (s : State) : State := { s with cmd := { s.cmd with rsv := [(7, { id := 7, start := 0, cycles := 1, balance := 4096 })] } }
    let region (s : State) : State := { s with ctx := { s.ctx with regions := [(1, { state := 1, place := true, len := 8192 })] } }
    let rcheck (n : Nat) := region (k 64 0 (block [(4, 2 ^ 18 + 1), (4, 0), (8, 4096), (4, n)]) {})
    (asks (k 1 0 [] {}) 0 1 = true ∧ asks (k 65536 0 [] {}) 0 1 = true ∧ asks (k 0 0 [] {}) 0 1 = true ∧ asks (k 65537 0 [] {}) 0 1 = true ∧
      (benchThread 1 [(1, 1)] [] full {}).issues 0 (.xreq 2 1 0 1) = true ∧
      ((benchThread 1 [(1, 1)] [] full {}).countIssue 0).ticketNumber 3 = none) ∧
    (asks (cells 4) 0 1 = true ∧ (x (cells 4)).user = true ∧ (x (cells 4)).s.cellsHeld 3 + 4 ≤ (x (cells 4)).s.reg BNC_USER_CELLS_CELLS ∧
      (x (cells 5)).s.reg BNC_USER_CELLS_CELLS < (x (cells 5)).s.cellsHeld 3 + 5) ∧
    (asks (k 5 0 [] {}) 0 2 = true ∧ ((x (k 5 0 [] {})).group 5).isSome = true ∧ (x (us 5 [] {})).holds 5 = true ∧
      (x (us 6 [] {})).holds 6 = false ∧ (x (k 6 0 [] {})).group 6 = none) ∧
    (asks (us 64 track {}) 0 8 = true ∧ (x (us 64 track {})).blockOk 64 20 = true ∧ (x (us 64 track {})).arg 64 2 1 = 1 ∧
      (x (us 64 track {})).s.hasRight 0 9 2 = true ∧ (x (us 64 track {})).s.setOffline 0 = false ∧
      (setAll (us 64 track {}) [(PAR_SET_STATE_STATE, 0, 4)]).setOffline 0 = true ∧
      (x (us 65 track {})).blockOk 65 20 = false ∧ (x (us 8176 track {})).blockOk 8176 20 = false) ∧
    (asks (us 0 [] {}) 0 9 = true ∧ (bureauThread [] [] []).issues 512 (.xreq 2 0 0 9) = true) ∧
    (asks (rsv (k 7 4096 [] {})) 0 10 = true ∧ (x (rsv (k 7 4096 [] {}))).s.drawCheck {} 7 4096 none none = none ∧
      (x (rsv (k 7 4097 [] {}))).s.drawCheck {} 7 4097 none none = some (8, 1)) ∧
    (asks (us 0 [] {}) 0 11 = true ∧ (x (us 0 [] { comp := some {} })).completed = true) ∧
    (asks (rcheck 4096) 0 12 = true ∧ (x (rcheck 4096)).s.checkRegion (2 ^ 18 + 1) 4096 4096 0 0 = none ∧
      (x (rcheck 8192)).s.checkRegion (2 ^ 18 + 1) 4096 8192 0 0 = some (5, 4096)) ∧
    (asks (us 64 (block [(4, 0), (4, 5), (8, 0), (8, 4096)]) {}) 0 13 = true ∧ (x (us 64 [] {})).rangesBad [(5, 0, 4096)] = false) := by
  decide +kernel

/-- A thread with an argument block at 64, of the system profile or the user's, with a connection 5. -/
def argued (slot : Nat) (b : List Byte) : State :=
  let s := withCells (benchThread slot [(1, 64)] b [] tracked9)
  { s with ctx := { s.ctx with conns := [(5, { id := 5, state := cOPEN })] } }

/-- The fields of the block that the request reads lie as in `arg`, and `rs` are ranges of the command's own cells. -/
def allowed (slot : Nat) (b : List Byte) (n size : Nat) (rs : List (Nat × Nat × Nat)) (hs : List Nat) : Bool :=
  let x := issuer (argued slot b) 0
  asks (argued slot b) 0 n && x.blockOk 64 size && !x.rangesBad rs && hs.all x.holds && x.user == (slot == 33)

theorem witness_DataRequestsStart :
    let emit (k : Nat) := block [(4, k), (4, 5), (8, 0), (8, 0), (8, 4096)]
    let cmpl := block [(1, 4), (1, 1), (2, 0), (2, 0), (2, 0), (4, 0), (4, 0), (8, 0)]
    let ctrl (k : Nat) := block [(4, k), (4, 5), (8, 0), (2, 1024), (2, 0), (4, 5)]
    let cipher (k : Nat) := block [(2, k), (2, 9), (4, 5), (8, 0), (4, 4), (4, 0xFFFF), (8, 0)]
    let parity (m : Nat) := block [(1, m), (1, 1), (1, 0), (1, 0xFF), (4, 5), (8, 0), (4, 5), (4, 0), (8, 0), (8, 4096), (4, 1)]
    let ledger := block [(8, 9), (8, 0), (4, 100)]
    let drive (op v : Nat) := block [(2, op), (2, v), (4, 5), (8, 0), (8, 0), (4, 2), (4, 5), (8, 0)]
    let x (b : List Byte) := issuer (argued 33 b) 0
    ([2, 3].all fun k => allowed 1 (emit k) 3 32 [(5, 0, 4096)] [5] && (issuer (argued 1 (emit k)) 0).arg 64 0 1 == k) = true ∧
      allowed 33 (emit 2) 3 32 [(5, 0, 4096)] [5] = true ∧
      (allowed 33 cmpl 3 24 [] [] = true ∧ (x cmpl).arg 64 0 1 = 4 ∧ (x cmpl).arg 64 1 1 ≤ 1) ∧
      ([9, 10].all fun k => allowed 1 (ctrl k) 3 24 [(5, 0, 1024)] [] && (issuer (argued 1 (ctrl k)) 0).arg 64 16 2 == 1024) = true ∧
      ((argued 1 []).findConn 5).isSome = true ∧
      ([0, 1].all fun k => allowed 33 (cipher k) 4 32 [(5, 0, 16384)] [5] && (x (cipher k)).arg 64 20 2 == 0xFFFF) = true ∧
      (x (cipher 0)).s.volumeSlot 9 = some 8191 ∧
      ([0, 1, 2, 3].all fun m => allowed 33 (parity m) 5 44 [(5, 0, 16384)] [5] && (x (parity m)).arg 64 32 8 == 4096 &&
        (x (parity m)).arg 64 3 1 == 0xFF && (x (parity m)).arg 64 40 4 == 1) = true ∧
      (allowed 33 ledger 6 20 [] [] = true ∧ (x ledger).inVolume 9 0 100 = true ∧ (x ledger).tracked 9 0 100 = true ∧
        ((x ledger).cmd.map fun c => (x ledger).s.hasRight c.sub 9 2) = some true) ∧
      ([0, 1, 2, 3].all fun op => allowed 33 (drive op 9) 7 40 [(5, 0, 16384)] [5] && (x (drive op 9)).arg 64 24 4 == 2) = true ∧
      (x []).s.parityBytes 9 0 2 ≤ 16384 ∧ inRange ((x []).s.ledgerIssued (x []).o) 9 0 2 = true ∧
      inRange ((x []).s.ledgerIssued (x []).o) 9 99 2 = false ∧ allowed 1 (drive 513 47) 7 40 [(5, 0, 16384)] [] = true ∧
      (issuer (argued 1 (drive 513 47)) 0).arg 64 1 1 / 2 % 2 = 1 := by
  decide +kernel

/-- A state in which some blocks run. -/
def running (bs : List Nat) : State := bs.foldl (fun s b => s.setRuns b true) State.reset

theorem witness_BlocksStartAndStop :
    let s := State.reset
    let all := running [bRTU, bSBD, bCAB, bSLP, bDRV, bPAR]
    let active : State := { setAll (running [bHNG]) [(HNG_STATUS_ROLE, 0, 1)] with hng := { paired := true } }
    let ldg : State := { running [bLDG] with ldg := { recs := [(0, {})] } }
    (s.takes = true ∧ s.inRecovery = false ∧ all.inRecovery = false) ∧
      ([CAB_CMD_START, SCH_CMD_START, SLP_CMD_START, DRV_GCMD_START, PAR_CMD_START, SBD_CMD_START, CAB_CMD_STOP, SCH_CMD_STOP,
        SLP_CMD_STOP, DRV_GCMD_STOP, PAR_CMD_STOP, SBD_CMD_STOP, HNG_CMD_OP, LDG_CMD_START, LDG_CMD_STOP].all
          fun f => s.mayWrite .bar0 f.addr && all.mayWrite .bar0 f.addr) = true ∧
      ([bCAB, bSCH, bSLP, bDRV, bPAR, bSBD, bHNG, bLDG].all fun b => !s.runs b) = true ∧
      ([bRTU, bSBD, bCAB, bSLP, bDRV, bPAR].all fun b => all.runs b) = true ∧
      ((running [bCAB]).runs bCAB = true ∧ ((running [bCAB]).runs bNLT || (running [bCAB]).runs bDRV || (running [bCAB]).runs bPAR ||
        (running [bCAB]).runs bHNG || !(running [bCAB]).cphIdle) = false) ∧
      ((all.runs bNLT || all.runs bDRV || all.runs bPAR || all.runs bHNG || !all.cphIdle) = true ∧ (running [bSCH]).runs bNLT = false ∧
        (running [bSCH, bNLT]).runs bNLT = true) ∧
      (((running [bSLP]).runs bDRV || (List.range 48).any (fun d => (running [bSLP]).chState d != chOFF)) = false ∧ all.runs bDRV = true) ∧
      ((List.range 48).any all.drawerRuns = false ∧ (setAll all [(DRV_STATE_STATE, 47, 5)]).drawerRuns 47 = true) ∧
      ((running [bPAR]).runs bDRV || (running [bPAR]).runs bLDG) = false ∧ ((running [bHNG]).isActive && (running [bHNG]).hng.paired) = false ∧
      (active.isActive && active.hng.paired) = true ∧ ((running [bLDG]).runs bHNG = false ∧ (running [bLDG]).runs bLDG = true) ∧
      (all.cfg.restoring = false ∧ all.cfg.restoreWait = none ∧ all.cfg.restored = false ∧ s.runs bPAR = false) ∧
      ((running [bLDG]).ldg.recs = [] ∧ ldg.ldg.recs ≠ []) := by
  decide +kernel

/-- A group of 32 cells at index 5, and the last group, of 16 cells that hold data, where the spill engine runs. -/
def spilling : State :=
  setAll { ({} : State) with
    cab := { groups := [(5, { cells := 32, spilled := [{ run := { first := 0, count := 16 } }] }),
      (262143, { cells := 16, nums := List.replicate 16 0, filled := [(0, .driveRead)] })] }
    bnc := { threads := [(512, { tickets := [(0, { req := .data 5 0 0 4096 0 none })] })] } }
    [(CAB_SPILL_CFG_RATE, 0, 1), (CAB_SPILL_SIZE_MIB, 0, 1), (CAB_FILL_START_CELLS, 0, 0)]

theorem witness_CabinetWindowsAndSpill :
    let s := spilling
    let base := s.apertureBase
    s.takes = true ∧
      (s.apertureTarget (base + 2 ^ 42) = .queue 0 ∧ s.prpTarget (base + 2 ^ 42) = none) ∧
      (s.apertureTarget (base + 5 * 2 ^ 24 + 4096) = .cells 5 4096 ∧ s.cellsInGroup 5 4096 4096 = true ∧
        s.cellsInGroup 5 4096 4097 = false ∧ s.prpTarget (base + 5 * 2 ^ 24 + 4096) = none) ∧
      (s.prpTarget (base + 2 ^ 47 + 5 * 2 ^ 28 + 2 ^ 16) = some (5, 1, 0) ∧ s.prpTarget (base + 2 ^ 47 + 5 * 2 ^ 28 + 2 ^ 17) = some (5, 2, 0) ∧
        (SMap.find s.cab.groups 5).map (·.cells / 16) = some 2) ∧
      (SMap.find s.cab.groups 262143 = some { cells := 16, nums := List.replicate 16 0, filled := [(0, .driveRead)] } ∧
        s.spillsFor none = true ∧
        ((List.range 16).map (· + 0)).all ((SMap.get {} s.cab.groups 262143).maySpill (s.moverPins ++ s.aheadCells) 262143) = true ∧
        s.oldestSpill (SMap.get {} s.cab.groups 262143) ((List.range 16).map (· + 0)) (s.moverPins ++ s.aheadCells) = true ∧
        (spilling.setReg CAB_FILL_START_CELLS 0 0).anyWanted = true ∧ { s with bnc := {} }.anyWanted = false) ∧
      ((SMap.get {} s.cab.groups 5).spilled.find? (fun y => y.run.first == 0) = some { run := { first := 0, count := 16 } } ∧
        s.extentWanted 5 { run := { first := 0, count := 16 } } = true ∧ s.returnFits { run := { first := 0, count := 16 } } = true) := by
  decide +kernel

/-- Whatever key wrapping answers for the device's own key, one of the two cases of a blob's import holds. -/
theorem witness_blob_imports (s : State) (kind : Nat) :
    (∃ m, unwrapKey deviceKey s.keyData = some (kind, m)) ∨ ∀ m, unwrapKey deviceKey s.keyData ≠ some (kind, m) := by
  by_cases h : ∃ m, unwrapKey deviceKey s.keyData = some (kind, m)
  · exact .inl h
  · exact .inr fun m e => h ⟨m, e⟩

theorem witness_KeyOperationsFollowTheirChecks :
    let s := State.reset
    let full := s.setKeySlot 8191 { kind := 3 }
    let bound := setAll full [(CPH_VOLKEY_VALID, 0, 1), (CPH_VOLKEY_SLOT, 0, 8191)]
    let job (op result : Nat) : State := { s with cph := { job := some { op := op, kind := 4, result := result } } }
    ([Path.bar0, .bureau].all fun p => s.mayWrite p CPH_KEY_CMD_OP.addr) = true ∧
      (setAll s [(CPH_KEY_STATUS_BUSY, 0, 1)]).flag CPH_KEY_STATUS_BUSY = true ∧ s.flag CPH_KEY_STATUS_BUSY = false ∧
      (s.keySlot 8191).kind = 0 ∧ (full.keySlot 8191).kind ≠ 0 ∧ full.slotBound 8191 = false ∧ bound.slotBound 8191 = true ∧
      (s.keyData.take 64).take 32 = ((s.keyData.take 64).drop 32).take 32 ∧
      ((setAll s [(CPH_KEY_DATA_DATA, 0, 1)]).keyData.take 64).take 32 ≠ (((setAll s [(CPH_KEY_DATA_DATA, 0, 1)]).keyData.take 64).drop 32).take 32 ∧
      (s.keySlot (s.reg CPH_KEY_KEK_SLOT)).kind ≠ 4 ∧
      ([(1, 0), (4, 0), (5, 0), (1, 6)].all fun j => ((job j.1 j.2).cph.job.map fun x => (x.op, x.result)) == some j) = true := by
  decide +kernel

/-- One path is the management controller's or JTAG's, and the model's paths may write the command there. -/
theorem witness_plain_imports : ∃ s : State, s.takes = true ∧ s.mayWrite .mgmt CPH_KEY_CMD_OP.addr = true :=
  ⟨setAll State.reset [(CFG_PATH_WR_ALLOW, 1, 2 ^ 32 - 1)], by decide +kernel, by decide +kernel⟩

def xtsItem : PairItem := { item := .xts 3 0 true 0 0 0 5 0 false, dummies := 16 }

def txItem : PairItem := { item := .gcmTx {} 0 0 }

def rxItem : PairItem := { item := .gcmRx .data {} {} 0 {} }

theorem witness_CipherPairsAndEntropy :
    let s : State := { ({} : State) with cph := { queues := [(71, [xtsItem]), (0, [txItem]), (1, [rxItem])] } }
    let t := setAll s [(CPH_PAIR_STATE_STATE, 71, 1), (CPH_PAIR_STATE_STATE, 0, 2), (CPH_PAIR_STATE_COUNT, 71, 1)]
    s.takes = true ∧ s.pairQueue 71 = [xtsItem] ∧ s.pairQueue 0 = [txItem] ∧ s.pairQueue 1 = [rxItem] ∧
      s.pairQueue 70 = [] ∧ s.mayWrite .bar0 CPH_PAIR_CMD_OP.addr = true ∧ t.mayWrite .bar0 CPH_PAIR_CMD_OP.addr = true ∧
      t.reg CPH_PAIR_STATE_STATE 71 = 1 ∧ t.reg CPH_PAIR_STATE_STATE 0 = 2 ∧ t.reg CPH_PAIR_STATE_COUNT 71 + 1 = 2 ∧
      (setAll s [(CPH_STATUS_SRC_FAILED, 0, 1)]).flag CPH_STATUS_SRC_FAILED = true ∧ s.flag CPH_STATUS_SRC_FAILED = false := by
  decide +kernel

/-- Set 7 with N = 4 and 2,000 rows on Drawers 0 to 5, and 18 Drawers that may join. -/
def aSet (rs : List (Field × Nat × Nat)) : State :=
  setAll State.reset ([(PAR_SET_EN, 7, 1), (PAR_SET_N, 7, 4), (PAR_SET_ROWS, 7, 2000), (PAR_SET_S_M16, 7, 0), (PAR_SET_BASE_LO, 7, 0)] ++
    ((List.range 6).map fun x => (PAR_SETMEM_DRAWER, 32 * 7 + x, x)) ++
    ((List.range 18).flatMap fun d => [(DRV_STATE_STATE, 30 + d, 4), (DRV_CAP_UNITS, 30 + d, 32000)]) ++ rs)

theorem witness_SetCommandsFollowTheirChecks :
    let s := aSet [(PAR_SET_STATE_LOST, 7, 32), (PAR_RS_ADD_MASK, 0, 2 ^ 48 - 2 ^ 30)]
    let off := aSet [(PAR_SET_STATE_STATE, 7, 4)]
    let ds := (List.range 48).filter fun d => (s.reg PAR_RS_ADD_MASK).testBit d
    let rows (n : Nat) (r : Nat) := let s := aSet [(PAR_SET_ROWS, 7, r), (PAR_RB_STATE_NEWN, 7, n)]
      decide (s.setRows 7 - s.newRows 7 < (s.stagedRows 7 * s.setW 7 + (n - s.setN 7) - 1) / (n - s.setN 7))
    let phase (p : Nat) := aSet [(PAR_RB_STATE_PHASE, 7, p)]
    s.takes = true ∧ s.mayWrite .bar0 PAR_RB_CMD_OP.addr = true ∧ off.mayWrite .bar0 PAR_RB_CMD_OP.addr = true ∧
      (s.setExists 6 = false ∧ s.setExists 7 = true ∧ s.setOffline 7 = false ∧ s.reshaping 7 = false ∧ off.setOffline 7 = true) ∧
      (s.setW 7 = 6 ∧ s.isLost 7 5 = true ∧ (s.target 7 5).1 = 0 ∧ s.joinable 7 29 = false ∧ s.joinable 7 47 = true) ∧
      (s.reg PAR_SET_STATE_STATE 7 = 0 ∧ s.setN 7 = 4 ∧ ds.length = 22 - 4 ∧ ds.all (s.joinable 7) = true ∧ ds.length ≠ 21 - 4 ∧
        rows 22 2000 = false ∧ rows 22 1000 = true) ∧
      ((off.setSt 7).offlineDrawer = none ∧ off.damageRecs.length < 4096 ∧
        (off.setSetState 7 0).newestRecord 0x12 7 = none ∧ (off.setSetState 7 0).newestRecord 0x10 7 = none) ∧
      ((phase 0).reg PAR_RB_STATE_PHASE 7 = 0 ∧ (phase 1).reg PAR_RB_STATE_PHASE 7 = 1 ∧ (phase 2).reg PAR_RB_STATE_PHASE 7 = 2 ∧
        (phase 3).reg PAR_RB_STATE_PHASE 7 = 3) := by
  decide +kernel

/-- Damage records up to any number, for a revival that is refused. -/
theorem witness_damage (n : Nat) : ∃ s : State, n ≤ s.damageRecs.length :=
  ⟨{ ({} : State) with ldg := { recs := List.replicate n (0, { kind := 0x13 }) } }, by simp [State.damageRecs]⟩

theorem witness_PiecesOfWorkOnSetsEnd :
    let s (p : Piece) : State := { aSet [(PAR_SET_ROWS, 7, 1)] with
      par := { sets := [(7, { piece := some p, nextBoff := p.boff })], resync := [{ set := 7, row := 0, boff := 15, count := 1, ofOpen := true }],
               repairs := [(7, 5, 31)] } }
    let r : Ring := { drawer := 47, queue := [{ ckpt := true }], counts := true }
    let ring : State := { setAll (running [bLDG]) [(LDG_ACTIVE_A, 0, 47)] with ldg := { ringA := some r } }
    let w (c : Nat) : State := ((s { kind := 2, row := 0, boff := c }).pieceOver 7)
    (ring.takes = true ∧ ring.ringOn 47 = some r ∧ ((ring.ledgerDriveLost 47).ringOn 47) = none) ∧
      ((s { kind := 2 }).setSt 7).piece = some { kind := 2 } ∧ 0 = (w 0).cursor 7 ∧ ((w 0).setSt 7).nextBoff = 0 ∧
      (w 0).setSb 7 = 16 ∧ (0 + (w 0).pieceColumns 7 < 16 ∨ 16 ≤ 0 + (w 0).pieceColumns 7) ∧ 16 ≤ 15 + (w 15).pieceColumns 7 ∧
      ((s { kind := 4 }).setSt 7).piece = some { kind := 4 } ∧
      ((aSet [(PAR_RB_STATE_NEWN, 7, 5)]).reshaping 7 = true ∧ ((aSet []).setSt 7).staged = false ∧ (aSet []).setOffline 7 = false) ∧
      ({ set := 7, row := 0, boff := 15, count := 1, ofOpen := true } ∈ (s {}).par.resync ∧ (s {}).rowUnknown ((s {}).layoutRow 7 0) = [] ∧
        ((aSet []).setSt 7).piece = none) ∧
      (s {}).par.repairs.contains (7, 5, 31) = true := by
  decide +kernel

/-- Drawer 47 in a state, with what it holds beside its registers. -/
def aDrawer (st : Nat) (w : Drawer) : State :=
  { setAll State.reset [(DRV_STATE_STATE, 47, st), (DRV_RKEY_KEY, 0, 2), (DRV_STATE_PG, 47, 1)] with drv := { drawers := [(47, w)] } }

theorem witness_DrawerCommandsFollowTheirChecks :
    let s (st : Nat) := aDrawer st {}
    let used := aSet []
    ([0, 1, 2, 3, 4, 5, 6, 7].all fun st => !(s st).held && (s st).mayWrite .bar0 (drvCmdAddr 47) && (s st).reg DRV_STATE_STATE 47 == st &&
        !(s st).inUse 47) = true ∧ used.inUse 5 = true ∧ used.mayWrite .bar0 (drvCmdAddr 5) = true := by
  decide +kernel

theorem witness_DrawersPowerTrainAndAreAdmitted :
    let s (st t : Nat) := aDrawer st { timer := t, cqNew := [(15, 3)] }
    let on := (aDrawer 0 {}).setRuns bDRV true
    let v (u : Nat) : DriveFacts := { units := u }
    (on.takes = true ∧ on.runs bDRV = true ∧ on.reg DRV_STATE_STATE 47 = 0) ∧
      ((s 1 0).reg DRV_STATE_STATE 47 = 1 ∧ (s 1 0).flag DRV_STATE_PG 47 = true) ∧
      ([3, 4, 6].all fun t => ((s 2 t).drawer 47).timer == t && (s 2 t).reg DRV_STATE_STATE 47 == 2) = true ∧
      ((s 3 0).admission 47 (v 2097152) = none ∧ (s 3 0).admission 47 (v 2097151) = some 9 ∧
        (s 3 0).admission 47 { classCode := 0 } = some 2) ∧
      (setAll (s 4 0) [(DRV_WARN_CW, 47, 4)]).reg DRV_WARN_CW 47 ≠ 0 ∧ SMap.get 0 ((s 4 0).drawer 47).cqNew 15 ≠ 0 := by
  decide +kernel

theorem witness_CommandsAtDrivesEnd :
    let op : MemberOp := { kind := .read }
    let ctx (o : MemberOp) : NvmeCtx := { op := o }
    let quar : NvmeCtx := { op := op, quar := some 0 }
    let late (s : State) : State := s.setReg RTU_EPOCH_COUNT_COUNT 0 100000
    let s (o : MemberOp) : State := aDrawer 4 { ctxs := [(ctxKey 15 1023, ctx o), (ctxKey 15 7, quar)], aborts := [(65535, (15, 7))] }
    let admin (st : Nat) (w : Drawer) : State := { aDrawer st w with rtu := { cycle := 100000 } }
    let k := ctxKey 15 1023
    ((s op).takes = true ∧ ((s op).takeEntryCq 47 15 5 {}).ctxAt 47 15 5 = none ∧ ((s op).takeEntryCq 47 15 7 {}).ctxAt 47 15 7 = some (ctxKey 15 7, quar) ∧
      ([OpKind.read, .write, .acquire].all fun d => ((s { kind := d }).takeEntryCq 47 15 1023 {}).ctxAt 47 15 1023 == some (k, ctx { kind := d })) = true ∧
      ((s { kind := .read, notReady := 3 }).takeEntryCq 47 15 1023 {}).ctxAt 47 15 1023 = some (k, ctx { kind := .read, notReady := 3 })) ∧
      (SMap.find (((s op).takeEntryCq 47 0 65535 {}).drawer 47).aborts 65535 = some (15, 7) ∧
        (((s op).takeEntryCq 47 0 65535 {}).updDrawer 47 fun w => { w with aborts := SMap.del 65535 w.aborts }).ctxAt 47 15 7 = some (ctxKey 15 7, quar)) ∧
      ((late (s op)).ctxAt 47 15 1023 = some (k, ctx op) ∧ 0 + (late (s op)).ioTimeout op ≤ (late (s op)).epoch ∧
        (late (s op)).reg DRV_STATE_STATE 47 = 4 ∧ 0 + 2 * (late (s op)).ioTimeout op ≤ (late (s op)).epoch) ∧
      (0 + max 1 ((admin 4 {}).reg DRV_ADMIN_TO_CYCLES) ≤ (admin 4 {}).rtu.cycle ∧
        ((admin 4 { aborts := [(0, (1, 0))] }).drawer 47).aborts ≠ [] ∧ ((admin 3 { adminOut := true }).drawer 47).adminOut = true ∧
        ((admin 5 { adminOut := true }).drawer 47).adminOut = true) ∧
      ([3, 4, 5, 6].all fun st => (((admin st {}).bump DRV_CTO 47).updDrawer 47 fun w => { w with ctoCount := 1 }).dState 47 == st) = true ∧
      ((admin 4 { ctoCount := 1 }).drawer 47).ctoCount ≠ 0 := by
  decide +kernel

theorem witness_WindowSeatsAndErrorsAct :
    let s := State.reset
    let b : Burst := { addr := 64, data := [1] }
    let q : State := { s with sbd := { queue := [(47, [b]), (40, [b])] } }
    let base := setAll s [(SBD_BAR2_BASE_BASE, 0, 0x3F)]
    let gate : State := { setAll (running [bSCH]) [(SCH_GATE_CTL_EN, 31, 1), (SCH_GATE_CTL_COUNT, 31, 256)] with
      sch := { gates := [(31, [(0, 255)])] } }
    (s.takes = true ∧ base.bar2Addr 0 + 2 ^ 28 = 0x400000000 ∧ hostArea ≤ base.bar2Addr (2 ^ 28 - 1) ∧
        base.bar2Addr (2 ^ 28 - 1) + 1 ≤ hostArea + hostAreaSize ∧ hostArea + hostAreaSize < base.bar2Addr (2 ^ 28 - 1) + 2 ∧
        (setAll s [(SBD_BAR2_BASE_BASE, 0, 0)]).bar2Addr 0 < hostArea) ∧
      ((q.pendingSeats 2).getLast? = some 15 ∧ q.seatQueue 2 15 = [b] ∧ q.pendingSeats 0 = []) ∧
      ((setAll s [(ARB_MASKED_SEAT, 2, 2 ^ 15)]).masked 2 15 = true ∧ s.masked 2 15 = false) ∧
      ((benchThread 1 [] [] [] {}).thread 0).frame.isSome = true ∧
      (gate.runs bSCH = true ∧ gate.flag SCH_GATE_CTL_EN 31 = true ∧ 255 < gate.gateCount 31 ∧ gate.rtu.line = gate.gateLine 31 255 ∧
        gate.gatesInForce 31 ≠ []) := by
  decide +kernel

theorem witness_LocksFollowTheirOwners :
    let held (k i g : Nat) := setAll State.reset [(LCK_LOCK_STATE, 255, 1), (LCK_LOCK_KIND, 255, k), (LCK_LOCK_ID, 255, i), (LCK_LOCK_GEN, 255, g),
      (LCK_LOCK_LEASE, 255, 5), (LCK_LOCK_HELD, 255, 5)]
    let owners : List LockOwner := [.bench 65535, .bureau 512, .bar0, .mgmt 16777215, .jtag]
    let owns (s : State) (w : LockOwner) (g : Nat) : Bool :=
      s.reg LCK_LOCK_STATE 255 == 1 && s.reg LCK_LOCK_KIND 255 == w.kind && s.reg LCK_LOCK_ID 255 == w.ident && s.reg LCK_LOCK_GEN 255 == g
    (owners.all fun w => w.wf && !(held w.kind w.ident 7).held && owns (held w.kind w.ident (2 ^ 24 - 1)) w (2 ^ 24 - 1) &&
        !owns (held w.kind w.ident 6) w 7) = true ∧
      (held 3 0 0).mayWrite .bar0 (lockCmdAddr 255) = true ∧ (held 3 0 0).mayWrite .bureau (lockCmdAddr 255) = true ∧
      ([0, 2].all fun st => State.reg (setAll State.reset [(LCK_LOCK_STATE, 255, st)]) LCK_LOCK_STATE 255 == st) = true ∧
      ((held 3 0 0).reg LCK_LOCK_LEASE 255 ≠ 0 ∧ (held 3 0 0).reg LCK_LOCK_LEASE 255 ≤ (held 3 0 0).reg LCK_LOCK_HELD 255) := by
  decide +kernel

/-- A part of the pair: its role, its pair state, and what it holds beside its registers, with HNG running. -/
def aPart (role pair : Nat) (h : Hng) : State :=
  { setAll (running [bHNG]) [(HNG_STATUS_ROLE, 0, role), (HNG_STATUS_PAIR, 0, pair), (HNG_CFG_PAIR_EN, 0, 1)] with hng := h }

theorem witness_PairCommandsAndPowerWarningsAct :
    let active := aPart 1 2 { paired := true, announce := 1 }
    let pfw (b : Bool) : State := { active with top := { active.top with pfw := b } }
    let fenced := setAll (aPart 1 4 { tetherSilent := false }) [(HNG_STATUS_PEER_ROLE, 0, 1)]
    (active.takes = true ∧ active.mayWrite .bar0 HNG_CMD_OP.addr = true ∧ active.runs bHNG = true ∧ active.isActive = true ∧
        active.hng.paired = true ∧ active.hng.swapping = 0 ∧ active.top.pfw = false ∧ active.activating = false) ∧
      ((aPart 1 3 {}).pair = 3 ∧ fenced.pair = 4 ∧ fenced.livePeer = true ∧ (aPart 1 2 {}).hng.paired = false) ∧
      ((aPart 0 0 { deferring := true }).hng.deferring = true ∧ (aPart 0 0 { deferring := true }).role = 0) ∧
      ((aPart 0 0 { contesting := true }).hng.contesting = true ∧ active.hng.announce ≠ 0 ∧ (aPart 2 1 {}).role = 2) ∧
      ((pfw true).top.pfw = true ∧ (pfw false).top.pfw = false) := by
  decide +kernel

theorem witness_HingeFramesAct :
    let up : State := aPart 2 1 { linkUp := true, rxSeq := 65535, sinceAck := 1, unacked := [{}] }
    let room (s : State) (n : Nat) : Bool := s.withinLimits none (cellsOf n) && decide (s.fill + cellsOf n ≤ s.cabUsable)
    let t (s : State) (n : Nat) : State :=
      let u := (s.hold none (cellsOf n)).unhold none (cellsOf n)
      State.bump { u with hng := { u.hng with rxSeq := (u.hng.rxSeq + 1) % 65536, sinceAck := u.hng.sinceAck + 1 } } HNG_RX_FRAMES
    let u (s : State) (time : Nat) := (t s 16).setReg HNG_PHASE_SUB 0 (int32 ((t s 16).peerPhase time 0))
    let good (s : State) (h : HingeHdr) : Bool :=
      s.runs bHNG && s.hng.linkUp && h.ver == 1 && h.crcOk && h.seq == s.hng.rxSeq && room s 68
    let key := setAll (aPart 2 1 { linkUp := true, rxSeq := 65535 }) [(DRV_RKEY_KEY, 0, 2 ^ 64 - 1), (FWU_SVN_FUSED, 0, 64)]
    let narrow (n : Nat) := State.setReg up HNG_STATUS_LANES 0 n
    let active := aPart 1 0 { linkUp := true, rxSeq := 65535 }
    (up.takes = true ∧ good up { seq := 65535 } = true ∧ good up { seq := 65534 } = false ∧ good up { seq := 65535, ver := 2 } = false ∧
        good up { seq := 65535, crcOk := false } = false ∧ good active { seq := 65535 } = true ∧ room up (256 * 655360) = false) ∧
      ((t up 68).receivesCopy = true ∧ (t active 68).receivesCopy = false ∧ (t active 13).isActive = true) ∧
      (({} : HingeHdr).svn = (u up 0).reg FWU_SVN_FUSED ∧ ({} : HingeHdr).rkey / 2 = (u up 0).reg DRV_RKEY_KEY / 2 ∧
        (u key 0).role = 2 ∧ (u key 0).pair = 1 ∧ ({} : HingeHdr).svn ≠ (u key 0).reg FWU_SVN_FUSED ∧
        ({ svn := 64 } : HingeHdr).svn = (u key 0).reg FWU_SVN_FUSED ∧
        ({ svn := 64 } : HingeHdr).rkey / 2 ≠ (u key 0).reg DRV_RKEY_KEY / 2) ∧
      ((t up 16).peerPhase 0 0 = 0 ∧ (u up 0).role = 2 ∧ (u up 0).pair = 1 ∧ (t up 16).peerPhase 8193 0 = -8193 ∧
        (u active 0).role ≠ 2 ∧ (u active 0).isActive = true ∧ (u active 0).pairEn = true ∧ (u (aPart 0 0 {}) 0).isActive = false) ∧
      (up.hng.unacked = [{}] ∧ up.hng.sinceAck ≠ 0) ∧
      (3 < (narrow 3).lanesMin ∧ (narrow 4).lanesMin ≤ 4 ∧ (narrow 8).lanesMin ≤ 8) := by
  decide +kernel

def tetherOf (unit role pair : Nat) : TetherFrame :=
  let v := 2 ^ 60 + 2 ^ 59 * unit + 2 ^ 56 * role + 2 ^ 53 * pair
  { bits := BitVec.ofNat 64 (v + tetherCrc v) }

theorem witness_TetherFramesAct :
    let s := aPart 1 0 { copying := true, tetherAt := [(0, 0)] }
    let good (f : TetherFrame) : Bool := f.bits.toNat / 2 ^ 60 % 2 ^ 4 == 1 && f.bits.toNat % 256 == tetherCrc f.bits.toNat
    let x (s : State) (f : TetherFrame) : State :=
      let v := f.bits.toNat
      let u : State := { s with hng := { s.hng with
        tetherAt := SMap.put 1 s.ns s.hng.tetherAt, peerPfw := v.testBit 51,
        tetherSilent := s.hng.tetherSilent && !v.testBit 52 } }
      let w := (u.showTether.setReg HNG_STATUS_PEER_ROLE 0 (v / 2 ^ 56 % 2 ^ 3)).setReg HNG_STATUS_PEER_PAIR 0 (v / 2 ^ 53 % 2 ^ 3)
      (w.setFlag HNG_STATUS_PEER_CORE_OK 0 (v.testBit 52)).followPaths
    let y := x (aPart 0 0 {}) (tetherOf 1 1 0)
    let z := x s (tetherOf 1 2 2)
    let out : State := { setAll s [(HNG_STATUS_TETHER0, 0, 1), (HNG_STATUS_TETHER1, 0, 1)] with hng := { s.hng with tetherOut := s.tetherBits, tetherSeq := 1 } }
    (s.takes = true ∧ good (tetherOf 0 1 0) = true ∧ good (tetherOf 1 1 0) = true ∧ good {} = false ∧
        Bool.nat ((tetherOf 0 1 0).bits.toNat.testBit 59) = s.top.unitSel % 2 ∧
        Bool.nat ((tetherOf 1 1 0).bits.toNat.testBit 59) ≠ s.top.unitSel % 2 ∧ s.runs bHNG = true ∧ s.pairEn = true ∧
        State.reset.runs bHNG = false) ∧
      (y.runs bHNG = true ∧ y.pairEn = true ∧ y.role = 0 ∧ y.isActive = false ∧ y.hng.contesting = false) ∧
      (z.runs bHNG = true ∧ z.pairEn = true ∧ z.role ≠ 2 ∧ z.isActive = true ∧ z.hng.detachReq = false ∧ z.hng.copying = true ∧
        z.hng.paired = false) ∧
      (out.flag HNG_STATUS_TETHER0 = true ∧ out.flag HNG_STATUS_TETHER1 = true ∧ out.showTether.tetherLive 0 ≠ out.showTether.tetherLive 1) := by
  decide +kernel

theorem witness_ChannelsStartFaultAndRetry :
    let s (st : Nat) (rs : List (Field × Nat × Nat)) := setAll (running [bSLP]) ([(SLP_CH_STATE, 47, st)] ++ rs)
    let silent : State := { State.reset with slp := { linkSilent := true } }
    ((s 0 []).takes = true ∧ (s 0 []).runs bSLP = true ∧ (s 0 []).slp.linkSilent = false ∧ silent.slp.linkSilent = true ∧
        State.reset.runs bSLP = false) ∧
      ([0, 1, 2, 3, 4].all fun st => (s st []).reg SLP_CH_STATE 47 == st) = true ∧
      (s 2 [(SLP_CH_TIMER, 47, 1)]).flag SLP_CH_TIMER 47 = true ∧ (s 3 []).flag SLP_CH_TIMER 47 = false ∧
      (s 3 [(SLP_CH_PG, 47, 1)]).flag SLP_CH_PG 47 = true ∧ (s 3 []).flag SLP_CH_PG 47 = false ∧
      ([0, 1].all fun f => (setAll State.reset [(SLP_FEED_STAT_STATE, f, 1)]).reg SLP_FEED_STAT_STATE f == 1) = true := by
  decide +kernel

theorem witness_EndpointLinkAndResetsAct :
    let flr : State := { State.reset with mep := { flr := true } }
    let idle := setAll State.reset [(MEP_LINK_UP, 0, 1)]
    State.reset.takes = true ∧ State.reset.mayWrite .bureau MEP_CTRL_CFG_READY.addr = true ∧ flr.mep.flr = true ∧ State.reset.mep.flr = false ∧
      (idle.flag MEP_LINK_UP = true ∧ idle.mep.dma = [] ∧ idle.msixWaits = false) := by
  decide +kernel

theorem witness_VectorsAndCopiesAct :
    let s (bme st len : Nat) := setAll State.reset [(MEP_LINK_BME, 0, bme), (MEP_DMA_STATUS, 3, st), (MEP_DMA_LEN, 3, len)]
    let x (len : Nat) : Dma := { len := len }
    let copy (out : Bool) (a : Nat) (st : Nat) : State :=
      { s 1 st 4 with mep := { dma := [(3, { toHost := out, sbd := a, len := 4 })] } }
    (State.reset.takes = true ∧ State.reset.mayWrite .bar0 MEP_VEC_ACK_ACK.addr = true ∧
        State.reset.mayWrite .bar0 (MSIX_TABLE_ADDR.addr + 16 * 63 + 12) = true ∧
        State.reset.mayWrite .bar0 (MEP_DMA_HOST.addr + 0x20 * 3 + 0x14) = true) ∧
      ((s 0 0 4).flag MEP_LINK_BME = false ∧ (s 1 0 4).flag MEP_LINK_BME = true ∧ (s 1 1 4).reg MEP_DMA_STATUS 3 = 1 ∧
        (s 1 0 4).reg MEP_DMA_STATUS 3 ≠ 1 ∧ (s 1 0 4).reg MEP_DMA_LEN 3 = 4 ∧ (x 4).legal = true ∧ (x 3).legal = false ∧
        (x (2 ^ 24)).legal = true ∧ (x 0).legal = false) ∧
      (SMap.find (copy true 0 1).mep.dma 3 = some { toHost := true, len := 4 } ∧ (copy true 0 1).reg MEP_DMA_STATUS 3 = 1 ∧
        (copy true 0 0).reg MEP_DMA_STATUS 3 ≠ 1 ∧ ({ sbd := hostArea + hostAreaSize - 4, len := 4 } : Dma).inHostArea = true ∧
        ({ sbd := hostArea + hostAreaSize - 3, len := 4 } : Dma).inHostArea = false) := by
  decide +kernel

/-- An image of two units: a header with one empty section of each type that must be there, and the signature's unit. -/
def anImage (crc : Nat) : List Byte :=
  block ([(4, 0x4657494D), (1, 1), (1, 0), (2, 5), (4, 8192), (4, 7), (4, 63), (1, 1), (11, 0), (1, 4), (223, 0)] ++
    [1, 3, 4, 5, 6].flatMap fun t => [(4, t), (4, 4096), (4, 0), (4, if t = 6 then crc else 0)])

/-- That image in the staging area, with LEN its two units. -/
def staging (crc : Nat) (rs : List (Field × Nat × Nat)) : State :=
  setAll { ({} : State) with sbd := { mem := Mem.writeAll hostArea (anImage crc) [] } }
    ([(FWU_LEN_UNITS, 0, 2), (TOP_ID_STEPPING, 0, 0xA0)] ++ rs)

theorem witness_staged_images :
    (fwHeaderOk ((staging 0 []).staged 8192) 8192 = true ∧ (staging 0 []).steppingOk ((staging 0 []).staged 8192) = true) ∧
      (staging 0 [(TOP_ID_STEPPING, 0, 0xB0)]).steppingOk ((staging 0 []).staged 8192) = false ∧
      fwHeaderOk ((staging 0 [(FWU_LEN_UNITS, 0, 3)]).staged 12288) 12288 = false := by
  decide +kernel

theorem witness_staged_crcs : fwCrcOk ((staging 0 []).staged 8192) = true ∧ fwCrcOk ((staging 1 []).staged 8192) = false := by
  decide +kernel

theorem witness_staged_svns :
    fwSvn ((staging 0 []).staged 8192) < (staging 0 [(FWU_SVN_FUSED, 0, 64)]).reg FWU_SVN_FUSED ∧ (staging 0 []).reg FWU_LEN_UNITS = 2 := by
  decide +kernel

theorem witness_FirmwareOperationsRunAndEnd :
    let job (op result : Nat) (dirty : Bool) : State :=
      { State.reset with fwu := { job := some { op := op, result := result, dirtied := dirty } } }
    let ready (s : State) : Bool := match s.fwu.job with
      | some j => s.fwuReady j
      | none => false
    let units (n : Nat) := (setAll State.reset [(FWU_LEN_UNITS, 0, n)]).reg FWU_LEN_UNITS
    (State.reset.takes = true ∧ State.reset.mayWrite .bar0 FWU_CMD_OP.addr = true ∧ State.reset.fwu.job = none ∧
        (job 1 0 false).fwu.job.isSome = true ∧ State.reset.flag FWU_STATUS_VERIFIED = false ∧
        (setAll State.reset [(FWU_STATUS_VERIFIED, 0, 1)]).flag FWU_STATUS_VERIFIED = true) ∧
      (units 1 = 1 ∧ units 2 = 2 ∧ units 15739 = 15739 ∧ units 15740 = 15740) ∧
      ((setAll State.reset [(FWU_STATUS_BOOT, 0, 1)]).inRecovery = true ∧ State.reset.inRecovery = false) ∧
      (ready (job 3 0 false) = false ∧ ([1, 2, 4, 5, 6].all fun op => ready (job op 0 false)) = true ∧ ready (job 1 0 true) = true ∧
        ready (job 1 5 false) = true ∧ ready (job 4 8 false) = true) ∧
      (State.reset.mayWrite .bar0 (FWU_BLK_DATA_DATA.addr + 4 * 1023) = true ∧
        State.reset.mayWrite .bar0 (FWU_BLK_DATA_DATA.addr + 4 * 1022) = true) := by
  decide +kernel

/-- The phases of a boot; of a loader that is good, and of a signature, one of two cases holds, whatever the hash and the
signature check answer. -/
theorem witness_BootAndDebugStateAct :
    let at' (p : ResetPhase) (b : Bool) : State := { State.reset with top := { State.reset.top with phase := p, booted := b } }
    (at' .tripped false).top.phase = .tripped ∧ (at' .run true).top.booted = true ∧ (at' .warm true).top.phase = .warm ∧
      (at' .powerOn false).release.fwu.loaderOk = true ∧ (at' .powerOn false).release.fwu.isSealed = false ∧
      ({ (at' .shelf false) with fwu := { loaderOk := false } } : State).release.fwu.loaderOk = false ∧
      State.reset.takes = true ∧ State.reset.mayWrite .bar0 FWU_DBG_CMD_OP.addr = true ∧ State.reset.fwu.dbgDisable = false ∧
      ({ State.reset with fwu := { dbgDisable := true } } : State).fwu.dbgDisable = true := by
  decide +kernel

theorem witness_signatures (s : State) : s.dbgSigned = false ∨ s.dbgSigned = true := by
  cases s.dbgSigned <;> simp

theorem witness_RecorderCommandsAct :
    let flushing : State := { State.reset with evr := { flushing := true } }
    let post (t : Nat) := setAll State.reset [(EVR_POST_TYPE, 0, t)]
    let queued : State := { State.reset with evr := { queues := [(47, [{}])] } }
    (State.reset.takes = true ∧ ([EVR_CMD_OP, EVR_POST_GO, EVR_CUR_SEQ, PMC_CMD_OP].all fun f =>
        State.reset.mayWrite .bar0 f.addr && State.reset.mayWrite .bureau f.addr) = true) ∧
      (flushing.evr.flushing = true ∧ flushing.mayWrite .bar0 EVR_CMD_OP.addr = true ∧ State.reset.evr.flushing = false) ∧
      ((post 0xBF).reg EVR_POST_TYPE < 0xC0 ∧ 0xC0 ≤ (post 0xC0).reg EVR_POST_TYPE) ∧
      (State.reset.pathAllows .bar0 false ((blockOf (EVR_WINDOW_DATA.addr + 4 * 1023)).getD 0) = true ∧
        (setAll State.reset [(FWU_DBG_CMD_UNLOCKED, 0, 1)]).flag FWU_DBG_CMD_UNLOCKED = true) ∧
      (SMap.get [] queued.evr.queues 46 = [] ∧ SMap.get [] queued.evr.queues 47 = [{}]) := by
  decide +kernel

theorem witness_ResetsClearWhatTheyDoNotKeep :
    let at' (p : ResetPhase) : State := { State.reset with top := { State.reset.top with phase := p } }
    (at' .run).top.phase = .run ∧ (at' .shelfEntry).top.phase = .shelfEntry ∧ (at' .powerOn).top.phase = .powerOn ∧
      (at' .tripped).top.phase = .tripped ∧ State.reset.takes = true ∧ State.reset.top.phase = .run ∧
      State.reset.mayWrite .bar0 TOP_RESET_OP.addr = true := by
  decide +kernel

theorem witness_BlockResetsSensorsAndClocksAct :
    let busy (l : List Nat) : State := { State.reset with top := { State.reset.top with blkrst := l } }
    let lost (c : Nat) (p : ResetPhase) : State := { State.reset with top := { State.reset.top with clocksLost := [c], phase := p } }
    (State.reset.takes = true ∧ State.reset.mayWrite .bar0 TOP_BLKRST_BLOCK.addr = true ∧
        (State.reset.blockResettable bRTU = true ∧ bRTU ∉ State.reset.top.blkrst) ∧ State.reset.blockResettable bCFG = false ∧
        (running [bRTU]).blockResettable bRTU = false) ∧
      ((busy []).top.blkrst = [] ∧ (busy [31, 0]).top.blkrst = [31, 0]) ∧
      ([0, 4].all fun c => (lost c .run).top.clocksLost.contains c && !(lost c .run).held && (lost c .warm).held) = true ∧
      State.reset.top.clocksLost.contains 4 = false ∧ ((16 * (120 + 0) : Nat) ≤ signedTemp 1920) ∧ State.reset.trips 5 1760 = true ∧ State.reset.trips 5 1759 = false ∧
      State.reset.trips 7 32767 = false ∧
      ((lost 0 .warm).held = true ∧ (lost 0 .warm).trips 5 1759 = false ∧ (16 * (110 + 0) : Nat) ≤ signedTemp 1760) := by
  decide +kernel

/-- Commands that their operands' ranges refuse, and one that they let pass. -/
theorem witness_EveryCommandAnswers :
    Instr.wellFormed (.lockForce .bar0 255) = true ∧ Instr.wellFormed (.lockForce .bar0 256) = false ∧ (freeAt 8 false).held = false ∧
      (freeAt 8 false).boundaryOwed = true := by
  decide +kernel

set_option maxRecDepth 20000 in
theorem witness_boundary_first :
    (freeAt 8 false).epochBoundary.takes = true ∧ (freeAt 8 false).epochBoundary.pending = (freeAt 8 false).pending := by
  decide +kernel

theorem witness_AHeldDeviceIgnoresCommands :
    let s : State := { State.reset with top := { State.reset.top with phase := .powerOn } }
    s.held = true ∧
      Instr.rtuStart .bar0 ∉ [Instr.powerOnReset, .warmReset, .shelfReset, .selfRefreshDone, .thermalTrip, .boot, .epochBoundary] ∧
      (∀ c, Instr.rtuStart .bar0 ≠ .clockLoss c ∧ Instr.rtuStart .bar0 ≠ .clockReturn c) ∧
      (∀ k t, Instr.rtuStart .bar0 = .thermalWarning k t → s.trips k t = false) ∧ s.trips 5 1759 = false :=
  ⟨by decide +kernel, by decide +kernel, fun _ => ⟨by simp, by simp⟩, fun _ _ h => by simp at h, by decide +kernel⟩

theorem witness_TheQueueStaysWellFormed :
    ∃ t, State.queueOk { State.reset with pending := [.wait 512 1 2, .powerOnReset] } = true ∧
      step { State.reset with pending := [.wait 512 1 2, .powerOnReset] } = .next t :=
  ⟨_, by decide +kernel, rfl⟩

theorem witness_RunsNeverStop :
    ∃ t, Host.Core.run core 1 { State.reset with pending := [.wait 512 1 2, .lockForce .bar0 256] } = .next t :=
  ⟨_, rfl⟩

theorem witness_BeykorEncodingAndDecodingAgree :
    ([BkWord.alu .sel 31 31 31, .imm .sari 31 31 63, .mem .aadd 31 31 1 3 4088, .branch .jal 31 (2 ^ 20 - 1), .jalr 31 31, .xreq 31 31 31 10].all
      fun b => b.wf && decide (b.encode < 2 ^ 32)) = true ∧ (decodeBk 0x40227008).isSome = true := by
  decide +kernel

theorem witness_StoresTouchTheirBytesAlone :
    let s := setAll State.reset [(SBD_BAR2_BASE_BASE, 0, 0x3F)]
    let b : Burst := { addr := 64, data := [1] }
    let q : State := { s with sbd := { queue := [(47, [b])] } }
    let copy (out : Bool) (a : Nat) : State :=
      { setAll State.reset [(MEP_DMA_STATUS, 3, 1)] with mep := { dma := [(3, { toHost := out, sbd := a, len := 4 })] } }
    (s.takes = true ∧ s.sbd.mem.wf = true ∧ hostArea ≤ s.bar2Addr (2 ^ 28 - 1) ∧ s.bar2Addr (2 ^ 28 - 1) + 1 ≤ hostArea + hostAreaSize ∧
        (setAll s [(SBD_BAR2_BASE_BASE, 0, 0)]).bar2Addr 0 < hostArea) ∧
      (q.nextSeat 2 = some 15 ∧ q.seatQueue 2 15 = [b] ∧ q.nextSeat 0 = none) ∧
      ([true, false].all fun out => SMap.find (copy out hostArea).mep.dma 3 == some { toHost := out, sbd := hostArea, len := 4 } &&
        (copy out hostArea).reg MEP_DMA_STATUS 3 == 1) = true ∧
      (({ sbd := hostArea, len := 4 } : Dma).inHostArea = true ∧ ({ sbd := hostArea - 4, len := 4 } : Dma).inHostArea = false) ∧
      s.mayWrite .bar0 (FWU_BLK_DATA_DATA.addr + 4 * 1023) = true := by
  decide +kernel

/-- Each of these forms leaves a next state. -/
theorem witness_stores_complete (off : Nat) (data : List Byte) :
    let s := State.reset
    (∃ t, exec (.bar2Write off data) s = .next t) ∧ (∃ t, exec (.arbiterGrant 2) s = .next t) ∧
      (∃ t, exec (.dmaDone 3 true data) s = .next t) ∧ ∃ t, exec (.blkDataWrite .bar0 1023 7) s = .next t :=
  ⟨⟨_, rfl⟩, ⟨_, rfl⟩, ⟨_, rfl⟩, ⟨_, rfl⟩⟩

theorem witness_RegisterWordsChangeTheirDestinationAlone :
    let s := bureauThread [(1, 5)] [] []
    let b := benchThread 33 [(1, 5)] [] [] {}
    (s.takes = true ∧ s.canIssue 512 = true ∧ s.budgetSpent 512 = false ∧ s.pcOk 512 ((s.thread 512).pc + 4) = true) ∧
      (b.takes = true ∧ b.canIssue 0 = true ∧ b.budgetSpent 0 = false ∧ b.pcOk 0 ((b.thread 0).pc + 4) = true) ∧
      (63#16).toNat < 64 := by
  decide +kernel

theorem witness_EveryTetherFrameSentIsAcceptable : (aPart 2 4 {}).role < 8 ∧ (aPart 2 4 {}).pair < 8 := by
  decide +kernel

/-- A column of 22 data bytes that lost its last data byte and Q. -/
theorem witness_TwoLostStripsAreRecovered :
    let ds : List Byte := (List.range 22).map fun n => BitVec.ofNat 8 (7 * n + 1)
    let ds' : List Byte := ds.set 21 0
    ds.length ≤ 22 ∧ ds'.length = ds.length ∧ [21, 23].length ≤ 2 ∧ [21, 23].Nodup ∧
      (∀ i, i < ds.length → i ∉ [21, 23] → ds'.getD i 0 = ds.getD i 0) ∧ ds.length ∉ [21, 23] ∧ ds.length + 1 ∈ [21, 23] ∧
      ∀ i ∈ [21, 23], i < ds.length + 2 := by
  decide +kernel

/-! ### Worked values of the spec -/

def digits : List Byte := [0x31, 0x32, 0x33, 0x34, 0x35, 0x36, 0x37, 0x38, 0x39]

/-- The check values of R64, R68 and R344. -/
theorem test_check_values : crc16 digits = 0x29B1#16 ∧ crc32c digits = 0xE3069283#32 ∧ crc8 digits = 0xF4#8 := by
  decide +kernel

/-- The DATA header of the worked example after R68, byte by byte. -/
theorem test_data_header :
    headBytes .data {
      flags := 0x40, conn := 0x2A17, ent := 5, psn := 20037, msgid := 0x00030102, key := 0x80000431, offset := 7 * 2 ^ 20,
      plen := 8192 } =
      [0x13, 0x40, 0x00, 0x00, 0x2A, 0x17, 0x05, 0x00, 0x00, 0x00, 0x4E, 0x45, 0x00, 0x03, 0x01, 0x02, 0x80, 0x00, 0x04, 0x31,
        0x00, 0x00, 0x00, 0x00, 0x00, 0x70, 0x00, 0x00, 0x20, 0x00] := by
  decide +kernel

/-- The column of the worked example after R253: its syndromes, and its recovery without D1 and D2. -/
theorem test_column :
    synP [0x11, 0x22, 0x33, 0x44] = 0x44 ∧ synQ [0x11, 0x22, 0x33, 0x44] = 0x83 ∧
      recoverByte 4 [0x11, 0, 0, 0x44] 0x44 0x83 [1, 2] = ([0x11, 0x22, 0x33, 0x44], 0x44, 0x83) := by
  decide +kernel

/-- The CID of the worked example after R307: SQ 5, context 42 at rotation 3. -/
theorem test_cid :
    (aDrawer 4 { ctxs := [(ctxKey 5 42, { rot := 3 })] }).ctxAt 47 5 0x0C2A = some (ctxKey 5 42, { rot := 3 }) := by
  decide +kernel

/-- Words written out from R175 and R176 for a format of each kind. -/
theorem test_words :
    decodeBk 0b00000000011000010001000000000000 = some (.alu .add 3 1 2) ∧ decodeBk 0b01110000000000000000000000000011 = some .endThread ∧
      decodeBk 0b11111100000000000000000000000000 = none := by
  decide +kernel

/-! ### What the checks of operands refuse -/

/-- For each range of operands an instance at its bounds, and the addresses that a path must be able to write. -/
theorem witness_CommandsOfTimeNetworkAndBenchesComplete :
    State.reset.takes = true ∧ State.reset.held = false ∧
      ([Instr.registerWrite .bureau 0 0 4294967295, .ptpEventMessage 31 0 0 {}, .cfgViewWrite .bureau 2 3, .rxCmd {} {},
        .ackDelayExpiry 16777215, .transmitOpportunity 31, .grantTimeout 131071, .commandDispatch 65535 511,
        .requestComplete 0 63, .userWallTimeout 65535, .add 0 31 31 31, .clz 0 31 31, .seth 0 3 31 31 0, .load 0 31 31 3 3 0,
        .csrr 0 31 65535, .bureauInterrupt 512, .apertureRead 47 0 0, .spillExtentDone 262143 0 0, .gateEntry 31 255,
        .keyImportPlain .bureau 8191 15, .keyExport .bureau 8191, .pairTest .bureau 71, .thermalWarning 7 65535, .clockLoss 4].all
        Instr.wellFormed) = true ∧
      ([RTU_CMD_START.addr, RTU_CMD_STOP.addr, CFG_COMMIT_GEN.addr, CFG_CTRL_ROLLBACK.addr, CFG_CTRL_DISCARD.addr,
        (CFG_VIEW_VIEW.addr + 4 * 2), CFG_ERRLOG_POP_POP.addr, (nltCmdAddr 31), CTX_CMD_OP.addr, BNC_LOAD_CMD_OP.addr,
        CAB_CMD_START.addr, CAB_CMD_STOP.addr, SCH_CMD_START.addr, SCH_CMD_STOP.addr, CPH_KEY_CMD_OP.addr, CPH_PAIR_CMD_OP.addr,
        TOP_RESET_OP.addr, TOP_BLKRST_BLOCK.addr].all
        fun a => State.reset.mayWrite .bureau a) = true := by
  decide +kernel

theorem witness_CommandsOfDrivesSideboardAndPairComplete :
    State.reset.takes = true ∧ State.reset.held = false ∧
      ([Instr.generationAreaWriteDone 47 true true, .resyncPieceDone 7 0 0 0 true, .rbTarget .bureau 7 25 47,
        .rbReshape .bureau 7 31, .rbRevive .bureau 7 47, .repairWritebackDone 7 25 0 true, .dlActive 47 2 7 true,
        .nvmeCompletion 47 15 65535 {}, .asyncEvent 47 255, .sideboardUe 11 0 0, .arbiterGrant 2, .seatMask 2 15,
        .lockAcquire (.bureau 512) 255, .lockRelease (.bureau 512) 255 16777215, .lockForce .bureau 255, .hingeAck {} 65535,
        .hingeTime {} 0 0 0, .hingeLinkDown 8, .tetherFrame 1 {}, .msixMaskClear .bureau 63, .dmaStart .bureau 3 7,
        .dmaDone 3 true [], .blkDataWrite .bureau 1023 4294967295, .evrWindowRead .bureau 1023, .mepLinkUp 4 true,
        .cqHeadDoorbellDelay 47 15].all
        Instr.wellFormed) = true ∧
      ([PAR_CMD_START.addr, PAR_CMD_STOP.addr, LDG_CMD_START.addr, LDG_CMD_STOP.addr, PAR_RB_CMD_OP.addr, DRV_GCMD_START.addr,
        DRV_GCMD_STOP.addr, (drvCmdAddr 47), SBD_CMD_START.addr, SBD_CMD_STOP.addr, (lockCmdAddr 255), HNG_CMD_OP.addr,
        SLP_CMD_START.addr, SLP_CMD_STOP.addr, MEP_CTRL_CFG_READY.addr, MEP_VEC_ACK_ACK.addr,
        (MSIX_TABLE_ADDR.addr + 16 * 63 + 12), (MEP_DMA_HOST.addr + 0x20 * 3 + 0x14), FWU_CMD_OP.addr,
        (FWU_BLK_DATA_DATA.addr + 4 * 1023), FWU_DBG_CMD_OP.addr, EVR_CMD_OP.addr, EVR_POST_GO.addr, EVR_CUR_SEQ.addr,
        PMC_CMD_OP.addr].all
        fun a => State.reset.mayWrite .bureau a) = true ∧ (LockOwner.path (.bench 0) = none) := by
  decide +kernel

/-! One term for each range that a command's operands must keep, each out of that range alone: each is ill-formed. -/

theorem test_ill_formed_units :
    ([Instr.registerWrite .bar0 0 4 (2 ^ 32), .w1cWrite .bar0 0 (2 ^ 32) 0, .ptpEventMessage 32 0 0 {}, .ptpEventMessage 0 0 0 { domain := 256 }, .ptpEventMessage 0 0 0 { transport := 3 }, .cfgCommit .bar0 (2 ^ 32), .cfgViewWrite .bar0 3 0,
      .cfgViewWrite .bar0 0 4, .generationAreaWriteDone 48 true true, .ackDelayExpiry (2 ^ 24), .grantTimeout 131072, .commandDispatch 65536 0,
      .commandDispatch 0 512, .requestComplete 0 64, .userWallTimeout 65536, .imageLoad .bar0 64].all fun i => !i.wellFormed) = true := by
  decide +kernel

theorem test_ill_formed_words :
    ([Instr.add 0 32 0 0, .add 0 0 32 0, .add 0 0 0 32, .clz 0 32 0, .clz 0 0 32, .seth 0 4 0 0 0, .seth 0 0 32 0 0, .seth 0 0 0 32 0, .load 0 32 0 0 0 0,
      .load 0 0 32 0 0 0, .load 0 0 0 4 0 0, .load 0 0 0 0 4 0, .aadd 0 32 0 0, .aadd 0 0 32 0, .bz 0 32 0, .rdtime 0 32, .rdc 0 32 0, .rdc 0 0 32,
      .csrr 512 32 0, .csrr 512 0 65536, .csrw 512 32 0, .csrw 512 0 65536, .bureauInterrupt 511].all fun i => !i.wellFormed) = true := by
  decide +kernel

theorem test_ill_formed_storage :
    ([Instr.spillExtentDone 262144 0 0, .gateEntry 32 0, .gateEntry 0 256, .keyImportPlain .bar0 8192 0, .keyImportPlain .bar0 0 16, .keyExport .bar0 8192,
      .pairTest .bar0 72, .resyncPieceDone 8 0 0 0 false, .rbTarget .bar0 8 0 0, .rbTarget .bar0 0 26 0, .rbTarget .bar0 0 0 48, .rbReshape .bar0 8 0,
      .rbReshape .bar0 0 32, .rbRevive .bar0 8 0, .rbRevive .bar0 0 48, .repairWritebackDone 8 0 0 true, .repairWritebackDone 0 26 0 true,
      .drawerPowerOn .bar0 48, .dlActive 48 0 0 false, .dlActive 0 3 0 false, .dlActive 0 0 8 false, .cqHeadDoorbellDelay 0 16,
      .nvmeCompletion 48 0 0 {}, .nvmeCompletion 0 16 0 {}, .nvmeCompletion 0 0 65536 {}, .asyncEvent 48 0, .asyncEvent 0 256].all fun i => !i.wellFormed) = true := by
  decide +kernel

theorem test_ill_formed_ports :
    ([Instr.sideboardUe 12 0 0, .arbiterGrant 3, .seatMask 3 0, .seatMask 0 16, .lockAcquire (.bench 65536) 0, .lockAcquire (.bureau 511) 0,
      .lockAcquire (.mgmt (2 ^ 24)) 0, .lockAcquire .bar0 256, .lockRelease .bar0 0 (2 ^ 24), .lockForce .bar0 256, .hingeAck {} 65536, .hingeLinkDown 9,
      .tetherFrame 2 {}, .feedOvercurrent 2, .msixMaskClear .bar0 64, .dmaStart .bar0 4 0, .dmaStart .bar0 0 8, .dmaDone 4 true [],
      .mepLinkUp 5 false, .blkDataWrite .bar0 1024 0, .blkDataWrite .bar0 0 (2 ^ 32), .evrWindowRead .bar0 1024, .warmResetCmd .bar0 65536,
      .blockReset .bar0 32, .thermalWarning 8 0, .thermalWarning 0 65536, .clockLoss 5].all fun i => !i.wellFormed) = true := by
  decide +kernel

theorem test_ill_formed_packets :
    ([Instr.rxCmd { lport := 32 } {}, .rxCmd { pcp := 8 } {}, .rxCmd { dscp := 64 } {}, .rxCmd { src := 2 ^ 128 } {}, .rxCmd { vid := 4096 } {},
      .rxCmd { smac := 2 ^ 48 } {}, .rxData {} { ver := 16 }, .rxData {} { flags := 256 }, .rxData {} { conn := 2 ^ 24 }, .rxData {} { ent := 256 },
      .rxData {} { code := 256 }, .rxAck {} { psn := 2 ^ 32 }, .rxAck {} { msgid := 2 ^ 32 }, .rxAck {} { key := 2 ^ 32 },
      .rxNak {} { offset := 2 ^ 64 }, .rxNak {} { plen := 1 }, .rxFlush {} { hchk := 65536 }, .rxFlush {} { crc := 2 ^ 32 }, .rxFlush {} { hxl := 1 },
      .rxFlushed {} { payload := [1] }, .rxFlushed {} { tag := [1] }].all fun i => !i.wellFormed) = true := by
  decide +kernel

/-- Such a command leaves the state as it is. -/
theorem test_ill_formed_changes_nothing : exec (.lockForce .bar0 256) State.reset = .next State.reset := rfl

/-- Neighbours at the ends of those ranges are not. -/
theorem test_well_formed :
    ([Instr.registerWrite .bar0 0 4 (2 ^ 32 - 1), .cfgViewWrite .bar0 2 3, .commandDispatch 65535 511, .add 0 31 31 31, .load 0 31 31 3 3 0, .csrr 512 31 65535,
      .gateEntry 31 255, .keyImportPlain .bar0 8191 15, .rbTarget .bar0 7 25 47, .dlActive 47 2 7 true, .nvmeCompletion 47 15 65535 {},
      .seatMask 2 15, .lockRelease (.mgmt (2 ^ 24 - 1)) 255 (2 ^ 24 - 1), .dmaStart .bar0 3 7, .blkDataWrite .bar0 1023 (2 ^ 32 - 1), .clockLoss 4,
      .rxCmd { lport := 31, pcp := 7, dscp := 63, vid := 4095 } { hxl := 1, ext := [0, 0, 0, 0], plen := 1, payload := [1] }].all
        Instr.wellFormed) = true := by
  decide +kernel

end Sys2Proof.Tests
end

