-- ==== Sys2Proof/Proofs/Words.lean ====
section
/-! SUPPORT. What the command of a Beykor word answers, from the way its word ends, and the memory spaces by case. -/

namespace Sys2Proof.Machine

open Sys2Proof.Reg

/-! ### A command that runs a word -/

/-- A word that issues, acts in `u` and goes on leaves `u` with the thread at the next address. -/
theorem command_word_next {i : Instr} {s : State} {t : Nat} {b : BkWord} {f : State → Thread → Issued}
    (hok : i.wellFormed = true) (ht : s.takes = true) (hi : s.issues t b = true) {u : State}
    (hf : f (s.countIssue t) (s.thread t) = .goes u ((s.thread t).pc + 4)) :
    command i s (fun s => s.runWord t b f) = .next ((s.movesOn u t).keepQueue s) := by
  rw [command_next i s _ hok ht, runWord_next s t b f hi u hf]

/-- A word that raises an exception leaves the trap alone (R190). -/
theorem command_word_raise {i : Instr} {s : State} {t : Nat} {b : BkWord} {f : State → Thread → Issued}
    (hok : i.wellFormed = true) (ht : s.takes = true) (hi : s.starts t b = true) {e : Nat} {a : Option DWord}
    (hf : f (s.countIssue t) (s.thread t) = .raise e a) :
    command i s (fun s => s.runWord t b f) = .next ((s.trap t e a).keepQueue s) := by
  rw [command_next i s _ hok ht, runWord_raise s t b f hi e a hf]

/-- A word that frees its thread leaves what it did, its issue slot counted. -/
theorem command_word_over {i : Instr} {s : State} {t : Nat} {b : BkWord} {f : State → Thread → Issued}
    (hok : i.wellFormed = true) (ht : s.takes = true) (hi : s.starts t b = true) {u : State}
    (hf : f (s.countIssue t) (s.thread t) = .over u) :
    command i s (fun s => s.runWord t b f) = .next ((u.countSlot t 1).keepQueue s) := by
  rw [command_next i s _ hok ht, runWord_over s t b f hi u hf]

/-! ### Addresses -/

/-- The address that an exception of an access holds. -/
theorem ofNat_address (th : Thread) (ra : Nat) (off : BitVec 12) :
    BitVec.ofNat 64 (th.address ra off) = th.rg ra + off.signExtend 64 := by
  rw [address_eq, BitVec.ofNat_toNat, BitVec.setWidth_eq]

/-- An absolute address at or above the Sideboard's end reaches nothing. -/
theorem sbTarget_none_of_size_le {s : State} {t a n : Nat} (hp : s.profileOf t ≠ .user) (ha : sbdSize ≤ a) :
    s.sbTarget t a n = none := by
  simp [State.sbTarget, hp, Nat.not_lt.mpr ha]

theorem sbRefused_of_not_user {s : State} {t : Nat} (a : Nat) (hp : s.profileOf t ≠ .user) :
    s.sbRefused t a = .raise excSIDEBOARD (some (BitVec.ofNat 64 a)) := by
  simp [State.sbRefused, hp]

/-- Through a seat that takes grants, the bytes are read under the arbiter. -/
theorem sbLoad_of_not_masked {s : State} {t d : Nat} (n : Nat) (hm : s.seatMasked t d = false) :
    s.sbLoad t d n = (leNat ((s.loadGrant (sbCode t) d).sbRead d n), s.loadGrant (sbCode t) d) := by
  simp [State.sbLoad, hm]

/-! ### Loads by space (R180, R181) -/

theorem register_space_not_local : ¬ (3 : Nat) = 0 := by decide
theorem sideboard_space_not_local : ¬ (1 : Nat) = 0 := by decide
theorem sideboard_space_not_registers : ¬ (1 : Nat) = 3 := by decide

section
variable {s : State} {t sp w a : Nat} {th : Thread} (k : Nat → State → Issued)

theorem loadSpace_misaligned (ha : a % 2 ^ w ≠ 0) :
    s.loadSpace t th sp w a k = .raise excALIGN (some (BitVec.ofNat 64 a)) := by
  simp only [State.loadSpace, if_pos ha]

theorem loadSpace_outside_local (ha : a % 2 ^ w = 0) (hl : localSize t ≤ a) :
    s.loadSpace t th 0 w a k = .raise excLOCAL (some (BitVec.ofNat 64 a)) := by
  simp only [State.loadSpace, ha, ne_eq, not_true_eq_false, if_false, if_true, if_neg (Nat.not_lt.mpr hl)]

theorem loadSpace_local (ha : a % 2 ^ w = 0) (hl : a < localSize t) :
    s.loadSpace t th 0 w a k = k (leNat (th.localBytes a (2 ^ w))) s := by
  simp only [State.loadSpace, ha, ne_eq, not_true_eq_false, if_false, if_true, if_pos hl]

theorem loadSpace_register (ha : a % 2 ^ w = 0) :
    let x := s.regRead .bureau none (th.csrOf csrVIEW).toNat a 4
    s.loadSpace t th 3 w a k = k x.2.1 x.2.2 := by
  simp only [State.loadSpace, ha, ne_eq, not_true_eq_false, if_false, register_space_not_local, if_true]

theorem loadSpace_outside_sideboard (ha : a % 2 ^ w = 0) (hp : s.profileOf t ≠ .user) (hs : sbdSize ≤ a) :
    s.loadSpace t th 1 w a k = .raise excSIDEBOARD (some (BitVec.ofNat 64 a)) := by
  simp only [State.loadSpace, ha, ne_eq, not_true_eq_false, if_false, sideboard_space_not_local, sideboard_space_not_registers,
    sbTarget_none_of_size_le hp hs, sbRefused_of_not_user a hp]

theorem loadSpace_sideboard {d : Nat} (ha : a % 2 ^ w = 0) (hd : s.sbTarget t a (2 ^ w) = some d)
    (hw : s.isLockWindow t d = false) (hm : s.seatMasked t d = false) :
    let g := s.loadGrant (sbCode t) d
    s.loadSpace t th 1 w a k = k (leNat (g.sbRead d (2 ^ w))) g := by
  simp only [State.loadSpace, ha, ne_eq, not_true_eq_false, if_false, sideboard_space_not_local,
    sideboard_space_not_registers, hd, hw, Bool.false_eq_true, sbLoad_of_not_masked (2 ^ w) hm]

end

/-! ### Stores by space (R180, R181) -/

section
variable {s : State} {t sp w a : Nat} {th : Thread} {v : DWord}

theorem storeSpace_misaligned (ha : a % 2 ^ w ≠ 0) :
    s.storeSpace t th sp w a v = .raise excALIGN (some (BitVec.ofNat 64 a)) := by
  simp only [State.storeSpace, if_pos ha]

theorem storeSpace_outside_local (ha : a % 2 ^ w = 0) (hl : localSize t ≤ a ∨ (t < 512 ∧ a < 64)) :
    s.storeSpace t th 0 w a v = .raise excLOCAL (some (BitVec.ofNat 64 a)) := by
  simp only [State.storeSpace, ha, ne_eq, not_true_eq_false, if_false, if_true, if_pos hl]

theorem storeSpace_local (ha : a % 2 ^ w = 0) (hl : a < localSize t) (hb : t < 512 → 64 ≤ a) :
    s.storeSpace t th 0 w a v = .goes (s.onThread t fun y => y.storeLocal a (leBytes (2 ^ w) v.toNat)) (th.pc + 4) := by
  have inside : ¬ (localSize t ≤ a ∨ (t < 512 ∧ a < 64)) := by omega
  simp only [State.storeSpace, ha, ne_eq, not_true_eq_false, if_false, if_true, if_neg inside]

theorem storeSpace_register (ha : a % 2 ^ w = 0) :
    s.storeSpace t th 3 w a v = .goes (s.regWrite .bureau (s.lockWho t) a 4 (v.toNat % 2 ^ 32)).2 (th.pc + 4) := by
  simp only [State.storeSpace, ha, ne_eq, not_true_eq_false, if_false, register_space_not_local, if_true]

theorem storeSpace_sideboard {d : Nat} (ha : a % 2 ^ w = 0) (hd : s.sbTarget t a (2 ^ w) = some d)
    (hw : s.isLockWindow t d = false) (hs : s.storeStalls (sbCode t) d = false) :
    s.storeSpace t th 1 w a v = .goes (s.postStore (sbCode t) d (leBytes (2 ^ w) v.toNat) t) (th.pc + 4) := by
  simp only [State.storeSpace, ha, ne_eq, not_true_eq_false, if_false, sideboard_space_not_local,
    sideboard_space_not_registers, hd, hw, hs, Bool.false_eq_true]

end

end Sys2Proof.Machine
end

