-- ==== Sys2Proof/Proofs/Memory.lean ====
section
/-! SUPPORT. LOAD, LOADS, STORE and AADD on a thread, from what the access to their space does. -/

namespace Sys2Proof.Machine

open Sys2Proof.Reg

/-- What a load word with operands `ra` and `off` does at its address, `k` being what it does with the value read. -/
abbrev State.operandLoad (s : State) (t ra sp w : Nat) (off : BitVec 12) (k : Nat → State → Issued) : Issued :=
  (s.countIssue t).loadSpace t (s.thread t) sp w ((s.thread t).address ra off) k

/-- What a store word with operands `rt`, `ra` and `off` does at its address. -/
abbrev State.operandStore (s : State) (t rt ra sp w : Nat) (off : BitVec 12) : Issued :=
  (s.countIssue t).storeSpace t (s.thread t) sp w ((s.thread t).address ra off) ((s.thread t).rg rt)

section
variable {s : State} {t rt ra sp w : Nat} {off : BitVec 12}

/-- A load that reads `n` and leaves `u` writes `n` zero-extended into rt. -/
theorem exec_load_reads (hok : (Instr.load t rt ra sp w off).wellFormed = true) (ht : s.takes = true)
    (hi : s.issues t (.mem .load rt ra sp w off.toNat) = true) {n : Nat} {u : State}
    (h : ∀ k, s.operandLoad t ra sp w off k = k n u) :
    exec (.load t rt ra sp w off) s =
      .next ((s.movesOn (u.onThread t fun y => y.setG rt (BitVec.ofNat 64 n)) t).keepQueue s) :=
  command_word_next hok ht hi (h _)

theorem exec_load_raises (hok : (Instr.load t rt ra sp w off).wellFormed = true) (ht : s.takes = true)
    (hi : s.issues t (.mem .load rt ra sp w off.toNat) = true) {e : Nat}
    (h : ∀ k, s.operandLoad t ra sp w off k =
      .raise e (some (BitVec.ofNat 64 ((s.thread t).address ra off)))) :
    exec (.load t rt ra sp w off) s = .next ((s.trap t e (some ((s.thread t).rg ra + off.signExtend 64))).keepQueue s) := by
  rw [ofNat_address] at h
  exact command_word_raise hok ht (starts_of_issues hi) (h _)

/-- A load that reads `n` and leaves `u` writes `n` sign-extended into rt. -/
theorem exec_loads_reads (hok : (Instr.loads t rt ra sp w off).wellFormed = true) (ht : s.takes = true)
    (hi : s.issues t (.mem .loads rt ra sp w off.toNat) = true) {n : Nat} {u : State}
    (h : ∀ k, s.operandLoad t ra sp w off k = k n u) :
    exec (.loads t rt ra sp w off) s =
      .next ((s.movesOn (u.onThread t fun y => y.setG rt (signExtend w n)) t).keepQueue s) :=
  command_word_next hok ht hi (h _)

/-- A store that its space takes leaves `u`. -/
theorem exec_store_acts (hok : (Instr.store t rt ra sp w off).wellFormed = true) (ht : s.takes = true)
    (hi : s.issues t (.mem .store rt ra sp w off.toNat) = true) {u : State}
    (h : s.operandStore t rt ra sp w off = .goes u ((s.thread t).pc + 4)) :
    exec (.store t rt ra sp w off) s = .next ((s.movesOn u t).keepQueue s) :=
  command_word_next hok ht hi h

theorem exec_store_raises (hok : (Instr.store t rt ra sp w off).wellFormed = true) (ht : s.takes = true)
    (hi : s.issues t (.mem .store rt ra sp w off.toNat) = true) {e : Nat}
    (h : s.operandStore t rt ra sp w off =
      .raise e (some (BitVec.ofNat 64 ((s.thread t).address ra off)))) :
    exec (.store t rt ra sp w off) s = .next ((s.trap t e (some ((s.thread t).rg ra + off.signExtend 64))).keepQueue s) := by
  rw [ofNat_address] at h
  exact command_word_raise hok ht (starts_of_issues hi) h

/-- AADD at an address that is not a multiple of 8 (R182). -/
theorem exec_aadd_misaligned (hok : (Instr.aadd t rt ra off).wellFormed = true) (ht : s.takes = true)
    (hi : s.issues t (.mem .aadd rt ra 1 3 off.toNat) = true) (ha : (s.thread t).address ra off % 8 ≠ 0) :
    exec (.aadd t rt ra off) s =
      .next ((s.trap t excALIGN (some ((s.thread t).rg ra + off.signExtend 64))).keepQueue s) := by
  refine command_word_raise hok ht (starts_of_issues hi) ?_
  simp only [if_pos ha, ofNat_address]

/-- AADD on a Sideboard word: the old word into rt, the sum into the Sideboard (R182). -/
theorem exec_aadd_adds {d : Nat} (hok : (Instr.aadd t rt ra off).wellFormed = true) (ht : s.takes = true)
    (hi : s.issues t (.mem .aadd rt ra 1 3 off.toNat) = true) (ha : (s.thread t).address ra off % 8 = 0)
    (hd : (s.countIssue t).sbTarget t ((s.thread t).address ra off) 8 = some d)
    (hw : (s.countIssue t).isLockWindow t d = false) (hm : (s.countIssue t).seatMasked t d = false) :
    let g := (s.countIssue t).loadGrant (sbCode t) d
    let old := leNat (g.sbRead d 8)
    exec (.aadd t rt ra off) s = .next ((s.movesOn ((g.sbWrite d (leBytes 8 (old + ((s.thread t).rg rt).toNat))).onThread t
      fun y => y.setG rt (BitVec.ofNat 64 old)) t).keepQueue s) := by
  refine command_word_next hok ht hi ?_
  simp only [ha, ne_eq, not_true_eq_false, if_false, hd, hw, hm, Bool.false_eq_true, sbLoad_of_not_masked 8 hm, writeNext]

end

/-- Settles O20, by the space that the address lies in: each clause is the word's end with what the access does there. -/
theorem loadsAndStores : Obligations.LoadsAndStores := by
  intro s t rt ra sp w off ht hrt hra hsp hw th a ea u v raises leaves load loads store toRt sx
  have hload : (Instr.load t rt ra sp w off).wellFormed = true := by simp [Instr.wellFormed, hrt, hra, hsp, hw]
  have hloads : (Instr.loads t rt ra sp w off).wellFormed = true := hload
  have hstore : (Instr.store t rt ra sp w off).wellFormed = true := hload
  have haadd : (Instr.aadd t rt ra off).wellFormed = true := by simp [Instr.wellFormed, hrt, hra]
  have addr : a = th.address ra off := (address_eq th ra off).symm
  rw [addr]
  refine ⟨fun hi => ⟨?loadMisaligned, ?loadOutsideLocal, ?loadOutsideSideboard, ?loadLocal, ?loadSideboard, ?loadRegister⟩,
    fun hi => ⟨?loadsLocal, ?loadsSideboard⟩,
    fun hi => ⟨?storeMisaligned, ?storeOutsideLocal, ?storeLocal, ?storeSideboard, ?storeRegister⟩,
    fun hi => ⟨?aaddMisaligned, ?aaddSideboard⟩⟩
  case loadMisaligned =>
    exact fun ha => exec_load_raises hload ht hi fun k => loadSpace_misaligned k ha
  case loadOutsideLocal =>
    rintro ha rfl hl
    exact exec_load_raises hload ht hi fun k => loadSpace_outside_local k ha hl
  case loadOutsideSideboard =>
    rintro ha rfl hp hs
    exact exec_load_raises hload ht hi fun k => loadSpace_outside_sideboard k ha hp hs
  case loadLocal =>
    rintro ha rfl hl
    exact exec_load_reads hload ht hi fun k => loadSpace_local k ha hl
  case loadSideboard =>
    rintro d ha rfl hd hlw hm
    exact exec_load_reads hload ht hi fun k => loadSpace_sideboard k ha hd hlw hm
  case loadRegister =>
    rintro ha rfl
    exact exec_load_reads hload ht hi fun k => loadSpace_register k ha
  case loadsLocal =>
    rintro ha rfl hl
    exact exec_loads_reads hloads ht hi fun k => loadSpace_local k ha hl
  case loadsSideboard =>
    rintro d ha rfl hd hlw hm
    exact exec_loads_reads hloads ht hi fun k => loadSpace_sideboard k ha hd hlw hm
  case storeMisaligned =>
    exact fun ha => exec_store_raises hstore ht hi (storeSpace_misaligned ha)
  case storeOutsideLocal =>
    rintro ha rfl hl
    exact exec_store_raises hstore ht hi (storeSpace_outside_local ha hl)
  case storeLocal =>
    rintro ha rfl hl hb
    exact exec_store_acts hstore ht hi (storeSpace_local ha hl hb)
  case storeSideboard =>
    rintro d ha rfl hd hlw hs
    exact exec_store_acts hstore ht hi (storeSpace_sideboard ha hd hlw hs)
  case storeRegister =>
    rintro ha rfl
    exact exec_store_acts hstore ht hi (storeSpace_register ha)
  case aaddMisaligned => exact exec_aadd_misaligned haadd ht hi
  case aaddSideboard => exact fun d ha hd hlw hm => exec_aadd_adds haadd ht hi ha hd hlw hm

end Sys2Proof.Machine
end

