-- ==== Sys2Proof/Proofs/ThreadControl.lean ====
section
/-! SUPPORT. WAIT, PARK, DROP and END on a thread, from the ticket or the completion that each of them looks at. -/

namespace Sys2Proof.Machine

open Sys2Proof.Reg

/-! ### The ticket a word names (R184) -/

section
variable {s : State} {o n : Nat}

theorem namedTicket_of_number (h : 64 ≤ n) : s.namedTicket o n = none := by
  simp [State.namedTicket, Nat.not_lt.mpr h]

theorem namedTicket_of_absent (h : s.ticket o n = none) : s.namedTicket o n = none := by
  simp [State.namedTicket, h]

theorem namedTicket_of_detached {x : Ticket} (h : s.ticket o n = some x) (hx : x.detached = true) :
    s.namedTicket o n = none := by
  simp [State.namedTicket, h, hx]

theorem namedTicket_of_ticket {x : Ticket} (hn : n < 64) (h : s.ticket o n = some x) (hx : x.detached = false) :
    s.namedTicket o n = some x := by
  simp [State.namedTicket, hn, h, hx]

end

/-- The ticket that a word with operand `ra` names as it issues (R184). -/
abbrev State.operandTicket (s : State) (t ra : Nat) : Option Ticket :=
  (s.countIssue t).namedTicket ((s.countIssue t).ownerOf t) ((s.thread t).rg ra).toNat

/-- Every ticket in the mask of a word with operand `ra` is one that it may name (R183). -/
abbrev State.operandMaskNamed (s : State) (t ra : Nat) : Bool :=
  (maskTickets ((s.thread t).rg ra).toNat).all fun n => ((s.countIssue t).namedTicket ((s.countIssue t).ownerOf t) n).isSome

/-- Every ticket in the mask of a word with operand `ra` is done, once the thread's stores are visible (R183). -/
abbrev State.operandMaskDone (s : State) (t ra : Nat) : Bool :=
  ((s.countIssue t).fenceStores (sbCode t)).allDone ((s.countIssue t).ownerOf t) ((s.thread t).rg ra).toNat

/-! ### The words -/

section
variable {s : State} {t rd ra : Nat}

theorem exec_wait_raises (hok : (Instr.wait t rd ra).wellFormed = true) (ht : s.takes = true)
    (hi : s.issues t (.wait rd ra) = true) (h : s.operandTicket t ra = none) :
    exec (.wait t rd ra) s = .next ((s.trap t excTICKET none).keepQueue s) := by
  refine command_word_raise hok ht (starts_of_issues hi) ?_
  simp only [h]

/-- WAIT of a ticket that is done writes its result and frees the number. -/
theorem exec_wait_done (hok : (Instr.wait t rd ra).wellFormed = true) (ht : s.takes = true)
    (hi : s.issues t (.wait rd ra) = true) {x : Ticket} {v : DWord} (h : s.operandTicket t ra = some x) (hx : x.done = some v) :
    let u := s.countIssue t
    exec (.wait t rd ra) s = .next ((s.movesOn ((u.setTickets (u.ownerOf t)
      (SMap.del ((s.thread t).rg ra).toNat (u.tickets (u.ownerOf t)))).onThread t fun y => y.setG rd v) t).keepQueue s) := by
  refine command_word_next hok ht hi ?_
  simp only [h, hx, writeNext]

/-- WAIT of a ticket that is outstanding holds the thread. -/
theorem exec_wait_holds (hok : (Instr.wait t rd ra).wellFormed = true) (ht : s.takes = true)
    (hi : s.issues t (.wait rd ra) = true) {x : Ticket} (h : s.operandTicket t ra = some x) (hx : x.done = none) :
    exec (.wait t rd ra) s = .next ((s.movesOn ((s.countIssue t).onThread t
      fun y => { y with waiting := some (((s.thread t).rg ra).toNat, rd) }) t).keepQueue s) := by
  refine command_word_next hok ht hi ?_
  simp only [h, hx]

theorem exec_park (hok : (Instr.park t ra).wellFormed = true) (ht : s.takes = true) :
    exec (.park t ra) s = .next ((s.runPark t ra).settle.keepQueue s) :=
  command_next (.park t ra) s (fun s => (s.runPark t ra).settle) hok ht

theorem exec_park_raises (hok : (Instr.park t ra).wellFormed = true) (ht : s.takes = true) (hi : s.issues t (.park ra) = true)
    (h : s.operandMaskNamed t ra = false) :
    exec (.park t ra) s = .next ((s.trap t excTICKET none).settle.keepQueue s) := by
  have word : s.runPark t ra = s.trap t excTICKET none :=
    runWord_raise s t _ _ (starts_of_issues hi) _ _ (by simp only [h, Bool.not_false, if_true])
  rw [exec_park hok ht, word]

/-- PARK with every named ticket done makes the thread's stores visible and goes on. -/
theorem exec_park_goesOn (hok : (Instr.park t ra).wellFormed = true) (ht : s.takes = true) (hi : s.issues t (.park ra) = true)
    (h : s.operandMaskNamed t ra = true)
    (hd : s.operandMaskDone t ra = true) :
    exec (.park t ra) s = .next ((s.movesOn ((s.countIssue t).fenceStores (sbCode t)) t).settle.keepQueue s) := by
  have word : s.runPark t ra = s.movesOn ((s.countIssue t).fenceStores (sbCode t)) t :=
    runWord_next s t _ _ hi _ (by simp only [h, hd, Bool.not_true, Bool.false_eq_true, if_false, if_true])
  rw [exec_park hok ht, word]

/-- PARK with a named ticket outstanding keeps g16 to g31 and the resume address, and frees the thread. -/
theorem exec_park_parks (hok : (Instr.park t ra).wellFormed = true) (ht : s.takes = true) (hi : s.issues t (.park ra) = true)
    (h : s.operandMaskNamed t ra = true)
    (hd : s.operandMaskDone t ra = false) :
    let o := (s.countIssue t).ownerOf t
    let w := ((s.countIssue t).fenceStores (sbCode t)).updFrame o fun c =>
      { c with saved := (s.thread t).kept, resumePc := (s.thread t).pc + 4, phase := .parked ((s.thread t).rg ra).toNat }
    exec (.park t ra) s =
      .next ((((w.bump BNC_PARKS 0 (w.cmdAttr (some o))).freeThread t).countSlot t 1).settle.keepQueue s) := by
  intro o w
  have word : s.runPark t ra = ((w.bump BNC_PARKS 0 (w.cmdAttr (some o))).freeThread t).countSlot t 1 :=
    runWord_left s t _ _ hi _ (by simp only [h, hd, Bool.not_true, Bool.false_eq_true, if_false, w, o])
  rw [exec_park hok ht, word]

theorem exec_drop_raises (hok : (Instr.drop t ra).wellFormed = true) (ht : s.takes = true) (hi : s.issues t (.drop ra) = true)
    (h : s.operandTicket t ra = none) :
    exec (.drop t ra) s = .next ((s.trap t excTICKET none).keepQueue s) := by
  refine command_word_raise hok ht (starts_of_issues hi) ?_
  simp only [h]

/-- DROP of a ticket that is done discards its result. -/
theorem exec_drop_done (hok : (Instr.drop t ra).wellFormed = true) (ht : s.takes = true) (hi : s.issues t (.drop ra) = true)
    {x : Ticket} (h : s.operandTicket t ra = some x)
    (hx : x.done.isSome = true) :
    let u := s.countIssue t
    exec (.drop t ra) s = .next ((s.movesOn (u.setTickets (u.ownerOf t)
      (SMap.del ((s.thread t).rg ra).toNat (u.tickets (u.ownerOf t)))) t).keepQueue s) := by
  refine command_word_next hok ht hi ?_
  simp only [h, hx, if_true]

/-- DROP of a ticket that is outstanding detaches it. -/
theorem exec_drop_detaches (hok : (Instr.drop t ra).wellFormed = true) (ht : s.takes = true) (hi : s.issues t (.drop ra) = true)
    {x : Ticket} (h : s.operandTicket t ra = some x)
    (hx : x.done = none) :
    let u := s.countIssue t
    exec (.drop t ra) s = .next ((s.movesOn (u.updTicket (u.ownerOf t) ((s.thread t).rg ra).toNat
      fun z => { z with detached := true }) t).keepQueue s) := by
  refine command_word_next hok ht hi ?_
  simp only [h, hx, Option.isSome_none, Bool.false_eq_true, if_false]

theorem exec_end_raises (ht : s.takes = true) (hi : s.starts t .endThread = true)
    (h : ((s.countIssue t).frame ((s.countIssue t).ownerOf t)).bind (·.comp) = none) :
    exec (.endThread t) s = .next ((s.trap t excNO_COMPLETION none).keepQueue s) := by
  refine command_word_raise rfl ht hi ?_
  simp only [h, Option.isNone_none, if_true]

/-- END after the completion request ends the handler. -/
theorem exec_end_ends (ht : s.takes = true) (hi : s.starts t .endThread = true)
    (h : (((s.countIssue t).frame ((s.countIssue t).ownerOf t)).bind (·.comp)).isSome = true) :
    let u := s.countIssue t
    exec (.endThread t) s = .next (((u.endHandler t (u.ownerOf t)).settle.countSlot t 1).keepQueue s) := by
  refine command_word_over rfl ht hi ?_
  obtain ⟨c, hc⟩ := Option.isSome_iff_exists.mp h
  simp only [hc, Option.isNone_some, Bool.false_eq_true, if_false]

end

/-- Settles O21, by the ticket or the completion that each word finds. -/
theorem threadControlActs : Obligations.ThreadControlActs := by
  intro s t rd ra n ht hrd hra hn th u o k raises leaves writes v
  have hwait : (Instr.wait t rd ra).wellFormed = true := by simp [Instr.wellFormed, hrd, hra]
  have hpark : (Instr.park t ra).wellFormed = true := by simp [Instr.wellFormed, hra]
  have hdrop : (Instr.drop t ra).wellFormed = true := hpark
  have hrdtime : (Instr.rdtime t rd).wellFormed = true := by simp [Instr.wellFormed, hrd]
  have hrdc : (Instr.rdc t rd n).wellFormed = true := by
    have hn' : n < 32 := by omega
    simp [Instr.wellFormed, hrd, hn']
  refine ⟨fun hi => ⟨?waitNumber, ?waitAbsent, ?waitDetached, ?waitDone, ?waitHolds⟩, fun hi hall => ⟨?parkGoesOn, ?parkParks⟩,
    ?parkRaises, fun hi => ⟨?dropRaises, ?dropDone, ?dropDetaches⟩, fun hi => ⟨?endRaises, ?endEnds⟩, ?rdtime, ?rdc, ?mfence⟩
  case waitNumber => exact fun hk => exec_wait_raises hwait ht hi (namedTicket_of_number hk)
  case waitAbsent => exact fun hx => exec_wait_raises hwait ht hi (namedTicket_of_absent hx)
  case waitDetached => exact fun x hx hd => exec_wait_raises hwait ht hi (namedTicket_of_detached hx hd)
  case waitDone => exact fun x v hk hx hd => exec_wait_done hwait ht hi (namedTicket_of_ticket hk hx hd)
  case waitHolds => exact fun x hk hx hd => exec_wait_holds hwait ht hi (namedTicket_of_ticket hk hx hd)
  case parkGoesOn => exact exec_park_goesOn hpark ht hi hall
  case parkParks => exact exec_park_parks hpark ht hi hall
  case parkRaises => exact exec_park_raises hpark ht
  case dropRaises => exact exec_drop_raises hdrop ht hi
  case dropDone => exact fun x hx hd => exec_drop_done hdrop ht hi hx hd
  case dropDetaches => exact fun x hx hd => exec_drop_detaches hdrop ht hi hx hd
  case endRaises => exact exec_end_raises ht hi
  case endEnds => exact exec_end_ends ht hi
  case rdtime => exact fun hi => command_word_next hrdtime ht hi rfl
  case rdc =>
    intro c hi hc
    refine command_word_next hrdc ht hi ?_
    have hcmd : (s.countIssue t).threadCmd t = some c := hc
    simp only [hcmd, Option.map_some, Option.getD_some]
    rfl
  case mfence => exact fun hi => command_word_next rfl ht hi rfl

end Sys2Proof.Machine
end

