-- ==== Sys2Proof/Proofs/RegisterWords.lean ====
section
/-! SUPPORT. Event words, counters and latching words through a path that may access them (R6, R8, R38). -/

namespace Sys2Proof.Machine

open Sys2Proof.Reg

/-- Which words command registers hold is no matter of the state. -/
theorem commandWrite_eq_none_of_eq_none {s : State} {p : Path} {who : LockOwner} {a : Nat} {ra : RegAt} {w : Nat}
    (h : s.commandWrite p who a ra w = none) (u : State) : u.commandWrite p who a ra w = none := by
  have same : (u.commandWrite p who a ra w).isSome = (s.commandWrite p who a ra w).isSome := by
    unfold State.commandWrite
    simp only [apply_ite Option.isSome, Option.isSome_some, Option.isSome_none]
  simpa [h] using same

theorem logReserved_of_zero {s : State} {p : Path} {a : Nat} {ra : RegAt} {w : Nat} (h : reservedBits ra.reg ra.off w = 0) :
    s.logReserved p a ra w = s := by
  simp only [State.logReserved, h, if_true]

/-- A write of a word of class C that no command register holds, its reserved bits 0. -/
theorem writeWord_of_writesC {s : State} {p : Path} {who : LockOwner} {a : Nat} {ra : RegAt} {w : Nat}
    (hr : reservedBits ra.reg ra.off w = 0) (hc : writesC ra = true) (hn : s.commandWrite p who a ra w = none) :
    s.writeWord p who a ra w = (s.clearBits ra w).storeC ra w := by
  simp only [State.writeWord, hc, true_or, if_true, logReserved_of_zero hr, commandWrite_eq_none_of_eq_none hn]

theorem regWrite_of_access {s : State} {p : Path} {a w : Nat} {ra : RegAt} (who : LockOwner) (h : s.access p true a 4 = .ok ra) :
    (s.regWrite p who a 4 w).2 = s.writeWord p who a ra w := by
  simp only [State.regWrite, h]

/-- A word that neither latches nor is latched reads as it stands. -/
theorem latchedWord_of_live {s : State} {p : Path} {sub : Option Nat} {view a : Nat} {ra : RegAt}
    (hl : latching.contains (ra.reg.addr, ra.off) = false) (ho : ra.off < 4) :
    s.latchedWord p sub view a ra = (s.liveWord p sub view ra.reg ra.inst ra.off, s) := by
  have high : ¬ (4 ≤ ra.off ∧ latching.contains (ra.reg.addr, ra.off - 4) = true) := fun h => absurd h.1 (Nat.not_le.mpr ho)
  simp only [State.latchedWord, hl, Bool.false_eq_true, if_false, if_neg high]

/-- A low word latches its high word of the same instant. -/
theorem latchedWord_of_latching {s : State} {p : Path} {sub : Option Nat} {view a : Nat} {ra : RegAt}
    (hl : latching.contains (ra.reg.addr, ra.off) = true) :
    s.latchedWord p sub view a ra = (s.liveWord p sub view ra.reg ra.inst ra.off, { s with regs := { s.regs with
      latch := SMap.put (latchKey p a) (s.liveWord p sub view ra.reg ra.inst (ra.off + 4)) s.regs.latch } }) := by
  simp only [State.latchedWord, hl, if_true]

/-- A read answers the word that its path sees, and clears the word's counters. -/
theorem readAnswer_of_latchedWord {s u : State} {p : Path} {a v : Nat} {ra : RegAt} (h : s.access p false a 4 = .ok ra)
    (hw : ra.reg.addr ≠ EVR_WINDOW_DATA.addr) (hv : s.latchedWord p none (s.viewOf p 1) a ra = (v, u)) :
    s.readAnswer p a = (u.clearCounters ra).answerRead p [v] := by
  simp only [State.readAnswer, State.regRead, h, State.readWord, if_neg hw, hv]

/-- Settles O2: each access, taken by its path, acts by the fields and the latch of its word. -/
theorem clearOnWriteAndReadThenCoincide : Obligations.ClearOnWriteAndReadThenCoincide := by
  intro s p a w co ra ht
  refine ⟨?w1c, ?rc, ?lowWord⟩
  case w1c =>
    intro hw ha hf hr hc hn
    have hok : (Instr.w1cWrite p a w co).wellFormed = true := decide_eq_true hw
    have acts : s.w1cWrite p a w co = ((s.clearBits ra w).storeC ra w).setCoincident ra co := by
      simp only [State.w1cWrite, regWrite_of_access _ ha, writeWord_of_writesC hr hc hn, hf]
    rw [← acts]
    exact command_next (.w1cWrite p a w co) s (·.w1cWrite p a w co) hok ht
  case rc =>
    intro ha hf hw hl ho u
    have acts : s.rcRead p a co = if co = 0 then u else u.countCoincident ra co := by
      simp only [State.rcRead, readAnswer_of_latchedWord ha hw (latchedWord_of_live hl ho), hf, u]
    rw [← acts]
    exact command_next (.rcRead p a co) s (·.rcRead p a co) rfl ht
  case lowWord =>
    intro ha hw hl word high u
    have acts : s.readAnswer p a = (u.clearCounters ra).answerRead p [word ra.off] :=
      readAnswer_of_latchedWord ha hw (latchedWord_of_latching hl)
    rw [← acts]
    exact command_next (.lowWordRead p a) s (·.readAnswer p a) rfl ht

end Sys2Proof.Machine
end

