-- ==== Sys2Proof/Proofs/Resets.lean ====
section
/-! SUPPORT. The resets by phase, and what a state held in reset keeps and loses (R422 to R429, R447). -/

namespace Sys2Proof.Machine

open Sys2Proof.Reg

/-- A reset, or its end, acts while the device is held too. -/
theorem commandAlways_of_eq {s u : State} {f : State → State} (h : f s = u) :
    commandAlwaysIf true s f = .next (u.keepQueue s) := by
  rw [commandAlwaysIf_next _ _ _ rfl, h]

/-! ### By phase -/

section
variable {s : State}

/-- A device that takes commands is not in reset. -/
theorem phase_of_takes (h : s.takes = true) : s.top.phase = .run := by
  simpa [State.held] using takes_held s h

theorem resettable_iff : s.resettable = true ↔ s.top.phase ≠ .powerOn ∧ s.top.phase ≠ .tripped := by
  simp [State.resettable]

theorem warmReset_of_resettable (src : Nat) (hp : s.top.phase ≠ .powerOn) (ht : s.top.phase ≠ .tripped) :
    s.warmReset src = (s.cleared .warm false).setCause (s.reg TOP_RSTCAUSE_UNIT) scopeWarm src false := by
  simp only [State.warmReset, if_pos (resettable_iff.mpr ⟨hp, ht⟩)]

theorem warmReset_of_not_resettable (src : Nat) (h : s.top.phase = .powerOn ∨ s.top.phase = .tripped) :
    s.warmReset src = s := by
  have notResettable : ¬ s.resettable = true := by
    rw [resettable_iff]
    rintro ⟨notPowerOn, notTripped⟩
    exact h.elim notPowerOn notTripped
  simp only [State.warmReset, if_neg notResettable]

theorem shelfReset_of_run (src : Nat) (h : s.top.phase = .run) :
    s.shelfReset src = ({ s with top := { s.top with phase := .shelfEntry, blkrst := [] } } : State).setCause
      (s.reg TOP_RSTCAUSE_UNIT) scopeShelf src false := by
  simp only [State.shelfReset, if_pos h]

theorem shelfReset_of_not_run (src : Nat) (h : s.top.phase ≠ .run) : s.shelfReset src = s := by
  simp only [State.shelfReset, if_neg h]

theorem selfRefreshed_of_shelfEntry (h : s.top.phase = .shelfEntry) :
    s.selfRefreshed =
      (s.cleared .shelf true).setCause (s.reg TOP_RSTCAUSE_UNIT) scopeShelf (s.reg TOP_RSTCAUSE_SOURCE) true := by
  simp only [State.selfRefreshed, if_pos h]

theorem selfRefreshed_of_not_shelfEntry (h : s.top.phase ≠ .shelfEntry) : s.selfRefreshed = s := by
  simp only [State.selfRefreshed, if_neg h]

theorem topReset_of_key (f : State → State) : s.topReset 0xC0DE f = f s := by
  simp only [State.topReset, if_true]

theorem topReset_of_other_key {key : Nat} (f : State → State) (h : key ≠ 0xC0DE) :
    s.topReset key f = s.raise TOP_EVENT_RESET_REFUSED := by
  simp only [State.topReset, if_neg h]

/-- TOP_RESET on a path that may write it acts by its key. -/
theorem exec_warmResetCmd {p : Path} {key : Nat} (ht : s.takes = true) (hk : key < 2 ^ 16)
    (hm : s.mayWrite p TOP_RESET_OP.addr = true) :
    exec (.warmResetCmd p key) s = .next ((s.topReset key (·.warmReset 1)).keepQueue s) :=
  commandIf_path _ s p _ _ (decide_eq_true hk) ht hm

theorem exec_shelfResetCmd {p : Path} {key : Nat} (ht : s.takes = true) (hk : key < 2 ^ 16)
    (hm : s.mayWrite p TOP_RESET_OP.addr = true) :
    exec (.shelfResetCmd p key) s = .next ((s.topReset key (·.shelfReset 1)).keepQueue s) :=
  commandIf_path _ s p _ _ (decide_eq_true hk) ht hm

end

/-! ### What a reset keeps -/

/-- The fused SVN is kept, beside the SEQ that the recorder areas give (R392, R406). -/
theorem cleared_svnFused (s : State) (ph : ResetPhase) (kept : Bool) :
    (s.cleared ph kept).reg FWU_SVN_FUSED = s.reg FWU_SVN_FUSED := by
  have apart : FWU_SVN_FUSED.key 0 ≠ EVR_SEQ_SEQ.key 0 := by decide
  calc (s.cleared ph kept).reg FWU_SVN_FUSED
      = SMap.get 0 (storeField 0 (EVR_SEQ_SEQ.key 0) s.evr.nextSeq
          (storeField 0 (FWU_SVN_FUSED.key 0) (s.reg FWU_SVN_FUSED) [])) (FWU_SVN_FUSED.key 0) := rfl
    _ = SMap.get 0 (storeField 0 (FWU_SVN_FUSED.key 0) (s.reg FWU_SVN_FUSED) []) (FWU_SVN_FUSED.key 0) :=
        get_storeField_other _ _ _ _ apart
    _ = s.reg FWU_SVN_FUSED := get_storeField_same _ _ _ rfl

/-- Unless preserved, the Sideboard's memory is lost. -/
theorem cleared_memory_lost (s : State) (ph : ResetPhase) : (s.cleared ph false).sbd.mem = [] := rfl

/-- Every scope but the release holds the part. -/
theorem cleared_held (s : State) (ph : ResetPhase) (kept : Bool) (h : ph ≠ .run) : (s.cleared ph kept).held = true :=
  bne_iff_ne.mpr h

/-- Settles O45: each reset by the phase it meets, and what the state it leaves keeps. -/
theorem resetsClearWhatTheyDoNotKeep : Obligations.ResetsClearWhatTheyDoNotKeep := by
  intro s leaves caused unit warm shelf
  refine ⟨rfl, ?warm, ?ignored, ?shelf, ?selfRefresh, ?noSelfRefresh, rfl, ?command, ?keeps⟩
  case warm =>
    intro hp ht
    exact commandAlways_of_eq (warmReset_of_resettable 0 hp ht)
  case ignored =>
    intro h
    have notRun : s.top.phase ≠ .run := by rcases h with h | h <;> rw [h] <;> decide
    exact ⟨commandAlways_of_eq (warmReset_of_not_resettable 0 h),
      commandAlways_of_eq (shelfReset_of_not_run 0 notRun)⟩
  case shelf =>
    intro h
    exact commandAlways_of_eq (shelfReset_of_run 0 h)
  case selfRefresh =>
    intro h
    exact commandAlways_of_eq (selfRefreshed_of_shelfEntry h)
  case noSelfRefresh =>
    intro h
    exact commandAlways_of_eq (selfRefreshed_of_not_shelfEntry h)
  case command =>
    intro p key ht hk hm
    refine ⟨?_, fun other => ⟨?_, ?_⟩⟩
    · rintro rfl h
      have acts : s.top.phase ≠ .powerOn ∧ s.top.phase ≠ .tripped := by rw [h]; decide
      refine ⟨(exec_warmResetCmd ht hk hm).trans ?_, (exec_shelfResetCmd ht hk hm).trans ?_⟩
      · rw [topReset_of_key, warmReset_of_resettable 1 acts.1 acts.2]; rfl
      · rw [topReset_of_key, shelfReset_of_run 1 h]; rfl
    · rw [exec_warmResetCmd ht hk hm, topReset_of_other_key _ other]
    · rw [exec_shelfResetCmd ht hk hm, topReset_of_other_key _ other]
  case keeps =>
    intro ph kept u
    have ledgerMedia : u.ldg.media = s.ldg.media := by cases kept <;> rfl
    refine ⟨rfl, rfl, rfl, rfl, ledgerMedia, rfl, rfl, rfl, rfl, rfl, rfl, rfl, rfl, rfl, cleared_svnFused s ph kept, rfl, rfl,
      ?_, cleared_held s ph kept⟩
    rintro rfl
    exact cleared_memory_lost s ph

end Sys2Proof.Machine
end

