-- ==== Sys2Proof/Proofs/Gates.lean ====
section
/-! SUPPORT. Which gate each command passes, what every command answers, and a boundary that is owed (R19, R36, R422, R432). -/

namespace Sys2Proof.Machine

/-! ### Which gate a command passes -/

/-- The command passes `command`: a held device ignores it, and a boundary that is owed comes before it. The others are the
resets and their ends, the trip, BOOT, the input clocks, a sensor's reading and the boundary itself. -/
def gated : Instr → Bool
  | .powerOnReset | .warmReset | .shelfReset | .selfRefreshDone | .thermalTrip | .boot => false
  | .clockLoss _ | .clockReturn _ | .thermalWarning _ _ | .epochBoundary => false
  | _ => true

theorem gated_cases (i : Instr) :
    gated i = true ∨ i ∈ [Instr.powerOnReset, .warmReset, .shelfReset, .selfRefreshDone, .thermalTrip, .boot, .epochBoundary] ∨
      (∃ c, i = .clockLoss c ∨ i = .clockReturn c) ∨ ∃ k t, i = .thermalWarning k t := by
  unfold gated
  split <;> simp

/-- A gated command checks the operand ranges of WellFormed and no others, and is then one effect behind the gate. -/
theorem exec_of_gated {i : Instr} (h : gated i = true) : ∃ f, ∀ s, exec i s = command i s f := by
  unfold exec
  cases i with
  | powerOnReset | warmReset | shelfReset | selfRefreshDone | thermalTrip | boot => exact absurd h Bool.false_ne_true
  | clockLoss | clockReturn | thermalWarning | epochBoundary => exact absurd h Bool.false_ne_true
  | _ => exact ⟨_, fun _ => rfl⟩

/-- A sensor's reading passes the gate of the resets while the device is held (R448). -/
theorem exec_thermalWarning_of_held (k t : Nat) {s : State} (h : s.held = true) :
    exec (.thermalWarning k t) s =
      commandAlwaysIf (Instr.thermalWarning k t).wellFormed s fun s => if s.trips k t then s.trip else s :=
  if_pos h

/-- A sensor's reading passes the gate of the other commands while the device is not held (R446). -/
theorem exec_thermalWarning_of_not_held (k t : Nat) {s : State} (h : s.held = false) :
    exec (.thermalWarning k t) s = command (.thermalWarning k t) s (·.sensorReads k t) :=
  if_neg (by simp [h])

/-! ### What every command answers -/

/-- An effect that a held device ignores, as an effect that the device always runs: it leaves a held one as it is. -/
theorem commandAtOnce_eq_commandAlwaysIf (ok : Bool) (s : State) (f : State → State) :
    commandAtOnce ok s f = commandAlwaysIf ok s fun s => if s.held then s else f s := by
  cases hh : s.held <;> simp [commandAtOnce, commandAlwaysIf, hh]

theorem command_eq_commandAlwaysIf (i : Instr) (s : State) (f : State → State) :
    command i s f = commandAlwaysIf i.wellFormed s fun s => if s.held then s else f s.epochBoundary :=
  commandAtOnce_eq_commandAlwaysIf _ s fun s => f s.epochBoundary

/-- Whichever gate it passes, a command checks its operand ranges and then answers the next state of an effect. -/
theorem exec_eq_commandAlwaysIf (i : Instr) (s : State) : ∃ f, exec i s = commandAlwaysIf i.wellFormed s f := by
  rcases gated_cases i with hg | hi | ⟨c, rfl | rfl⟩ | ⟨k, t, rfl⟩
  · obtain ⟨f, hf⟩ := exec_of_gated hg
    exact ⟨_, (hf s).trans (command_eq_commandAlwaysIf ..)⟩
  · simp only [List.mem_cons, List.not_mem_nil, or_false] at hi
    rcases hi with rfl | rfl | rfl | rfl | rfl | rfl | rfl
    case inr.inr.inr.inr.inr.inr => exact ⟨_, commandAtOnce_eq_commandAlwaysIf _ s State.epochBoundary⟩
    all_goals exact ⟨_, rfl⟩
  · exact ⟨(·.clockLost c), rfl⟩
  · exact ⟨(·.clockReturns c), rfl⟩
  · cases hh : s.held with
    | true => exact ⟨_, exec_thermalWarning_of_held k t hh⟩
    | false => exact ⟨_, (exec_thermalWarning_of_not_held k t hh).trans (command_eq_commandAlwaysIf ..)⟩

/-! ### A boundary that is owed -/

theorem State.keepQueue_congr (t : State) {s u : State} (h : s.pending = u.pending) : t.keepQueue s = t.keepQueue u := by
  simp only [State.keepQueue, h]

/-- A gated command acts on the state that the boundary leaves, and leaves the queue it was given. -/
theorem command_of_not_held (i : Instr) (s : State) (f : State → State) (hok : i.wellFormed = true) (h : s.held = false) :
    command i s f = .next ((f s.epochBoundary).keepQueue s) := by
  simp [command, commandIf, commandAtOnce, hok, h]

/-- A gated command answers what it would answer had the boundary run before it. -/
theorem command_epochBoundary (i : Instr) (s : State) (f : State → State) (hok : i.wellFormed = true) (h : s.held = false)
    (ht : s.epochBoundary.takes = true) (hq : s.epochBoundary.pending = s.pending) :
    command i s f = command i s.epochBoundary f := by
  rw [command_of_not_held i s f hok h, command_next i _ f hok ht, State.keepQueue_congr _ hq]

/-- Every command but the resets, their ends, the clocks and the boundary is gated while the device is not held. -/
theorem exec_of_not_held {i : Instr} (hc : ∀ c, i ≠ .clockLoss c ∧ i ≠ .clockReturn c)
    (hi : i ∉ [Instr.powerOnReset, .warmReset, .shelfReset, .selfRefreshDone, .thermalTrip, .boot, .epochBoundary]) :
    ∃ f, ∀ s : State, s.held = false → exec i s = command i s f := by
  rcases gated_cases i with hg | hi' | ⟨c, hclk⟩ | ⟨k, t, rfl⟩
  · obtain ⟨f, hf⟩ := exec_of_gated hg
    exact ⟨f, fun s _ => hf s⟩
  · exact absurd hi' hi
  · exact absurd hclk (not_or.mpr (hc c))
  · exact ⟨_, fun s hh => exec_thermalWarning_of_not_held k t hh⟩

/-- Settles O50, from the gate that each command passes. -/
theorem everyCommandAnswers : Obligations.EveryCommandAnswers := by
  intro i s
  obtain ⟨f, answer⟩ := exec_eq_commandAlwaysIf i s
  refine ⟨?answers, ?illFormed, ?boundaryFirst⟩
  case answers =>
    rw [answer]
    exact commandAlwaysIf_cases _ _ _
  case illFormed =>
    intro hok
    rw [answer]
    exact commandAlwaysIf_illFormed _ _ _ hok
  case boundaryFirst =>
    intro hok hh ht hq hi hc
    obtain ⟨g, hg⟩ := exec_of_not_held hc hi
    rw [hg s hh, hg s.epochBoundary (takes_held _ ht)]
    exact command_epochBoundary i s g hok hh ht hq

end Sys2Proof.Machine
end

