-- ==== Sys2Proof/Proofs/Channels.lean ====
section
/-! SUPPORT. Slot channels, feeds and the ADC sample: what each operation does in the states that it acts in (R11, R361
to R369, R372). -/

namespace Sys2Proof.Machine

open Sys2Proof.Reg

/-- A command that the device takes leaves what its effect comes to. -/
theorem commandIf_of_eq {ok : Bool} {s u : State} (f : State → State) (hok : ok = true) (ht : s.takes = true) (h : f s = u) :
    commandIf ok s f = .next (u.keepQueue s) := by
  rw [commandIf_next ok s f hok ht, h]

section
variable {s : State} {d : Nat}

/-! ### The Drawer logic's commands (R11, R361) -/

theorem chCommands_iff : s.chCommands = true ↔ s.runs bSLP = true ∧ s.slp.linkSilent = false := by
  simp [State.chCommands]

theorem slotOn_of_off (hc : s.chCommands = true) (h : s.chState d = chOFF) : s.slotOn d = s.chStart d :=
  if_pos ⟨hc, h⟩

theorem slotOn_of_not_chCommands (hc : ¬ s.chCommands = true) : s.slotOn d = s :=
  if_neg fun h => hc h.1

theorem slotOff_of_chCommands (hc : s.chCommands = true) :
    s.slotOff d = (((s.dropPg d).endLimiting d).setReg SLP_CH_RETRIES d 0).setChState d chOFF :=
  if_pos hc

theorem slotOff_of_not_chCommands (hc : ¬ s.chCommands = true) : s.slotOff d = s :=
  if_neg hc

/-! ### START, RAMP and ON (R361, R364, R365) -/

theorem startPhaseEnd_of_start (h : s.chState d = chSTART) :
    s.startPhaseEnd d = s.setChState d (if s.flag SLP_CH_JOINED d then chON else chRAMP) :=
  if_pos h

theorem rampComplete_of_ramp (h : s.chState d = chRAMP) : s.rampComplete d = s.setChState d chON :=
  if_pos h

theorem limitingStart_of_ramp_or_on (h : s.chState d = chRAMP ∨ s.chState d = chON) :
    s.limitingStart d = ((s.setFlag SLP_CH_LIMITING d true).setFlag SLP_CH_TIMER d true).dropPg d :=
  if_pos h

theorem pgAsserts_of_ramp_or_on (h : s.chState d = chRAMP ∨ s.chState d = chON) (ht : s.flag SLP_CH_TIMER d = false) :
    s.pgAsserts d = (s.setFlag SLP_CH_PG d true).setFlag DRV_STATE_PG d true :=
  if_pos ⟨h, by simp [ht]⟩

theorem dropPg_of_pg (h : s.flag SLP_CH_PG d = true) :
    s.dropPg d = ((s.setFlag SLP_CH_PG d false).setFlag DRV_STATE_PG d false).raise SLP_EVENT_PG_LOST :=
  if_pos h

theorem dropPg_of_not_pg (h : s.flag SLP_CH_PG d = false) : s.dropPg d = s :=
  if_neg (by simp [h])

/-! ### Faults and retries (R363, R364, R366) -/

theorem fastTrip_of_start_to_on (h : chSTART ≤ s.chState d ∧ s.chState d ≤ chON) : s.fastTrip d = s.chFault d 1 :=
  if_pos h

theorem timerExpires_of_timer (h : s.flag SLP_CH_TIMER d = true) : s.timerExpires d = s.chFault d 2 :=
  if_pos h

theorem retryStart_of_retryWait (h : s.chState d = chRETRY_WAIT) :
    s.retryStart d = (s.setReg SLP_CH_RETRIES d (min 15 (s.reg SLP_CH_RETRIES d + 1))).chStart d :=
  if_pos h

theorem retriesClear_of_pg (h : s.flag SLP_CH_PG d = true) : s.retriesClear d = s.setReg SLP_CH_RETRIES d 0 :=
  if_pos h

/-! ### Feeds (R369) -/

theorem feedFault_of_on {f : Nat} (cause : Nat) (h : s.reg SLP_FEED_STAT_STATE f = 1) :
    s.feedFault f cause =
      (((s.setReg SLP_FEED_STAT_STATE f 2).setReg SLP_FEED_STAT_CAUSE f cause).raise SLP_EVENT_FEED_FAULT).powerRecord 3 f :=
  if_pos h

end

/-- Settles O39, by the channel's state: each command is its operation in the state that the clause names. -/
theorem channelsStartFaultAndRetry : Obligations.ChannelsStartFaultAndRetry := by
  intro s d ht hd leaves st takes bus out faulted
  have hok : decide (d < 48) = true := decide_eq_true hd
  refine ⟨?on, ?off, ?silent, ?startEnd, ?rampEnd, ?limiting, ?limitingEnd, ?fastTrip, ?timer, ?powerGood, ?pgLost, ?pgWasLost,
    ?retry, ?retriesClear, ?linkSilent, ?linkRecover, ?feeds, ?sample⟩
  case on => exact fun hc h => commandIf_of_eq (·.slotOn d) hok ht (slotOn_of_off (chCommands_iff.mpr hc) h)
  case off => exact fun hc => commandIf_of_eq (·.slotOff d) hok ht (slotOff_of_chCommands (chCommands_iff.mpr hc))
  case silent =>
    intro hc
    have ignores : ¬ s.chCommands = true := fun h => hc (chCommands_iff.mp h)
    exact ⟨commandIf_of_eq (·.slotOn d) hok ht (slotOn_of_not_chCommands ignores),
      commandIf_of_eq (·.slotOff d) hok ht (slotOff_of_not_chCommands ignores)⟩
  case startEnd => exact fun h => commandIf_of_eq (·.startPhaseEnd d) hok ht (startPhaseEnd_of_start h)
  case rampEnd => exact fun h => commandIf_of_eq (·.rampComplete d) hok ht (rampComplete_of_ramp h)
  case limiting => exact fun h => commandIf_of_eq (·.limitingStart d) hok ht (limitingStart_of_ramp_or_on h)
  case limitingEnd => exact commandIf_next _ s (·.endLimiting d) hok ht
  case fastTrip => exact fun hs ho => commandIf_of_eq (·.fastTrip d) hok ht (fastTrip_of_start_to_on ⟨hs, ho⟩)
  case timer => exact fun h => commandIf_of_eq (·.timerExpires d) hok ht (timerExpires_of_timer h)
  case powerGood => exact fun h htimer => commandIf_of_eq (·.pgAsserts d) hok ht (pgAsserts_of_ramp_or_on h htimer)
  case pgLost => exact fun h => commandIf_of_eq (·.dropPg d) hok ht (dropPg_of_pg h)
  case pgWasLost => exact fun h => commandIf_of_eq (·.dropPg d) hok ht (dropPg_of_not_pg h)
  case retry => exact fun h => commandIf_of_eq (·.retryStart d) hok ht (retryStart_of_retryWait h)
  case retriesClear => exact fun h => commandIf_of_eq (·.retriesClear d) hok ht (retriesClear_of_pg h)
  case linkSilent => exact command_next .controlLinkSilent s (·.setLinkSilent true) rfl ht
  case linkRecover => exact command_next .controlLinkRecover s State.powerLinkRecovers rfl ht
  case feeds =>
    intro f hf h fault
    have hok : decide (f < 2) = true := decide_eq_true hf
    exact ⟨commandIf_of_eq (·.feedFault f 0) hok ht (feedFault_of_on 0 h),
      commandIf_of_eq (·.feedFault f 1) hok ht (feedFault_of_on 1 h)⟩
  case sample =>
    intro mv slots feeds u v w
    refine commandIf_of_eq (·.adcSample mv slots feeds) rfl ht ?_
    simp only [State.adcSample, Bool.not_eq_true', u, v, w]

end Sys2Proof.Machine
end

