-- ==== Sys2Proof/Proofs/ReferenceTime.lean ====
section
/-! SUPPORT. The reference-time unit: START and STOP, the edges of a LOCKED unit, PTP messages and losses (R23 to R27,
R31 to R34, R37, R453). -/

namespace Sys2Proof.Machine

open Sys2Proof.Reg

/-! ### Reference edges while LOCKED (R23, R24, R32, R453) -/

section
variable {s : State} {t : Int}

theorem linesRun_of_locked (h : s.reg RTU_STATUS_STATE = rtuLocked) : s.linesRun = true := by
  simp [State.linesRun, h, rtuLocked]

/-- The scheduler's first line comes with the lines that a command starts. -/
theorem firstSchedulerLine_of_linesRun (u : State) (h : s.linesRun = true) : s.firstSchedulerLine u = u := by
  simp [State.firstSchedulerLine, h]

/-- The interval between edges moves RTU_PERIOD alone. -/
theorem measure_eq_setReg (s : State) (t : Int) :
    s.measure t = s ∨ ∃ p, s.measure t = s.setReg RTU_PERIOD_PERIOD 0 p := by
  unfold State.measure
  split
  · split
    · exact .inl rfl
    · exact .inr ⟨_, rfl⟩
  · exact .inl rfl

@[simp] theorem State.measure_rtu (s : State) (t : Int) : (s.measure t).rtu = s.rtu := by
  rcases measure_eq_setReg s t with h | ⟨p, h⟩ <;> simp [h]

theorem reg_measure_other (f : Field) (i : Nat) (h : f.key i ≠ RTU_PERIOD_PERIOD.key 0) :
    (s.measure t).reg f i = s.reg f i := by
  rcases measure_eq_setReg s t with hm | ⟨p, hm⟩
  · rw [hm]
  · rw [hm, State.reg_setReg_other _ _ _ _ _ _ h]

/-- After a qualified edge with no miss between, the period moves by a sixteenth of the difference. -/
theorem period_measure {q : Int} (hr : s.regs.rising) (hl : s.reg RTU_STATUS_STATE = rtuLocked)
    (hq : s.rtu.prevQual = some q) (hm : s.rtu.missedSince = false) :
    (s.measure t).reg RTU_PERIOD_PERIOD = newPeriod (s.reg RTU_PERIOD_PERIOD) (t - q) % 2 ^ 46 := by
  have moves : s.measure t = s.setReg RTU_PERIOD_PERIOD 0 (newPeriod (s.reg RTU_PERIOD_PERIOD) (t - q)) := by
    simp [State.measure, hq, hm, hl, rtuLocked, rtuHoldover]
  rw [moves]
  exact State.reg_setReg_same _ _ _ _ hr

@[simp] theorem State.setPhase_rtu (s : State) (e : Int) : (s.setPhase e).rtu = { s.rtu with phaseErr := e } :=
  State.setReg_rtu ..

/-- The unit as a qualified edge at `t` leaves its counts and its expected position. -/
def State.edgeNoted (s : State) (t : Int) : State :=
  let m := s.measure t
  { m with rtu := { m.rtu with prevEdge := some t, prevQual := some t, missedSince := false, qualRun := m.rtu.qualRun + 1,
                               missRun := 0, expected := some (m.nextExpected t) } }

/-- A qualified edge that a LOCKED unit takes is noted, stamped and gives a phase error. -/
theorem takeEdge_of_qualifies (hl : s.reg RTU_STATUS_STATE = rtuLocked) (hq : s.edgeQualifies t = true) :
    let x := (s.edgeNoted t).gridPos t
    let u := (s.edgeNoted t).setReg RTU_EDGE_STAMP_TIME 0 (x % 2 ^ 64).toNat
    s.takeEdge t = u.setPhase (phaseOf u.rtuM u.rtuD x) := by
  have notStopped : s.reg RTU_STATUS_STATE ≠ rtuStopped := by rw [hl]; decide
  have notWaiting : s.reg RTU_STATUS_STATE ≠ rtuWaitEdge := by rw [hl]; decide
  have notGlitch : ¬ (!s.edgeQualifies t) = true := by simp [hq]
  exact (if_neg notStopped).trans ((if_neg notGlitch).trans ((if_neg notWaiting).trans (if_pos hl)))

/-- An edge that does not qualify counts a glitch. -/
theorem takeEdge_of_not_qualifies (hl : s.reg RTU_STATUS_STATE = rtuLocked) (hq : s.edgeQualifies t = false) :
    s.takeEdge t = ((({ s with rtu := { s.rtu with prevEdge := some t, qualRun := 0, missedSince := true } } :
      State).bump RTU_GLITCHES).raise RTU_EVENT_GLITCH) := by
  have notStopped : s.reg RTU_STATUS_STATE ≠ rtuStopped := by rw [hl]; decide
  have glitch : (!s.edgeQualifies t) = true := by simp [hq]
  exact (if_neg notStopped).trans (if_pos glitch)

/-- The stamp and the phase error leave the counts and the period as the edge left them. -/
theorem takeEdge_edgeNoted (hl : s.reg RTU_STATUS_STATE = rtuLocked) (hq : s.edgeQualifies t = true) :
    (∃ phase, (s.takeEdge t).rtu = { (s.edgeNoted t).rtu with phaseErr := phase }) ∧
      (s.takeEdge t).reg RTU_PERIOD_PERIOD = (s.measure t).reg RTU_PERIOD_PERIOD := by
  have h := takeEdge_of_qualifies hl hq
  have notPhase : RTU_PERIOD_PERIOD.key 0 ≠ RTU_PHASE_ERR_ERR.key 0 := by decide
  have notStamp : RTU_PERIOD_PERIOD.key 0 ≠ RTU_EDGE_STAMP_TIME.key 0 := by decide
  refine ⟨⟨_, by rw [h, State.setPhase_rtu, State.setReg_rtu]⟩, ?_⟩
  rw [h, State.setPhase, State.reg_setReg_other _ _ _ _ _ _ notPhase]
  exact State.reg_setReg_other _ _ _ _ _ _ notStamp

/-- While LOCKED the next position stands one measured period after the one expected now. -/
theorem nextExpected_of_locked {x : Int} (hl : s.reg RTU_STATUS_STATE = rtuLocked) (hx : s.rtu.expected = some x) :
    s.nextExpected t = s.reg RTU_PERIOD_PERIOD + x := by
  simp [State.nextExpected, hl, hx]

/-- What a qualified edge does to a LOCKED unit (R32, R453). -/
theorem takeEdge_steers (hr : s.regs.rising) (hl : s.reg RTU_STATUS_STATE = rtuLocked) (hq : s.edgeQualifies t = true) :
    let v := s.takeEdge t
    v.rtu.prevEdge = some t ∧ v.rtu.prevQual = some t ∧ v.rtu.qualRun = s.rtu.qualRun + 1 ∧ v.rtu.missRun = 0 ∧
      v.rtu.missedSince = false ∧
      (∀ y, s.rtu.expected = some y → v.rtu.expected = some (v.reg RTU_PERIOD_PERIOD + y)) ∧
      ∀ q, s.rtu.prevQual = some q → s.rtu.missedSince = false →
        v.reg RTU_PERIOD_PERIOD = newPeriod (s.reg RTU_PERIOD_PERIOD) (t - q) % 2 ^ 46 := by
  intro v
  obtain ⟨⟨phase, rtu⟩, period⟩ := takeEdge_edgeNoted hl hq
  have locked : (s.measure t).reg RTU_STATUS_STATE = rtuLocked := (reg_measure_other _ _ (by decide)).trans hl
  simp only [v, rtu, period]
  have run : (s.measure t).rtu.qualRun + 1 = s.rtu.qualRun + 1 := congrArg (·.qualRun + 1) (s.measure_rtu t)
  refine ⟨rfl, rfl, run, rfl, rfl, fun y hy => ?expected, fun q => period_measure hr hl⟩
  exact congrArg some (nextExpected_of_locked locked ((congrArg Rtu.expected (s.measure_rtu t)).trans hy))

/-- An edge on REF_FRAME of the polarity that RTU_SRC.EDGE asks for is taken at its time less RTU_REF_DELAY (R24). -/
theorem referenceEdgeAt_of_polarity {n : Nat} (hs : s.reg RTU_SRC_SRC = 0) :
    s.referenceEdgeAt n (s.flag RTU_SRC_EDGE) = (s.advanceTo n).takeEdge ((n : Int) - sint32 (s.reg RTU_REF_DELAY_DELAY)) :=
  if_pos ⟨hs, rfl⟩

theorem referenceEdgeAt_of_other_polarity (n : Nat) : s.referenceEdgeAt n (!s.flag RTU_SRC_EDGE) = s.advanceTo n :=
  if_neg fun h => (Bool.eq_not_self _).mp h.2

theorem ptpEdge_of_ptp {n : Nat} (hs : s.reg RTU_SRC_SRC = 1) :
    let x := s.reg RTU_PTP_PHASE_PHASE + n * s.reg RTU_PTP_PERIOD_PERIOD
    s.ptpEdge n = (s.advanceTo x).takeEdge x :=
  if_pos hs

end

/-- Settles O4: a LOCKED unit's lines run, so each command leaves the edge alone, by whether it qualifies. -/
theorem qualifiedEdgesSteerThePeriod : Obligations.QualifiedEdgesSteerThePeriod := by
  intro s t n ht hr hl edge
  have edges : ∀ u x r, u.regs.rising → u.reg RTU_STATUS_STATE = rtuLocked → r = .next ((u.takeEdge x).keepQueue s) →
      edge u x r := by
    rintro u x _ hr hl rfl
    refine ⟨fun hq => ⟨_, rfl, takeEdge_steers hr hl hq⟩, fun hq => ?glitch⟩
    rw [takeEdge_of_not_qualifies hl hq]
  have noFirstLine (u : State) : s.firstSchedulerLine u = u := firstSchedulerLine_of_linesRun u (linesRun_of_locked hl)
  refine ⟨fun hs => ?frame, fun _ => ?polarity, fun hs => ?ptp⟩
  case frame =>
    exact edges (s.advanceTo t) _ _ hr hl (commandIf_of_eq (fun s => s.firstSchedulerLine (s.referenceEdgeAt t _)) rfl ht
      ((noFirstLine _).trans (referenceEdgeAt_of_polarity hs)))
  case polarity =>
    exact commandIf_of_eq (fun s => s.firstSchedulerLine (s.referenceEdgeAt t _)) rfl ht
      ((noFirstLine _).trans (referenceEdgeAt_of_other_polarity t))
  case ptp =>
    exact edges (s.advanceTo _) _ _ hr hl (commandIf_of_eq (fun s => s.firstSchedulerLine (s.ptpEdge n)) rfl ht
      ((noFirstLine _).trans (ptpEdge_of_ptp hs)))

/-! ### START and STOP (R27, R31, R37) -/

section
variable {s : State} {p : Path}

/-- What START leaves as it makes the unit run, before the first line or the wait for edges. -/
def State.rtuFresh (s : State) : State :=
  let fresh : Rtu := { ptpMaster := s.rtu.ptpMaster, ptpStamps := s.rtu.ptpStamps }
  ((({ s with rtu := fresh } : State).setReg RTU_PERIOD_PERIOD 0 (s.reg RTU_NOMPER_PERIOD)).setReg
    RTU_EPOCH_COUNT_COUNT 0 0).setRuns bRTU true

@[simp] theorem State.rtuFresh_ns (s : State) : s.rtuFresh.ns = s.ns := by simp [State.rtuFresh]

/-- START writes the period, the epoch count and the run bits, and no other field. -/
theorem reg_rtuFresh_other (f : Field) (i : Nat) (hp : f.key i ≠ RTU_PERIOD_PERIOD.key 0)
    (he : f.key i ≠ RTU_EPOCH_COUNT_COUNT.key 0) (hb : f.key i ≠ CFG_BLKRUN_RUN.key 0) : s.rtuFresh.reg f i = s.reg f i := by
  rw [State.rtuFresh, State.setRuns, State.reg_setReg_other _ _ _ _ _ _ hb, State.reg_setReg_other _ _ _ _ _ _ he]
  exact State.reg_setReg_other _ _ _ _ _ _ hp

theorem rtuDoStart_of_allowed (hst : s.reg RTU_STATUS_STATE = rtuStopped) (hrec : s.inRecovery = false)
    (hcfg : s.flag MEP_CTRL_CFG_READY = true) (hclk : s.top.clocksLost.contains 0 = false) (hsrc : s.reg RTU_SRC_SRC ≠ 3)
    (hc : cycleInRange (s.reg RTU_NOMPER_PERIOD) s.rtuM s.rtuD = true)
    (he : epochInRange (s.reg RTU_NOMPER_PERIOD) s.rtuM s.rtuD (s.reg RTU_EPOCH_K) = true) :
    s.rtuDoStart p = if s.reg RTU_SRC_SRC = 2 ∨ s.flag RTU_SRC_START_MODE then
      (s.rtuFresh.enterRtu rtuFree).firstLine s.ns else s.rtuFresh.enterRtu rtuWaitEdge := by
  have src : s.rtuFresh.reg RTU_SRC_SRC = s.reg RTU_SRC_SRC := reg_rtuFresh_other _ _ (by decide) (by decide) (by decide)
  have mode : s.rtuFresh.flag RTU_SRC_START_MODE = s.flag RTU_SRC_START_MODE :=
    congrArg (· != 0) (reg_rtuFresh_other _ _ (by decide) (by decide) (by decide))
  have runs : s.rtuDoStart p = if s.rtuFresh.reg RTU_SRC_SRC = 2 ∨ s.rtuFresh.flag RTU_SRC_START_MODE then
      (s.rtuFresh.enterRtu rtuFree).firstLine s.rtuFresh.ns else s.rtuFresh.enterRtu rtuWaitEdge := by
    simp only [State.rtuDoStart, hst, hrec, hcfg, hclk, hsrc, hc, he, ne_eq, not_true_eq_false, Bool.false_eq_true,
      Bool.not_true, or_self, if_false]
    rfl
  rw [runs, src, mode, s.rtuFresh_ns]

theorem rtuDoStop_of_unused (hst : s.reg RTU_STATUS_STATE ≠ rtuStopped) (hu : rtuUsers.any s.runs = false) :
    s.rtuDoStop p = ((({ s with rtu := { s.rtu with heldSub := if s.linesRun then s.subLine else 0 } } :
      State).setRuns bRTU false).setFlag RTU_STATUS_SLEWING 0 false).enterRtu rtuStopped := by
  simp only [State.rtuDoStop, hst, hu, Bool.false_eq_true, if_false]

theorem rtuDoStop_of_used (hst : s.reg RTU_STATUS_STATE ≠ rtuStopped) (hu : rtuUsers.any s.runs = true) :
    s.rtuDoStop p = s.logErr 0x0B p RTU_CMD_STOP.addr := by
  simp only [State.rtuDoStop, hst, hu, if_false, if_true]

end

/-- Settles O3: on a path that may write, each command is its operation, which nothing refuses or a user does. -/
theorem referenceTimeStartsAndStops : Obligations.ReferenceTimeStartsAndStops := by
  intro s p ht hm
  have start := command_path (.rtuStart p) s p _ (·.rtuDoStart p) rfl ht hm
  have stop := command_path (.rtuStop p) s p RTU_CMD_STOP.addr (·.rtuDoStop p) rfl ht hm
  refine ⟨?starts, ?stops, ?refused⟩
  case starts =>
    intro hst hrec hcfg hclk hsrc hc he fresh u
    rw [rtuDoStart_of_allowed hst hrec hcfg hclk hsrc hc he] at start
    exact start
  case stops =>
    intro hst hu held
    rw [rtuDoStop_of_unused hst hu] at stop
    exact stop
  case refused =>
    intro hst hu
    rw [rtuDoStop_of_used hst hu] at stop
    exact stop

/-! ### PTP messages, a lost reference and missed edges (R25, R33, R34) -/

section
variable {s : State} {lport master selected : Nat} {m : PtpMsg}

/-- The servo takes the messages of its port, domain and transport; those of a delay mechanism must be of its own. -/
theorem ptpTakes_iff : s.ptpTakes lport m = true ↔
    s.reg RTU_PTP_CFG_LPORT = lport ∧ s.reg RTU_PTP_CFG_DOMAIN = m.domain ∧ s.reg RTU_PTP_CFG_TRANSPORT = m.transport ∧
      (m.kind ≠ .sync → s.flag RTU_PTP_CFG_DELAY_MECH = (m.kind != .delayReq)) := by
  cases hk : m.kind <;> simp [State.ptpTakes, hk, and_assoc, bne, BEq.beq]

/-- A message that the servo does not take is only stamped. -/
theorem ptpMessage_of_not_taken (h : s.ptpTakes lport m = false) :
    s.ptpMessage lport master selected m =
      { s with rtu := { s.rtu with ptpStamps := SMap.put (2 * lport + Bool.nat m.egress) s.ns s.rtu.ptpStamps } } :=
  if_neg (ne_true_of_eq_false h)

theorem ptpMessage_of_taken (h : s.ptpTakes lport m = true) :
    s.ptpMessage lport master selected m =
      ({ s with rtu := { s.rtu with ptpStamps := SMap.put (2 * lport + Bool.nat m.egress) s.ns s.rtu.ptpStamps } } :
        State).ptpServo master selected m :=
  if_pos h

theorem ptpLost_of_ptp (hs : s.reg RTU_SRC_SRC = 1) :
    s.ptpLost = (s.setFlag RTU_STATUS_PTP_LOCKED 0 false).enterHoldover :=
  if_pos hs

end

/-- Settles O5: a message by whether the servo takes it, a loss by its source, a missed edge by the run of them. -/
theorem ptpMessagesAndLosses : Obligations.PtpMessagesAndLosses := by
  intro s ht
  refine ⟨?message, ?loss, ?missed⟩
  case message =>
    intro lport master selected m hp hd htr stamps u v w off lock mine
    have hok : (Instr.ptpEventMessage lport master selected m).wellFormed = true := by simp [Instr.wellFormed, hp, hd, htr]
    refine ⟨fun h => ?other, fun h => ?taken⟩
    case other =>
      have notTaken : s.ptpTakes lport m = false := Bool.eq_false_iff.mpr fun h' => h (ptpTakes_iff.mp h')
      exact commandIf_of_eq (·.ptpMessage lport master selected m) hok ht (ptpMessage_of_not_taken notTaken)
    case taken =>
      refine commandIf_of_eq (·.ptpMessage lport master selected m) hok ht ?_
      rw [ptpMessage_of_taken (ptpTakes_iff.mpr h)]
      simp only [State.ptpServo, Bool.not_eq_true', off, lock, w, v, u, stamps]
  case loss =>
    intro hs _
    exact commandIf_of_eq State.ptpLost rfl ht (ptpLost_of_ptp hs)
  case missed =>
    intro x hx hl u v
    refine commandIf_of_eq State.missEdge rfl ht ?_
    simp only [State.missEdge, hx, hl, if_true]
    rfl

end Sys2Proof.Machine
end

