-- ==== Sys2Proof/Proofs/LinesAndEpochs.lean ====
section
/-! SUPPORT. Lines, working cycles and epoch boundaries where they are due and where they are not, and one step of the
machine (R26, R28, R31, R34, R36). -/

namespace Sys2Proof.Machine

open Sys2Proof.Reg

/-! ### Lines and working cycles (R28, R31, R34) -/

section
variable {s : State}

theorem nextLine_of_due (hm : s.mayStartLine = true) (hl : s.rtu.line < 4095) :
    s.nextLine = (s.startLine s.rtu.cycle (s.rtu.line + 1)).planFlush :=
  if_pos ⟨hm, hl⟩

theorem nextLine_of_not_mayStartLine (hm : s.mayStartLine = false) : s.nextLine = s :=
  if_neg fun h => ne_true_of_eq_false hm h.1

/-- A cycle that starts in HOLDOVER counts (R34). -/
def State.holdCounted (s : State) : State :=
  if s.reg RTU_STATUS_STATE = rtuHoldover then s.bump RTU_HOLD_CYCLES else s

@[simp] theorem State.holdCounted_rtu (s : State) : s.holdCounted.rtu = s.rtu := by
  unfold State.holdCounted; split <;> simp

@[simp] theorem State.holdCounted_ns (s : State) : s.holdCounted.ns = s.ns := by
  unfold State.holdCounted; split <;> simp

theorem nextCycle_of_due (hm : s.mayStartLine = true) (hl : s.rtu.line = 4095) :
    let v := (s.startLine (s.rtu.cycle + 1) 0).holdCounted
    s.nextCycle = v.refillReservations.renewCycle.sendKeepalives.probeRetired.tellTime.settle.planFlush :=
  if_pos ⟨hm, hl⟩

theorem nextCycle_of_not_due (h : ¬ (s.mayStartLine = true ∧ s.rtu.line = 4095)) : s.nextCycle = s :=
  if_neg h

/-! ### The boundary of an epoch (R36) -/

/-- The boundary has run, and the count of epochs has risen: what the nine actions find. -/
def State.epochCounted (s : State) : State :=
  ({ s with rtu := { s.rtu with boundaryDone := true } } : State).setReg RTU_EPOCH_COUNT_COUNT 0 (s.epoch + 1)

theorem epochBoundary_of_owed (h : s.boundaryOwed = true) :
    s.epochBoundary =
      s.epochCounted.boundarySeal.boundarySwitch.boundaryCopy.countLeases.endPreserved.sendEvents.pumpAll.settle.planFlush :=
  if_neg (by simp [h])

theorem epoch_epochCounted (hr : s.regs.rising) : s.epochCounted.epoch = (s.epoch + 1) % 2 ^ 64 :=
  State.reg_setReg_same _ RTU_EPOCH_COUNT_COUNT 0 _ hr

/-- A boundary acts once for its line. -/
theorem boundaryOwed_epochCounted (s : State) : s.epochCounted.boundaryOwed = false := by
  simp [State.boundaryOwed, State.epochCounted]

/-- EPOCH_BOUNDARY runs the boundary on a device that is not held. -/
theorem exec_epochBoundary_of_not_held (h : s.held = false) : exec .epochBoundary s = .next (s.epochBoundary.keepQueue s) := by
  have acts : (Instr.epochBoundary.wellFormed && !s.held) = true := by rw [h]; rfl
  exact congrArg (fun t : State => Host.Outcome.next (t.keepQueue s)) (if_pos acts)

end

/-- Settles O6: each command where its line or boundary is due, by the time of a line start, and where it is not. -/
theorem linesAndEpochsAdvance : Obligations.LinesAndEpochsAdvance := by
  intro s
  refine ⟨?line, ?cycle, ?boundary, ?notDue⟩
  case line =>
    intro ht hm hl u
    obtain ⟨line, cycle, start, done, ns⟩ := s.startLine_time s.rtu.cycle (s.rtu.line + 1)
    refine ⟨?_, line, cycle, start, ns.trans (by rw [start]), done⟩
    exact commandIf_of_eq State.nextLine rfl ht (nextLine_of_due hm hl)
  case cycle =>
    intro ht hm hl u v
    have rtu : v.rtu = u.rtu := u.holdCounted_rtu
    have time : v.ns = u.ns := u.holdCounted_ns
    obtain ⟨line, cycle, start, done, ns⟩ := s.startLine_time (s.rtu.cycle + 1) 0
    rw [rtu, time]
    refine ⟨?_, line, cycle, start, ns.trans (by rw [start]), done⟩
    exact commandIf_of_eq State.nextCycle rfl ht (nextCycle_of_due hm hl)
  case boundary =>
    intro hh ho hr u v
    refine ⟨?_, epoch_epochCounted hr, boundaryOwed_epochCounted s⟩
    rw [exec_epochBoundary_of_not_held hh, epochBoundary_of_owed ho]
    rfl
  case notDue =>
    intro ht
    have cycleWaits (h : ¬ (s.mayStartLine = true ∧ s.rtu.line = 4095)) : exec .workingCycleStart s = .next s :=
      commandIf_of_eq State.nextCycle rfl ht (nextCycle_of_not_due h)
    refine ⟨fun hm => ⟨?_, cycleWaits fun h => ?_⟩, fun hl => cycleWaits fun h => ?_, ?_⟩
    · exact commandIf_of_eq State.nextLine rfl ht (nextLine_of_not_mayStartLine hm)
    · exact ne_true_of_eq_false hm h.1
    · exact Nat.ne_of_lt hl h.2
    · rw [exec_epochBoundary_of_not_held (takes_held s ht), epochBoundary_of_not_owed s (takes_owed s ht), State.keepQueue_self]

/-! ### One step (R26) -/

theorem step_of_cons {s : State} {c : Instr} {rest : List Instr} (h : s.pending = c :: rest) :
    step s = exec c { s with pending := rest } := by
  simp only [step, h]

theorem step_of_nil {s : State} (h : s.pending = []) : step s = .next { s with ns := s.ns + 1 } := by
  simp only [step, h]

/-- The opcode table gives no row any bits. -/
theorem withFetchWord_eq_self (s : State) (nbits w : Nat) : s.withFetchWord nbits w = s := by
  have noWord : decodeTableWord nbits w = none := rfl
  simp only [State.withFetchWord, noWord]

/-- Settles O49, by the queue's two shapes. -/
theorem stepRunsTheFrontCommand : Obligations.StepRunsTheFrontCommand :=
  ⟨fun _ _ _ => step_of_cons rfl, fun _ => step_of_nil, withFetchWord_eq_self⟩

end Sys2Proof.Machine
end

