-- ==== Sys2Proof/Proofs/Configuration.lean ====
section
/-! SUPPORT. Writes by class, the commit and its check, rollback and discard, the generation area and its restore: what
each operation does in the states that it acts in (R40 to R54). -/

namespace Sys2Proof.Machine

open Sys2Proof.Reg

section
variable {s : State} {p : Path}

/-! ### Writes of classes L, I, S and K (R40, R42, R46) -/

section
variable {who : LockOwner} {a w : Nat} {ra : RegAt}

theorem writeL_of_open (h : (s.flag CFG_STATUS_SEALED || s.flag CFG_STATUS_CHECKING) = false) :
    s.writeL p a ra w = { s with regs := { s.regs with pend := putWord ra.reg ra.inst ra.off w s.regs.pend } } :=
  if_neg fun locked => ne_true_of_eq_false h ((Bool.or_eq_true ..).mpr locked)

theorem writeL_of_locked (h : (s.flag CFG_STATUS_SEALED || s.flag CFG_STATUS_CHECKING) = true) :
    s.writeL p a ra w = s.logErr 0x07 p a :=
  if_pos ((Bool.or_eq_true ..).mp h)

theorem writeI_of_stopped (h : s.instRuns ((blockOf a).getD 0) ra.inst = false) :
    s.writeI p a ra w = { s with regs := { s.regs with live := putWord ra.reg ra.inst ra.off w s.regs.live } } :=
  if_neg (ne_true_of_eq_false h)

theorem writeI_of_running (h : s.instRuns ((blockOf a).getD 0) ra.inst = true) : s.writeI p a ra w = s.logErr 0x01 p a :=
  if_pos h

/-- With its reserved bits 0, a word of class L is written as its class says and logs nothing more. -/
theorem writeWord_of_L (hr : reservedBits ra.reg ra.off w = 0) (hc : writesC ra = false) (hL : wordClass ra.reg ra.off = .L) :
    s.writeWord p who a ra w = s.writeL p a ra w := by
  simp [State.writeWord, hc, hL, logReserved_of_zero hr]

theorem writeWord_of_I (hr : reservedBits ra.reg ra.off w = 0) (hc : writesC ra = false) (hI : wordClass ra.reg ra.off = .I) :
    s.writeWord p who a ra w = s.writeI p a ra w := by
  simp [State.writeWord, hc, hI, logReserved_of_zero hr]

/-- Software does not write words of class S or K. -/
theorem writeWord_of_S_or_K (hc : writesC ra = false) (hSK : wordClass ra.reg ra.off = .S ∨ wordClass ra.reg ra.off = .K) :
    s.writeWord p who a ra w = s.logErr 0x02 p a := by
  rcases hSK with h | h <;> simp [State.writeWord, hc, h]

end

/-! ### The commit and its check (R44 to R48) -/

theorem genIdle_iff : s.genIdle = true ↔ s.flag CFG_STATUS_SEALED = false ∧ s.flag CFG_STATUS_CHECKING = false ∧
    s.flag CFG_STATUS_ROLLBACK_PENDING = false := by
  simp [State.genIdle, and_assoc]

theorem commitStart_of_idle {g : Nat} (hi : s.genIdle = true) (hg : s.reg CFG_GEN_CURRENT_GEN < g) :
    s.commitStart p g =
      ({ s with cfg := { s.cfg with checking := some g, checkPath := p } } : State).setFlag CFG_STATUS_CHECKING 0 true := by
  obtain ⟨hsealed, hchecking, hrollback⟩ := genIdle_iff.mp hi
  simp only [State.commitStart, hsealed, hchecking, hrollback, Bool.false_eq_true, if_false, if_neg (Nat.not_le.mpr hg)]

/-- The check is over: nothing is being checked any more. -/
def State.checkOver (s : State) : State :=
  ({ s with cfg := { s.cfg with checking := none } } : State).setFlag CFG_STATUS_CHECKING 0 false

@[simp] theorem State.checkOver_checkPath (s : State) : s.checkOver.cfg.checkPath = s.cfg.checkPath := by
  simp [State.checkOver]

theorem commitEnds_of_sound {n : Nat} (hn : s.cfg.checking = some n) (h : s.commitCheck = none) :
    s.commitEnds = ((((s.checkOver.commitResult s.cfg.checkPath 0 0 0).setFlag CFG_STATUS_SEALED 0 true).setReg
      CFG_GEN_PENDING_GEN 0 n).switchIfUnsync.gatesFollow).settle := by
  rw [← s.checkOver_checkPath]
  simp only [State.commitEnds, hn, h, State.checkOver]

theorem commitEnds_of_broken {n rule i : Nat} (hn : s.cfg.checking = some n) (h : s.commitCheck = some (rule, i)) :
    s.commitEnds = (s.checkOver.commitResult s.cfg.checkPath 1 rule i).logErr 0x06 s.cfg.checkPath CFG_COMMIT_GEN.addr rule := by
  rw [← s.checkOver_checkPath]
  simp only [State.commitEnds, hn, h, State.checkOver]

/-! ### Rollback and discard (R49) -/

theorem rollback_of_previous (hv : s.flag CFG_STATUS_PREV_VALID = true) (hi : s.genIdle = true) :
    s.rollback p = (s.setFlag CFG_STATUS_ROLLBACK_PENDING 0 true).switchIfUnsync.gatesFollow :=
  if_pos ⟨hv, hi⟩

theorem rollback_of_not_idle (hi : s.genIdle = false) : s.rollback p = s.logErr 0x08 p CFG_CTRL_ROLLBACK.addr :=
  if_neg fun h => ne_true_of_eq_false hi h.2

theorem discard_of_idle (hi : s.genIdle = true) : s.discard p = { s with regs := { s.regs with pend := s.regs.cur } } :=
  if_pos hi

theorem discard_of_not_idle (hi : s.genIdle = false) : s.discard p = s.logErr 0x08 p CFG_CTRL_DISCARD.addr :=
  if_neg (ne_true_of_eq_false hi)

/-! ### The generation area and the restore (R51 to R53) -/

section
variable {d : Nat} {record : Bool}

/-- A write that reached a drive that is owed nothing by it is entered, and no more. -/
theorem areaWritten_of_not_due (h : ∀ r, (s.persistDone d record).ringOn d = some r → (record && r.genDue) = false) :
    s.areaWritten d record true = s.persistDone d record := by
  simp only [State.areaWritten, Bool.not_true, Bool.false_eq_true, if_false]
  split
  · next r hr => exact if_neg fun due => ne_true_of_eq_false (h r hr) ((Bool.and_eq_true ..).mpr due)
  · rfl

/-- The record of a generation that a replacement is owed completes the replacement. -/
theorem areaWritten_of_due {r : Ring} (hr : (s.persistDone d true).ringOn d = some r) (hd : r.genDue = true) :
    s.areaWritten d true true = (s.persistDone d true).replacementDone d := by
  simp only [State.areaWritten, Bool.not_true, Bool.false_eq_true, if_false, hr, hd, and_self, if_true]

end

theorem restoreChoice_alone {slots : List GenSlot} {g : GenSlot} (hg : bestSlot (s.restoreSlots slots) = some g) :
    s.restoreChoice slots none = some g := by
  rw [State.restoreChoice, hg, Option.map_some]

/-- A pair's standby's copy comes before the best slot where its number is later; it takes that slot's place. -/
theorem restoreChoice_of_peer {slots : List GenSlot} {g : GenSlot} (hg : bestSlot (s.restoreSlots slots) = some g) (h : GenSlot) :
    s.restoreChoice slots (some h) = some (if g.gen < h.gen then { h with seq := g.seq, slot := g.slot } else g) := by
  rw [State.restoreChoice, hg, Option.map_some]

theorem restoreDone_of_no_slot {slots : List GenSlot} {peer : Option GenSlot} (hr : s.cfg.restoring = true)
    (h : bestSlot (s.restoreSlots slots) = none) : s.restoreDone slots peer = s.ldgRun := by
  simp only [State.restoreDone, State.restoreChoice, hr, h, Bool.not_true, Bool.false_eq_true, if_false, Option.map_none]

theorem restoreDone_of_choice {slots : List GenSlot} {peer : Option GenSlot} {c : GenSlot} (hr : s.cfg.restoring = true)
    (h : s.restoreChoice slots peer = some c) :
    s.restoreDone slots peer = if s.unsync then (s.applyRestore c).gatesFollow.ldgRun
      else { s with cfg := { s.cfg with restoring := false, restoreWait := some c } } := by
  simp only [State.restoreDone, hr, h, Bool.not_true, Bool.false_eq_true, if_false]

end

/-- Settles O7: a commit that nothing holds back starts its check, and the check's end is by the first rule broken. -/
theorem commitChecksTheWholePendingCopy : Obligations.CommitChecksTheWholePendingCopy := by
  intro s ht
  refine ⟨fun p g hg hm hi hlater => ?starts, ?ends⟩
  case starts =>
    have start := command_path (.cfgCommit p g) s p _ (·.commitStart p g) (decide_eq_true hg) ht hm
    rw [commitStart_of_idle hi hlater] at start
    exact start
  case ends =>
    intro n hn u
    refine ⟨fun h => ?sealed, fun rule i h => ⟨_, ?rejected, rfl⟩⟩
    case sealed => exact commandIf_of_eq State.commitEnds rfl ht (commitEnds_of_sound hn h)
    case rejected => exact commandIf_of_eq State.commitEnds rfl ht (commitEnds_of_broken hn h)

/-- Settles O1, by the word's class, and for L and I by whether the copy is open and the block stopped. -/
theorem registerWriteFollowsItsClass : Obligations.RegisterWriteFollowsItsClass := by
  intro s p a w ra ht hw ha hr hc locked runs
  have write {u : State} (h : s.writeWord p (pathOwner p) a ra w = u) : exec (.registerWrite p a 4 w) s = .next (u.keepQueue s) :=
    commandIf_of_eq (fun s => (s.regWrite p (pathOwner p) a 4 w).2) (decide_eq_true hw) ht ((regWrite_of_access _ ha).trans h)
  refine ⟨fun hL ho => ?pending, fun hL hl => ?locked, fun hI hs => ?atOnce, fun hI hruns => ?running, fun hSK => ?readOnly⟩
  case pending => exact write ((writeWord_of_L hr hc hL).trans (writeL_of_open ho))
  case locked => exact write ((writeWord_of_L hr hc hL).trans (writeL_of_locked hl))
  case atOnce => exact write ((writeWord_of_I hr hc hI).trans (writeI_of_stopped hs))
  case running => exact write ((writeWord_of_I hr hc hI).trans (writeI_of_running hruns))
  case readOnly => exact write (writeWord_of_S_or_K hc hSK)

/-- Settles O8: on a path that may write, each command is its operation, which acts or is refused. -/
theorem rollbackDiscardAndErrorLog : Obligations.RollbackDiscardAndErrorLog := by
  intro s p ht
  refine ⟨fun hm => ?controls, fun inst view hinst hview hm => ?view, fun hm => ?pop⟩
  case controls =>
    have rollback := command_path (.cfgRollback p) s p _ (·.rollback p) rfl ht hm
    have discard := command_path (.cfgDiscard p) s p CFG_CTRL_DISCARD.addr (·.discard p) rfl ht hm
    refine ⟨fun hv hi => ?rollbackActs, fun hi => ?discardActs, fun hi => ⟨?rollbackRefused, ?discardRefused⟩⟩
    case rollbackActs => rw [rollback_of_previous hv hi] at rollback; exact rollback
    case discardActs => rw [discard_of_idle hi] at discard; exact discard
    case rollbackRefused => rw [rollback_of_not_idle hi] at rollback; exact rollback
    case discardRefused => rw [discard_of_not_idle hi] at discard; exact discard
  case view =>
    have hok : (Instr.cfgViewWrite p inst view).wellFormed = true := by simp [Instr.wellFormed, hinst, hview]
    exact command_path (.cfgViewWrite p inst view) s p _ (·.setReg CFG_VIEW_VIEW inst view) hok ht hm
  case pop => exact command_path (.errlogPop p) s p _ State.popErr rfl ht hm

/-- Settles O9: a write by whether it reached its drive and what the drive is owed, a restore by the slot that it takes. -/
theorem generationAreaWritesAndRestore : Obligations.GenerationAreaWritesAndRestore := by
  intro s ht
  refine ⟨fun d record hd => ?writes, fun hr slots peer => ⟨fun h => ?noSlot, ?choice⟩⟩
  case writes =>
    have write {record ok : Bool} {u : State} (h : s.areaWritten d record ok = u) :
        exec (.generationAreaWriteDone d record ok) s = .next (u.settle.keepQueue s) :=
      commandIf_of_eq (fun s => (s.areaWritten d record ok).settle) (decide_eq_true hd) ht (congrArg State.settle h)
    exact ⟨write rfl, fun h => write (areaWritten_of_not_due h), fun r hr hdue => write (areaWritten_of_due hr hdue)⟩
  case noSlot => exact commandIf_of_eq (·.restoreDone slots peer) rfl ht (restoreDone_of_no_slot hr h)
  case choice =>
    intro g hg c
    have chosen : s.restoreChoice slots peer = some c := by
      cases peer with
      | none => exact restoreChoice_alone hg
      | some h => exact restoreChoice_of_peer hg h
    exact commandIf_of_eq (·.restoreDone slots peer) rfl ht (restoreDone_of_choice hr chosen)

end Sys2Proof.Machine
end

