-- ==== Sys2Proof/Proofs/BureauControl.lean ====
section
/-! SUPPORT. The Bureau's threads: the control registers after they are written, a trap, an interrupt, and the words that
act on the control registers (R190, R192). -/

namespace Sys2Proof.Machine

open Sys2Proof.Reg

/-! ### Control registers (R192) -/

section
variable (th : Thread)

@[simp] theorem csrOf_setCsr_same (n : Nat) (v : DWord) : (th.setCsr n v).csrOf n = v := by
  simp [Thread.csrOf, Thread.setCsr, SMap.get]

theorem csrOf_setCsr_other {n m : Nat} (v : DWord) (h : m ≠ n) : (th.setCsr n v).csrOf m = th.csrOf m := by
  simp only [Thread.csrOf, Thread.setCsr, SMap.get, SMap.find_put_other v th.csr h]

theorem csrOf_setGie_other {m : Nat} (b : Bool) (h : m ≠ csrIEN) : (th.setGie b).csrOf m = th.csrOf m :=
  csrOf_setCsr_other th _ h

theorem gie_setGie_false : (th.setGie false).gie = false := by
  have below : (th.csrOf csrIEN).toNat % 2 ^ 63 + 2 ^ 63 * Bool.nat false < 2 ^ 63 := Nat.mod_lt _ (by decide)
  rw [Thread.gie, Thread.setGie, csrOf_setCsr_same, BitVec.getLsbD_ofNat, Nat.testBit_lt_two_pow below, Bool.and_false]

/-- What a trap writes: the control registers it is given, GIE kept in PGIE and cleared, on at VEC (R192). -/
theorem trapTo_writes (epc : DWord) (cause : Nat) (bad : DWord) :
    let v := th.trapTo epc cause bad
    v.pc = (th.csrOf csrVEC).toNat ∧ v.csrOf csrEPC = epc ∧ v.csrOf csrBADADDR = bad ∧ v.gie = false ∧
      v.csrOf csrCAUSE = BitVec.ofNat 64 (cause + if th.gie then 2 ^ 30 else 0) ∧ v.g = th.g ∧ v.store = th.store := by
  let x := ((th.setCsr csrEPC epc).setCsr csrCAUSE (BitVec.ofNat 64 (cause + 2 ^ 30 * Bool.nat th.gie))).setCsr csrBADADDR bad
  have csr (n : Nat) (h : n ≠ csrIEN) : (th.trapTo epc cause bad).csrOf n = x.csrOf n := csrOf_setGie_other x false h
  have pgie : 2 ^ 30 * Bool.nat th.gie = if th.gie then 2 ^ 30 else 0 := by cases th.gie <;> rfl
  refine ⟨rfl, ?epc, ?badaddr, gie_setGie_false x, ?cause, rfl, rfl⟩
  case epc =>
    rw [csr _ (by decide), csrOf_setCsr_other _ _ (by decide), csrOf_setCsr_other _ _ (by decide), csrOf_setCsr_same]
  case badaddr => rw [csr _ (by decide), csrOf_setCsr_same]
  case cause => rw [csr _ (by decide), csrOf_setCsr_other _ _ (by decide), csrOf_setCsr_same, pgie]

end

/-! ### A thread that is there -/

section
variable {s : State} {t : Nat} {th : Thread}

theorem thread_of_find (h : SMap.find s.bnc.threads t = some th) : s.thread t = th := by
  simp only [State.thread, SMap.get, h, Option.getD_some]

theorem thread_onThread (g : Thread → Thread) (h : SMap.find s.bnc.threads t = some th) : (s.onThread t g).thread t = g th := by
  simp only [State.onThread, h, State.thread, SMap.get, SMap.find_put_same, Option.getD_some]

/-- A change of a thread is told by what it does to the thread that is there. -/
theorem onThread_congr {f g : Thread → Thread} (h : SMap.find s.bnc.threads t = some th) (hfg : f th = g th) :
    s.onThread t f = s.onThread t g := by
  simp only [State.onThread, h, hfg]

/-! ### Traps and interrupts (R190, R192) -/

/-- An exception of a Bureau thread that has an address traps with it. -/
theorem trap_of_bureau (code : Nat) (addr : DWord) (hb : 512 ≤ t) :
    s.trap t code (some addr) = s.onThread t fun x => x.trapTo (BitVec.ofNat 64 x.pc) code addr :=
  if_pos hb

/-- The sources that are pending and enabled, of which an interrupt takes one. -/
def State.irqSources (s : State) (th : Thread) : List Nat := (List.range 33).filter (bitOf (s.pendEnabled th))

theorem irqSources_ne_nil (h : s.pendEnabled th ≠ 0) (hlt : s.pendEnabled th < 2 ^ 33) : s.irqSources th ≠ [] := by
  obtain ⟨i, hi⟩ := Nat.exists_testBit_of_ne_zero h
  have inRange : i < 33 := (Nat.pow_lt_pow_iff_right Nat.one_lt_two).mp (Nat.lt_of_le_of_lt (Nat.ge_two_pow_of_testBit hi) hlt)
  exact List.ne_nil_of_mem (List.mem_filter.mpr ⟨List.mem_range.mpr inRange, hi⟩)

/-- Which source is taken, and what BADADDR holds, are free values (log entry 5). -/
theorem interrupt_traps (hf : SMap.find s.bnc.threads t = some th) (hg : th.gie = true) (hw : th.waiting = none)
    (hp : s.pendEnabled th ≠ 0) (hlt : s.pendEnabled th < 2 ^ 33) :
    ∃ src bad, (s.pendEnabled th).testBit src = true ∧ s.interrupt t =
      ({ s with freeCtr := s.freeCtr + 2 } : State).onThread t fun x => x.trapTo (BitVec.ofNat 64 x.pc) (2 ^ 31 + src) bad := by
  have some_source := irqSources_ne_nil hp hlt
  let k := (s.freeBits 6).1 % (s.irqSources th).length
  have hk : k < (s.irqSources th).length := Nat.mod_lt _ (List.length_pos_iff.mpr some_source)
  have taken : (s.irqSources th).getD k 0 ∈ s.irqSources th := by
    rw [List.getD_eq_getElem?_getD, List.getElem?_eq_getElem hk, Option.getD_some]; exact List.getElem_mem hk
  have goes : ¬ ((!th.gie) = true ∨ s.irqSources th = [] ∨ th.waiting.isSome = true) := by simp [hg, hw, some_source]
  refine ⟨_, BitVec.ofNat 64 ((s.freeBits 6).2.freeBits 64).1, (List.mem_filter.mp taken).2, ?_⟩
  simp only [State.interrupt, hf]
  exact if_neg goes

/-- With an enabled interrupt pending, the timer ends a WFI. -/
theorem timerPending_of_pending (hf : SMap.find s.bnc.threads t = some th) (hp : s.pendEnabled th ≠ 0) :
    s.timerPending t = s.onThread t fun x => { x with wfi := false } :=
  onThread_congr hf (if_neg hp)

/-! ### The words (R192) -/

/-- ERET to an address inside the code. -/
theorem runEret_of_starts (hi : s.starts t .eret = true) (hpc : s.pcOk t ((s.thread t).csrOf csrEPC).toNat = true) :
    s.runEret t = ((s.countIssue t).onThread t fun x => x.setGie (((s.thread t).csrOf csrCAUSE).getLsbD 30)).goesTo t
      ((s.thread t).csrOf csrEPC).toNat :=
  (runWord_to s t _ _ hi _ _ rfl).trans (if_pos hpc)

end

/-- Settles O22: a trap by what it writes, an interrupt by the sources there are, each word by the way it ends. -/
theorem bureauControlActs : Obligations.BureauControlActs := by
  intro s t rd ra n th ht hb hrd hra hn hf u leaves
  obtain rfl := thread_of_find hf
  refine ⟨?exception, ?interrupt, fun hp => ?timer, ?eret, fun hi => ?wfi, fun hi => ?csrr, ?csrw⟩
  case exception =>
    rintro code addr _ rfl _
    rw [trap_of_bureau code addr hb, thread_onThread _ hf]
    exact trapTo_writes ..
  case interrupt =>
    intro hg hw hp hlt
    obtain ⟨src, bad, pending, acts⟩ := interrupt_traps hf hg hw hp hlt
    exact ⟨src, bad, pending, commandIf_of_eq (·.interrupt t) (decide_eq_true hb) ht acts⟩
  case timer => exact commandIf_of_eq (·.timerPending t) (decide_eq_true hb) ht (timerPending_of_pending hf hp)
  case eret =>
    rintro _ hi rfl hpc
    exact commandIf_of_eq (·.runEret t) rfl ht (runEret_of_starts hi hpc)
  case wfi => exact command_word_next rfl ht hi rfl
  case csrr =>
    have hok : (Instr.csrr t rd n).wellFormed = true := by simp [Instr.wellFormed, hrd, hn]
    exact command_word_next hok ht hi rfl
  case csrw =>
    intro hi v
    have hok : (Instr.csrw t ra n).wellFormed = true := by simp [Instr.wellFormed, hra, hn]
    exact command_word_next hok ht hi rfl

end Sys2Proof.Machine
end

