-- ==== Sys2Proof/Proofs/Receive.lean ====
section
/-! SUPPORT. A packet that no row of R78 stops: what each stage of its reception comes to (R78, R79, R112, R206). -/

namespace Sys2Proof.Machine

open Sys2Proof.Reg

/-! ### The rows by type -/

theorem staleChecked_of_numbered {t : PktType} (hp : t.takesPsn = true) :
    t.staleChecked = true ↔ t = .data ∨ t = .flush ∨ t = .flushed := by
  cases t <;> simp_all [PktType.staleChecked, PktType.takesPsn]

theorem staleChecked_of_unnumbered {t : PktType} (hp : t.takesPsn = false) : t.staleChecked = true ↔ t = .nak := by
  cases t <;> simp_all [PktType.staleChecked, PktType.takesPsn]

theorem ne_data_of_unnumbered {t : PktType} (hp : t.takesPsn = false) : t ≠ .data := by
  rintro rfl; exact absurd hp (by decide)

section
variable {s : State} {m : RxMeta} {t : PktType} {k : Packet} {ci : Nat}

/-! ### The header rows -/

/-- None of the rows of R78 ahead of the lookup stops the packet. -/
structure HeaderPasses (s : State) (m : RxMeta) (t : PktType) (k : Packet) : Prop where
  runs : s.portRuns m.lport = true
  serves : s.inRecovery = true ∨ s.pair ≠ pairFENCED
  length : frameLength m k ≤ macLimit
  udpPort : m.dport = s.reg NLT_UDP_DPORT m.lport
  version : s.flag (if m.v6 then NLT_UDP_V6 else NLT_UDP_V4) m.lport = true
  active : (s.bump NLT_RX_PKTS m.lport (s.pktAttr m k.conn)).isActive = true ∨
    (s.bump NLT_RX_PKTS m.lport (s.pktAttr m k.conn)).inRecovery = true
  whole : m.frag = false
  legal : headerLegal t k = true
  subtype : t = .ctrl → ctrlLegal k = true
  check : k.hchk = headCheck t k

theorem preChecks_of_passes (f : State → State) (h : HeaderPasses s m t k) :
    s.preChecks m t k f = f (s.bump NLT_RX_PKTS m.lport (s.pktAttr m k.conn)) := by
  obtain ⟨runs, serves, length, udpPort, version, active, whole, legal, subtype, check⟩ := h
  have reaches : ¬ ((!s.portRuns m.lport) = true ∨ ((!s.inRecovery) = true ∧ s.pair = pairFENCED) ∨
      macLimit < frameLength m k) := by
    rcases serves with h | h <;> simp [runs, h, length]
  have ours : ¬ (m.dport ≠ s.reg NLT_UDP_DPORT m.lport ∨
      (!s.flag (if m.v6 then NLT_UDP_V6 else NLT_UDP_V4) m.lport) = true) := by
    simp [udpPort, version]
  have serving : ¬ ((!(s.bump NLT_RX_PKTS m.lport (s.pktAttr m k.conn)).isActive) = true ∧
      (!(s.bump NLT_RX_PKTS m.lport (s.pktAttr m k.conn)).inRecovery) = true) := by
    rcases active with h | h <;> simp [h]
  have wellMade : ¬ (m.frag = true ∨ (!headerLegal t k) = true ∨ (t = .ctrl ∧ (!ctrlLegal k) = true) ∨
      k.hchk ≠ headCheck t k) := by
    simpa [whole, legal, check] using subtype
  exact (if_neg reaches).trans ((if_neg ours).trans ((if_neg serving).trans (if_neg wellMade)))

/-- Such a packet of a connection is looked up. -/
theorem arrive_of_passes (h : HeaderPasses s m t k) (hc : t = .ctrl → k.conn ≠ 0) :
    s.arrive m t k = ((s.bump NLT_RX_PKTS m.lport (s.pktAttr m k.conn)).lookup m t k).settle := by
  rw [State.arrive, preChecks_of_passes _ h]
  exact congrArg State.settle (if_neg fun e => hc e.1 e.2)

/-! ### The lookup, the TAG row and the PSN (R78, R112) -/

theorem lookup_of_cached {c : Conn} (hf : s.findConn k.conn = some (ci, c)) (hk : c.known = true) (hc : c.cache = .cached)
    (hp : s.hasParked ci = false) :
    s.lookup m t k = ((s.bump CTX_HITS 0 c.attr).touchConn ci).fromTag ci m t k false := by
  simp only [State.lookup, hf, hk, hc, hp, Bool.not_true, Bool.not_false, Bool.false_eq_true, and_self, if_false, if_true]

theorem fromTag_of_unnumbered {parked : Bool} (hp : t.takesPsn = false) (ht : Packet.has k flagTag = false)
    (hg : (s.conn ci).gcm = false) : s.fromTag ci m t k parked = s.admitPkt ci m t k parked 0 := by
  simp only [State.fromTag, hp, ht, hg, Bool.false_eq_true, if_false, ne_eq, not_true_eq_false]

theorem fromTag_of_fresh {parked : Bool} (hp : t.takesPsn = true) (ht : Packet.has k flagTag = false)
    (hg : (s.conn ci).gcm = false) (hf : (s.conn ci).rx.psnPlace k.psn = .fresh) :
    let x := s.meter (s.conn ci).attr (s.conn ci).sub m (Packet.length k)
    s.fromTag ci m t k parked = x.2.admitPkt ci m t k parked x.1 := by
  simp only [State.fromTag, hp, ht, hg, hf, if_true, ne_eq, not_true_eq_false, if_false]

/-! ### Admission and the trailer (R78, R201, R206, R213) -/

theorem checkTail_of_matching {info : RxInfo} {cells : Nat} (hg : (s.conn ci).gcm = false) (hc : k.crc = trailer t k) :
    s.checkTail ci m t k info cells = (s.liftPayload m cells).acceptPkt ci m t k info := by
  simp only [State.checkTail, hg, hc, ne_eq, not_true_eq_false, and_false, Bool.false_eq_true, if_false]

/-- The DATA rows, the room for the packet's cells, RED and the policer let the packet pass. -/
structure Admitted (s : State) (ci : Nat) (m : RxMeta) (t : PktType) (k : Packet) (colour : Nat) : Prop where
  fresh : t.staleChecked = true → s.staleTag (s.conn ci).id k.msgid = false
  lies : t = .data → s.dataNak (s.conn ci) k = none
  fits : 0 < heldCells t k false (t == .data) → s.arrivalFits (accountOf m.lport m.pcp) (heldCells t k false (t == .data)) = true
  kept : (s.ingressRed m t k (t == .data) colour).1 = false
  unpoliced : ¬ (t.takesPsn = true ∧ t ≠ .data ∧ colour = 2 ∧ s.flag SCH_SUB_RED_DROP (s.conn ci).sub = true)

/-- Its payload lands in its cells, which are given back as it is accepted. -/
theorem admitPkt_of_admitted {colour : Nat} {parked : Bool} (h : Admitted s ci m t k colour) (hg : (s.conn ci).gcm = false)
    (hc : k.crc = trailer t k) :
    let cells := heldCells t k false (t == .data)
    let red := s.ingressRed m t k (t == .data) colour
    s.admitPkt ci m t k parked colour =
      ((red.2.2.landPayload m cells).liftPayload m cells).acceptPkt ci m t k { nak := none, mark := red.2.1, colour := colour } := by
  intro cells red
  obtain ⟨fresh, lies, fits, kept, unpoliced⟩ := h
  have notStale : (t.staleChecked && s.staleTag (s.conn ci).id k.msgid) = false := by
    cases hs : t.staleChecked <;> simp [hs, fresh]
  have noNak : (if t = .data then s.dataNak (s.conn ci) k else none) = none := ite_eq_right_iff.mpr lies
  have room : ¬ ((!parked) = true ∧ 0 < cells ∧ (!s.arrivalFits (accountOf m.lport m.pcp) cells) = true) := by
    rintro ⟨_, hpos, hfull⟩; simp [cells, fits hpos] at hfull
  have notPoliced : (t.takesPsn && !(t == .data) && colour == 2 && s.flag SCH_SUB_RED_DROP (s.conn ci).sub) = false := by
    simpa [and_assoc] using unpoliced
  have landed : ((red.2.2.landPayload m cells).conn ci).gcm = false := by
    rw [State.conn_of_ctx (s := s) (by simp [red])]; exact hg
  rw [← checkTail_of_matching landed hc]
  simp only [State.admitPkt, notStale, Bool.not_false, and_true, noNak, hg, Option.isNone_none, Bool.and_true, notPoliced]
  rw [if_neg room]
  simp [kept, red, cells]

/-! ### The two kinds of packets -/

/-- RED does not look at a packet outside the numbering. -/
theorem ingressRed_of_unnumbered {granted : Bool} {colour : Nat} (hp : t.takesPsn = false) :
    s.ingressRed m t k granted colour = (false, false, s) := by
  simp only [State.ingressRed, hp, Bool.not_false, if_true]

theorem heldCells_of_unnumbered {granted : Bool} (hp : t.takesPsn = false) : heldCells t k false granted = 0 := by
  simp only [heldCells, hp, Bool.false_eq_true, false_and, or_self, if_false]

theorem heldCells_of_numbered (hp : t.takesPsn = true) :
    heldCells t k false (t == .data) = if t = .data then 0 else cellsOf k.plen := by
  by_cases h : t = .data <;> simp [heldCells, hp, h]

theorem fromTag_accepts_unnumbered {parked : Bool} (hp : t.takesPsn = false) (ht : Packet.has k flagTag = false)
    (hg : (s.conn ci).gcm = false) (hc : k.crc = trailer t k) (hs : t = .nak → s.staleTag (s.conn ci).id k.msgid = false) :
    s.fromTag ci m t k parked = s.acceptPkt ci m t k { nak := none, mark := false, colour := 0 } := by
  have admitted : Admitted s ci m t k 0 :=
    { fresh := fun h => hs ((staleChecked_of_unnumbered hp).mp h)
      lies := fun h => absurd h (ne_data_of_unnumbered hp)
      fits := by rw [heldCells_of_unnumbered hp]; exact fun h => absurd h (Nat.lt_irrefl 0)
      kept := by rw [ingressRed_of_unnumbered hp]
      unpoliced := fun h => ne_true_of_eq_false hp h.1 }
  rw [fromTag_of_unnumbered hp ht hg, admitPkt_of_admitted admitted hg hc, ingressRed_of_unnumbered hp,
    heldCells_of_unnumbered hp]
  rfl

/-- Where the PSN is fresh, the packet is metered and admitted by the state that metering leaves. -/
theorem fromTag_accepts_numbered {parked : Bool} (hp : t.takesPsn = true) (ht : Packet.has k flagTag = false)
    (hg : (s.conn ci).gcm = false) (hf : (s.conn ci).rx.psnPlace k.psn = .fresh) (hc : k.crc = trailer t k) :
    let x := s.meter (s.conn ci).attr (s.conn ci).sub m (Packet.length k)
    let cells := heldCells t k false (t == .data)
    let red := x.2.ingressRed m t k (t == .data) x.1
    Admitted x.2 ci m t k x.1 → s.fromTag ci m t k parked =
      ((red.2.2.landPayload m cells).liftPayload m cells).acceptPkt ci m t k { nak := none, mark := red.2.1, colour := x.1 } := by
  intro x cells red admitted
  have plain : (x.2.conn ci).gcm = false := by rw [State.conn_of_ctx (s.meter_ctx ..)]; exact hg
  rw [fromTag_of_fresh hp ht hg hf, admitPkt_of_admitted admitted plain hc]

end

/-- Settles O10, by the two kinds of packets: what takes no PSN is accepted as it is, what takes one once it is admitted. -/
theorem acceptedPacketsAct : Obligations.AcceptedPacketsAct := by
  intro s m k ci c ht hm u w runs serves length udpPort version active whole hf hk hc hparked htag hg head plain numbered
  have arrives {t : PktType} (hlegal : headerLegal t k = true) (hcheck : k.hchk = headCheck t k)
      (hctrl : t = .ctrl → k.conn ≠ 0 ∧ ctrlLegal k = true) : s.arrive m t k = (w.fromTag ci m t k false).settle := by
    have passes : HeaderPasses s m t k :=
      ⟨runs, serves, length, udpPort, version, .inl active, whole, hlegal, fun h => (hctrl h).2, hcheck⟩
    rw [arrive_of_passes passes fun h => (hctrl h).1, lookup_of_cached hf hk hc hparked]
  have atOnce {t : PktType} {r : Host.Outcome State Fault Refusal} (hp : t.takesPsn = false) (hctrl : t ≠ .ctrl)
      (hr : r = .next ((s.arrive m t k).keepQueue s)) : plain t r := by
    rintro ⟨hlegal, hcheck, hcrc⟩ hstale
    rw [hr, arrives hlegal hcheck fun h => absurd h hctrl, fromTag_accepts_unnumbered hp htag hg hcrc hstale]
  have inTurn {t : PktType} {r : Host.Outcome State Fault Refusal} (hp : t.takesPsn = true)
      (hctrl : t = .ctrl → k.conn ≠ 0 ∧ ctrlLegal k = true) (hr : r = .next ((s.arrive m t k).keepQueue s)) : numbered t r := by
    rintro ⟨hlegal, hcheck, hcrc⟩ x cells red landed hfresh hstale hnak hfits hpol hred
    have sameConn : x.2.conn ci = w.conn ci := State.conn_of_ctx (w.meter_ctx ..) ci
    have sameCells : heldCells t k false (t == .data) = cells := heldCells_of_numbered hp
    have admitted : Admitted x.2 ci m t k x.1 :=
      { fresh := fun h => by rw [sameConn]; exact hstale ((staleChecked_of_numbered hp).mp h)
        lies := fun h => by rw [sameConn]; exact hnak h
        fits := by rw [sameCells]; exact hfits
        kept := hred
        unpoliced := fun h => by rw [sameConn] at h; exact hpol h.2 }
    rw [hr, arrives hlegal hcheck hctrl, fromTag_accepts_numbered hp htag hg hfresh hcrc admitted, sameCells]
  have answers {i : Instr} {t : PktType} (hok : i.wellFormed = true) :
      command i s (·.arrive m t k) = .next ((s.arrive m t k).keepQueue s) := command_next i s _ hok ht
  refine ⟨?ack, ?nak, ?probe, ?reply, ?cmd, ?data, ?flush, ?flushed, fun hconn hlegal => ?ctrl, ?read, ?write, ?area⟩
  case ack | nak | probe | reply => exact atOnce rfl nofun (answers hm)
  case cmd | data | flush | flushed | read | write | area => exact inTurn rfl nofun (answers hm)
  case ctrl =>
    have ctrl {r : Host.Outcome State Fault Refusal} (hr : r = .next ((s.arrive m .ctrl k).keepQueue s)) : numbered .ctrl r :=
      inTurn rfl (fun _ => ⟨hconn, hlegal⟩) hr
    exact ⟨ctrl (answers hm), ctrl (answers hm), ctrl (answers hm), ctrl (answers hm), ctrl (answers hm)⟩

end Sys2Proof.Machine
end

