-- ==== Sys2Proof/Proofs/Inbox.lean ====
section
/-! SUPPORT. A capsule at the front of its connection's inbox: the rows of R130 that take it up, and what those leave
alone (R71, R124, R130, R132, R147). -/

namespace Sys2Proof.Machine

open Sys2Proof.Reg

/-! ### What a change of a connection leaves alone -/

@[simp] theorem State.stagingWritten_cmd (s : State) : s.stagingWritten.cmd = s.cmd := by
  simp [State.stagingWritten, State.endVerified]

@[simp] theorem State.sbWrite_cmd (s : State) (a : Nat) (bs : List Byte) : (s.sbWrite a bs).cmd = s.cmd := by
  unfold State.sbWrite; split <;> simp

@[simp] theorem State.updConn_cmd (s : State) (ci : Nat) (f : Conn → Conn) : (s.updConn ci f).cmd = s.cmd := by
  unfold State.updConn; split
  · split <;> simp
  · rfl

section
variable {s : State} {f : Nat} {c : Cmd}

/-! ### The checks of a command that holds a frame (R130) -/

theorem checkAndRun_of_user (hf : s.frame f = some c) (hu : isUserOp c.opcode = true) (hb : s.bound c.opcode = true) :
    s.checkAndRun f = s.dispatchNow f := by
  simp only [State.checkAndRun, hf, hu, hb, if_true]

theorem checkAndRun_of_passes {r : OpRow} (hf : s.frame f = some c) (hu : isUserOp c.opcode = false)
    (hr : opRow c.opcode = some r) (hc : s.dispatchChecks c r = none) : s.checkAndRun f = s.dispatchNow f := by
  simp only [State.checkAndRun, hf, hu, hr, hc, Bool.false_eq_true, if_false]

/-! ### The front of an inbox (R71) -/

theorem takeCapsule_of_row {conn : Nat} {d : Delivered} {isRow : Nat → Bool} (hi : s.inboxHead conn = some d)
    (hr : isRow (capField d.capsule 0 1) = true) (hd : s.dispatches = true) :
    s.takeCapsule conn isRow = ({ s with cmd := { s.cmd with inbox := s.cmd.inbox.erase d } } : State).acceptCmd d := by
  simp only [State.takeCapsule, hi, hr, hd, and_self, if_true]

variable {d : Delivered} {ci : Nat} {cn : Conn}

theorem acceptCmd_of_tagInUse (hf : s.findConn d.conn = some (ci, cn)) (h : s.tagInUse d = true) :
    s.acceptCmd d = s.discardCmd d := by
  simp only [State.acceptCmd, hf, h, if_true]

/-- The command that a delivered capsule becomes as it takes a frame. -/
def State.cmdOf (s : State) (d : Delivered) (cn : Conn) : Cmd := {
  conn := d.conn, msgid := d.msgid, csn := d.csn, sub := cn.sub, opcode := capField d.capsule 0 1, capsule := d.capsule,
  colour := d.colour, order := s.cmd.order, phase := .fenced, slot := builtinSlot, acc := d.acc }

/-- It is in its frame, and its connection has one command more. -/
def State.framed (s : State) (f : Nat) (d : Delivered) (ci : Nat) (cn : Conn) : State :=
  ({ s with cmd := { s.cmd with frames := SMap.put f (s.cmdOf d cn) s.cmd.frames, order := s.cmd.order + 1 } } : State).updConn ci
    fun k => { k with inflight := k.inflight + 1 }

theorem frame_framed : (s.framed f d ci cn).frame f = some (s.cmdOf d cn) := by
  simp [State.framed, State.frame]

/-- The rows of R130 ahead of the frame, and the fence, let the capsule through. -/
theorem acceptCmd_of_free (hf : s.findConn d.conn = some (ci, cn)) (htag : s.tagInUse d = false)
    (hclose : ∀ x, cn.closeCsn = some x → serialBefore x d.csn = false) (hframe : s.freeFrame = some f)
    (hroom : cn.inflight < min 65536 (max 1 (s.reg CMD_LIMITS_CONN_MAX)))
    (hop : (opRow (capField d.capsule 0 1)).isSome = true ∨
      (isUserOp (capField d.capsule 0 1) = true ∧ s.bound (capField d.capsule 0 1) = true))
    (hfence : (s.cmdOf d cn).fence = false ∨ (s.framed f d ci cn).fenceHolds f (s.cmdOf d cn) = false) :
    s.acceptCmd d = (s.framed f d ci cn).checkAndRun f := by
  have opKnown : ¬ ((opRow (capField d.capsule 0 1)).isNone = true ∧
      (!decide (isUserOp (capField d.capsule 0 1) = true ∧ s.bound (capField d.capsule 0 1) = true)) = true) := by
    rcases hop with h | h <;> simp [Option.isSome_iff_ne_none.mp, h]
  simp only [State.acceptCmd, hf, htag, hframe, Bool.false_eq_true, if_false]
  refine (if_neg ?notClosed).trans ((if_neg (Nat.not_le.mpr hroom)).trans ((if_neg opKnown).trans (if_neg ?notFenced)))
  case notClosed =>
    cases hx : cn.closeCsn with
    | none => exact Bool.false_ne_true
    | some x => exact ne_true_of_eq_false (hclose x hx)
  case notFenced =>
    rintro ⟨fence, _, holds⟩
    rcases hfence with h | h
    · exact ne_true_of_eq_false h fence
    · exact ne_true_of_eq_false h holds

end

/-- Settles O14, by whether the capsule's tag is in use; where it is not, by whether its opcode is a user's. -/
theorem deliveredCommandsAreDispatched : Obligations.DeliveredCommandsAreDispatched := by
  intro s conn ci d cn ht hconn hi hd hf row
  have answers {isRow : Nat → Bool} {r : Host.Outcome State Fault Refusal}
      (hr : r = commandIf (decide (conn < 2 ^ 24)) s fun s => (s.takeCapsule conn isRow).settle) : row isRow r := by
    intro hrow taken
    have acts {u : State} (h : taken.acceptCmd d = u) : r = .next (u.settle.keepQueue s) :=
      hr.trans (commandIf_of_eq _ (decide_eq_true hconn) ht (congrArg State.settle ((takeCapsule_of_row hi hrow hd).trans h)))
    refine ⟨fun htag => acts (acceptCmd_of_tagInUse hf htag), ?dispatched⟩
    intro f htag hclose hframe hroom op c inbox frames t v hfence hop
    have accepted := fun known => acceptCmd_of_free (s := taken) hf htag hclose hframe hroom known hfence
    have held : v.frame f = some c := frame_framed (s := taken)
    rcases hop with ⟨huser, hbound, stillBound⟩ | ⟨hdevice, x, hx, hpass⟩
    case inl => exact acts ((accepted (.inr ⟨huser, hbound⟩)).trans (checkAndRun_of_user held huser stillBound))
    case inr => exact acts ((accepted (.inl (Option.isSome_of_eq_some hx))).trans (checkAndRun_of_passes held hdevice hx hpass))
  -- With `row` opaque, the test of each conjunct is read off its statement.
  clear_value row
  exact ⟨answers rfl, answers rfl, answers rfl, answers rfl, answers rfl, answers rfl, answers rfl, answers rfl, answers rfl,
    answers rfl, answers rfl, answers rfl, answers rfl, answers rfl, answers rfl⟩

end Sys2Proof.Machine
end

