-- ==== Sys2Proof/Proofs/ConnectionTimers.lean ====
section
/-! SUPPORT. The timers of a connection, the moves of its context and a port's sending, each where its time has come (R82,
R86, R87, R104, R105, R110, R112, R222). -/

namespace Sys2Proof.Machine

open Sys2Proof.Reg

/-! ### Timers of a connection (R82, R85, R87, R91, R104, R105) -/

section
variable {s : State} {id ci : Nat} {c : Conn}

theorem ackDelayOver_of_waiting {t : Nat} (hf : s.findConn id = some (ci, c)) (hk : c.known = true)
    (ho : c.rx.oldest = some t) :
    s.ackDelayOver id = (s.advanceTo (t + s.ackDelay c.lport)).sendAck ci c.rx.ackEnt := by
  simp only [State.ackDelayOver, hf, ho, hk, if_true]

theorem retransmitAll_of_known (hf : s.findConn id = some (ci, c)) (hk : c.known = true) :
    s.retransmitAll id = if (s.timedOut c).any (fun r => decide (1 + s.retryMax c.lport ≤ r.sends))
      then s.retryExhausted ci else (s.timedOut c).foldl (fun s r => s.timeoutOne ci r) s := by
  simp only [State.retransmitAll, hf, hk, Bool.not_true, Bool.false_eq_true, if_false]

theorem rateEnd_of_found (hf : s.findConn id = some (ci, c)) :
    let hit := c.tx.ceLatest != c.tx.ceSeen || c.tx.timeout
    let r := if hit then max (s.reg NLT_RC_FLOOR_FLOOR c.lport) (c.tx.rate - c.tx.rate * max 1 (s.reg NLT_RC_CUT_CUT c.lport) / 256)
      else min (s.portRate c.lport) (c.tx.rate + s.reg NLT_RC_STEP_STEP c.lport)
    let u := s.updConn ci fun d => { d with tx := { d.tx with
      tokens := s.paceTokens d, tokAt := s.ns, rate := r, ceSeen := d.tx.ceLatest, timeout := false } }
    s.rateEnd id = if hit then u.bump NLT_CUTS c.lport c.attr else u := by
  simp only [State.rateEnd, hf]

theorem setupExpires_of_due (hf : s.findConn id = some (ci, c)) (hs : c.state = cSETUP)
    (hd : s.setupCycles ≤ s.rtu.cycle - c.sinceCycle) : s.setupExpires id = (s.closeConn ci none).settle := by
  simp only [State.setupExpires, hf]
  exact if_pos ⟨hs, hd⟩

theorem livenessOver_of_due (hf : s.findConn id = some (ci, c)) (hs : c.state = cOPEN ∨ c.state = cCLOSING)
    (hd : s.liveLimit < s.rtu.cycle - c.lastRxCycle) :
    s.livenessOver id = ((s.raise CTX_EVENT_LIVE_TEARDOWN).closeConn ci (some 2)).settle := by
  simp only [State.livenessOver, hf]
  exact if_pos ⟨hs, hd⟩

theorem quarantineOver_of_mayFree (hf : s.findConn id = some (ci, c)) (hm : s.mayFree c = true) :
    s.quarantineOver id = s.freeConn ci c := by
  simp only [State.quarantineOver, hf, hm, if_true]

/-! ### Moves of a context (R110, R112) -/

theorem fetchDone_of_fetching (h : (s.conn (id % 2 ^ 18)).cache = .fetching) :
    let u := (s.setCache (id % 2 ^ 18) .cached).touchConn (id % 2 ^ 18)
    s.fetchDone id = ((u.parkedOf (id % 2 ^ 18)).foldl (fun s x => s.resumeParked x) (u.unparkAll (id % 2 ^ 18))).startFetches :=
  if_pos h

theorem writebackDone_of_writing (hf : SMap.find s.ctx.conns (id % 2 ^ 18) = some c) (hi : c.id = id) (hc : c.cache = .writing) :
    s.writebackDone id = (s.setCache (id % 2 ^ 18) .home).startFetches := by
  simp only [State.writebackDone, hf]
  exact if_pos ⟨hi, hc⟩

end

/-! ### A port's transmit opportunity (R221, R222, R228) -/

section
variable {s : State} {port : Nat} {o : OutPkt}

theorem transmitOne_of_bypass (hs : s.portSends port = true)
    (hb : s.nlt.txq.find? (fun o => decide (o.port = port) && o.bypass && s.cipherRoom o) = some o) :
    s.transmitOne port = s.sendBypass o := by
  simp only [State.transmitOne, hs, hb, Bool.not_true, Bool.false_eq_true, if_false]

/-- The hierarchy's heads that a guard holds back count as they are passed over. -/
def State.guardsCounted (s : State) (port : Nat) : State :=
  ((s.heads port).filter fun o => s.headState o == .guard).foldl (fun s o => s.bump SCH_GUARD_HOLDS port (s.outAttr o)) s

/-- Without a bypass packet, the port's scheduler picks among the heads that are ready, on the die and have room. -/
theorem transmitOne_of_picked {v : State} {ci : Nat} (hs : s.portSends port = true)
    (hb : s.nlt.txq.find? (fun o => decide (o.port = port) && o.bypass && s.cipherRoom o) = none)
    (ho : (s.syncRounds port).portOpen port = true) (hc : o.ci = some ci) :
    let t := s.syncRounds port
    let u := t.guardsCounted port
    u.pickPacket port ((t.heads port).filter fun o => u.headState o == .ready && u.onDie o.cells && u.cipherRoom o) = some (o, v) →
    s.transmitOne port = if o.retx then (v.unqueue o).sendAgain ci o else (v.unqueue o).sendFirst ci o := by
  intro t u hp
  simp only [u, t, State.guardsCounted] at hp
  simp only [State.transmitOne, hs, hb, ho, hp, hc, Bool.not_true, Bool.false_eq_true, if_false]

end

/-- Settles O11, each command by its operation where its time has come. -/
theorem connectionTimersAct : Obligations.ConnectionTimersAct := by
  intro s ht
  refine ⟨fun id ci c hid hf hk => ⟨?ackDelay, ?retransmit, ?rate, ?setup, ?liveness⟩, ?quarantine, ?fetch, ?writeback,
    ?transmit⟩
  case ackDelay =>
    exact fun t ho => commandIf_of_eq (·.ackDelayOver id) (decide_eq_true hid) ht (ackDelayOver_of_waiting hf hk ho)
  case retransmit =>
    exact commandIf_of_eq (fun s => (s.retransmitAll id).settle) (decide_eq_true hid) ht
      (congrArg State.settle (retransmitAll_of_known hf hk))
  case rate => exact commandIf_of_eq (·.rateEnd id) (decide_eq_true hid) ht (rateEnd_of_found hf)
  case setup =>
    exact fun hs hd => commandIf_of_eq (·.setupExpires id) (decide_eq_true hid) ht (setupExpires_of_due hf hs hd)
  case liveness =>
    exact fun hs hd => commandIf_of_eq (·.livenessOver id) (decide_eq_true hid) ht (livenessOver_of_due hf hs hd)
  case quarantine =>
    exact fun id ci c hid hf hm => commandIf_of_eq (fun s => (s.quarantineOver id).resumeLost) (decide_eq_true hid) ht
      (congrArg State.resumeLost (quarantineOver_of_mayFree hf hm))
  case fetch =>
    exact fun id hid hc => commandIf_of_eq (fun s => (s.fetchDone id).settle) (decide_eq_true hid) ht
      (congrArg State.settle (fetchDone_of_fetching hc))
  case writeback =>
    exact fun id c hid hf hi hc => commandIf_of_eq (·.writebackDone id) (decide_eq_true hid) ht
      (writebackDone_of_writing hf hi hc)
  case transmit =>
    intro port hport hs
    have sends {u : State} (h : s.transmitOne port = u) : exec (.transmitOpportunity port) s = .next (u.settle.keepQueue s) :=
      commandIf_of_eq (fun s => (s.transmitOne port).settle) (decide_eq_true hport) ht (congrArg State.settle h)
    exact ⟨fun o hb => sends (transmitOne_of_bypass hs hb),
      fun hb ho o v ci hp hc => sends (transmitOne_of_picked hs hb ho hc hp)⟩

end Sys2Proof.Machine
end

