-- ==== Sys2Proof/Proofs/Ports.lean ====
section
/-! SUPPORT. The NLT of a port: START, STOP, the flush of a port, and the faults of its link (R94, R214, R451). -/

namespace Sys2Proof.Machine

open Sys2Proof.Reg

section
variable {s : State} {p : Path} {n : Nat}

/-! ### START and STOP (R94, R451) -/

theorem nltDoStart_of_allowed (hstop : s.flag NLT_RUN_STOPPING n = false) (hr : s.portRuns n = false) (hrec : s.inRecovery = false)
    (hcab : s.runs bCAB = true) (hsch : s.runs bSCH = true) (huse : s.portInUse n = true)
    (haddr : s.reg NLT_ADDR4_ADDR n ≠ 0 ∨ s.reg NLT_ADDR6_ADDR n ≠ 0) :
    s.nltDoStart p n = (s.setFlag NLT_RUN_RUN n true).countPorts := by
  have addressed : ¬ (s.reg NLT_ADDR4_ADDR n = 0 ∧ s.reg NLT_ADDR6_ADDR n = 0) := fun h => haddr.elim (· h.1) (· h.2)
  simp only [State.nltDoStart, hstop, hr, hrec, hcab, hsch, huse, addressed, Bool.not_true, Bool.false_eq_true, or_self, if_false]

theorem nltDoStop_of_runs (hstop : s.flag NLT_RUN_STOPPING n = false) (hr : s.portRuns n = true) :
    let u := s.setFlag NLT_RUN_STOPPING n true
    s.nltDoStop p n = ((u.homed n).foldl (fun s ci => s.sendShutdown ci) u).portGoesDown n := by
  simp only [State.nltDoStop, hstop, hr, Bool.not_true, Bool.false_eq_true, if_false]

/-! ### The flush of a port (R94, R214) -/

theorem flushDone_of_flushing (h : s.nlt.flushing.contains n = true) :
    let c := SMap.get (0, 0) s.cab.flushed n
    let u : State := { s with nlt := { s.nlt with flushing := s.nlt.flushing.filter (· != n) },
                              cab := { s.cab with flushed := SMap.del n s.cab.flushed } }
    let v := (((u.bump CAB_FLUSHES).bumpBy CAB_FLUSH_CELLS 0 c.1 {}).raise CAB_EVENT_PORT_FLUSH).portRecord n 1 c.1 c.2 bCAB
    s.flushDone n = if v.flag NLT_RUN_STOPPING n then
      ((v.setFlag NLT_RUN_STOPPING n false).setFlag NLT_RUN_RUN n false).countPorts else v :=
  if_pos h

/-! ### Faults of a link (R214) -/

theorem linkFaulty_of_sound (h : SMap.find s.cab.faultAt n = none) :
    s.linkFaulty n = ({ s with cab := { s.cab with faultAt := SMap.put n s.ns s.cab.faultAt } } : State).setReg
      CAB_PORTFILL_HOLDING n 1 :=
  if_neg (by simp [h])

theorem linkRecovers_of_held (hf : (SMap.find s.cab.faultAt n).isSome = true) (hh : s.flag CAB_PORTFILL_HOLDING n = true)
    (ho : s.holdOver n = false) :
    s.linkRecovers n = ({ s with cab := { s.cab with faultAt := SMap.del n s.cab.faultAt } } : State).setReg
      CAB_PORTFILL_HOLDING n 0 := by
  have faulty : ¬ (SMap.find s.cab.faultAt n).isNone = true := by
    rw [Option.isNone_iff_eq_none]; exact Option.isSome_iff_ne_none.mp hf
  simp only [State.linkRecovers, faulty, hh, ho, Bool.false_eq_true, true_or, if_false, if_true]

theorem holdExpires_of_runs {t : Nat} (hf : SMap.find s.cab.faultAt n = some t) (hr : s.portRuns n = true)
    (hh : s.flag CAB_PORTFILL_HOLDING n = true) :
    s.holdExpires n = (s.advanceTo (t + 1000 * max 1 (s.reg CAB_PORTDOWN_HOLD))).portGoesDown n := by
  simp only [State.holdExpires, hf, hh, hr, if_true]

end

/-- Settles O12: START and STOP on a path that may write, the others by what the port's flush and its link's fault are at. -/
theorem portsStartStopAndGoDown : Obligations.PortsStartStopAndGoDown := by
  intro s n ht hn
  have hok : decide (n < 32) = true := decide_eq_true hn
  refine ⟨fun p hm hstop => ⟨?starts, ?stops⟩, fun h => ?flushed, fun h => ?fault, fun hf hh ho => ?recovers,
    fun t hf hr hh => ?down⟩
  case starts =>
    intro hr hrec hcab hsch huse haddr
    have start := command_path (.nltStart p n) s p _ (·.nltDoStart p n) hok ht hm
    rw [nltDoStart_of_allowed hstop hr hrec hcab hsch huse haddr] at start
    exact start
  case stops =>
    intro hr u
    have stop := command_path (.nltStop p n) s p _ (·.nltDoStop p n) hok ht hm
    rw [nltDoStop_of_runs hstop hr] at stop
    exact stop
  case flushed => exact commandIf_of_eq (·.flushDone n) hok ht (flushDone_of_flushing h)
  case fault => exact commandIf_of_eq (·.linkFaulty n) hok ht (linkFaulty_of_sound h)
  case recovers => exact commandIf_of_eq (·.linkRecovers n) hok ht (linkRecovers_of_held hf hh ho)
  case down => exact commandIf_of_eq (·.holdExpires n) hok ht (holdExpires_of_runs hf hr hh)

end Sys2Proof.Machine
end

