-- ==== Sys2Proof/Proofs/ConnectionCommands.lean ====
section
/-! SUPPORT. CTX_CMD on a known connection, a CONNECT_REQ that reaches setup, and an address that a port answers for (R98,
R107, R111, R118, R351). -/

namespace Sys2Proof.Machine

open Sys2Proof.Reg

/-! ### CTX_CMD (R107, R111, R118) -/

/-- A row on a path that may write acts as its operation does (R56). -/
theorem commandIf_path_of_eq {ok : Bool} {s u : State} {p : Path} {addr : Nat} (f : State → State) (hok : ok = true)
    (ht : s.takes = true) (hm : s.mayWrite p addr = true) (h : f s = u) :
    commandIf ok s (fun s => s.viaWrite p addr f) = .next (u.keepQueue s) := by
  rw [commandIf_path ok s p addr f hok ht hm, h]

section
variable {s : State} {id ci : Nat} {c : Conn}

theorem ctxTeardown_of_known (hf : s.findConn id = some (ci, c)) (hk : c.known = true) :
    s.ctxTeardown id = (s.closeConn ci (some 1)).settle := by
  simp only [State.ctxTeardown, hf, hk, if_true]

theorem ctxPin_of_room (hf : s.findConn id = some (ci, c)) (hk : c.known = true) (hp : c.pin = false)
    (hroom : (s.ctx.conns.filter fun e => e.2.pin).length < s.pinLimit) :
    s.ctxPin id = (s.updConn ci fun c => { c with pin := true }).countCache := by
  simp only [State.ctxPin, hf, hk, hp, Nat.not_le.mpr hroom, Bool.not_true, Bool.false_eq_true, if_false]

theorem ctxUnpin_of_known (hf : s.findConn id = some (ci, c)) (hk : c.known = true) :
    s.ctxUnpin id = (s.updConn ci fun c => { c with pin := false }).countCache := by
  simp only [State.ctxUnpin, hf, hk, if_true]

theorem ctxClose_of_open (hf : s.findConn id = some (ci, c)) (ho : c.state = cOPEN) (hs : c.closeSent = false) :
    s.ctxClose id = (s.sendCtrl ci 7 [] false).updConn ci fun c => { c with closeSent := true } := by
  simp only [State.ctxClose, hf, ho, hs, Bool.not_false, and_self, if_true]

end

/-! ### Setup (R98, R201, R206) -/

/-- A CONNECT_REQ with a matching trailer, whose payload finds room, is set up once its cells are given back. -/
theorem arrive_connects {s : State} {m : RxMeta} {k : Packet} (h : HeaderPasses s m .ctrl k) (hconn : k.conn = 0)
    (hcrc : k.crc = trailer .ctrl k) :
    let u := s.bump NLT_RX_PKTS m.lport (s.pktAttr m k.conn)
    u.arrivalFits (accountOf m.lport m.pcp) (cellsOf k.plen) = true →
    s.arrive m .ctrl k = (((u.landPayload m (cellsOf k.plen)).liftPayload m (cellsOf k.plen)).connect m k).settle := by
  intro u hroom
  rw [State.arrive, preChecks_of_passes _ h]
  have fits : ¬ (!u.arrivalFits (accountOf m.lport m.pcp) (cellsOf k.plen)) = true := by simp [hroom]
  exact congrArg State.settle ((if_pos ⟨rfl, hconn⟩).trans ((if_neg fits).trans (if_neg (not_not_intro hcrc))))

/-! ### Address resolution (R351) -/

theorem answerAddress_of_own {s : State} {port target : Nat} {v6 : Bool}
    (hserves : s.isActive = true ∨ s.inRecovery = true) (hr : s.portRuns port = true) (ht : target ≠ 0)
    (ha : (if v6 then s.reg NLT_ADDR6_ADDR port else s.reg NLT_ADDR4_ADDR port) = target) :
    s.answerAddress port target v6 =
      { s with nlt := { s.nlt with arpOut := SMap.put (2 * port + Bool.nat v6) (target, v6) s.nlt.arpOut } } := by
  simp only [State.answerAddress, ha, hr, hserves, ht, ne_eq, not_false_eq_true, and_self, if_true]

/-- Settles O13: CTX_CMD by the connection that it finds, a CONNECT_REQ by the rows that it passes, a request for
an address by its port. -/
theorem connectionCommandsAct : Obligations.ConnectionCommandsAct := by
  intro s ht
  refine ⟨fun p id ci c hid hm hf hk => ⟨?teardown, ?pin, ?unpin, ?close⟩, ?params, ?connect, ?address⟩
  case teardown =>
    exact commandIf_path_of_eq (·.ctxTeardown id) (decide_eq_true hid) ht hm (ctxTeardown_of_known hf hk)
  case pin =>
    exact fun hp hroom => commandIf_path_of_eq (·.ctxPin id) (decide_eq_true hid) ht hm (ctxPin_of_room hf hk hp hroom)
  case unpin => exact commandIf_path_of_eq (·.ctxUnpin id) (decide_eq_true hid) ht hm (ctxUnpin_of_known hf hk)
  case close =>
    exact fun ho hs => commandIf_path_of_eq (·.ctxClose id) (decide_eq_true hid) ht hm (ctxClose_of_open hf ho hs)
  case params => exact fun port hport => command_next (.paramsSend port) s (·.sendParams port) (decide_eq_true hport) ht
  case connect =>
    intro m k hwf hconn u runs serves length udpPort version active whole legal subtype check hcrc hroom v
    have passes : HeaderPasses s m .ctrl k :=
      ⟨runs, serves, length, udpPort, version, active, whole, legal, fun _ => subtype, check⟩
    exact commandIf_of_eq (·.arrive m .ctrl k) hwf ht (arrive_connects passes hconn hcrc hroom)
  case address =>
    intro port target v6 hport hserves hr htarget ha sent
    exact commandIf_of_eq (·.answerAddress port target v6) (decide_eq_true hport) ht
      (answerAddress_of_own hserves hr htarget ha)

end Sys2Proof.Machine
end

