-- ==== Sys2Proof/Proofs/Requests.lean ====
section
/-! SUPPORT. XREQ on a thread: what its command answers from what its checks come to, and the checks of the requests of
cells, of a command's tracker entry and ledger marks, of draws and of regions (R115, R151, R158, R165, R184, R185, R190). -/

namespace Sys2Proof.Machine

open Sys2Proof.Reg

/-! ### The issue (R158, R184, R185) -/

/-- The issuer of an XREQ on thread `t`, as its checks see it. -/
abbrev State.issuer (s : State) (t : Nat) : Issuer :=
  { s := s.countIssue t, t := t, o := (s.countIssue t).ownerOf t, th := s.thread t, cmd := (s.countIssue t).threadCmd t,
    user := (s.countIssue t).profileOf t == .user }

/-- The operands of an XREQ name registers (WellFormed). -/
abbrev xreqOperands (rd ra rb : Nat) : Bool := decide (rd < 32) && decide (ra < 32) && decide (rb < 32)

section
variable {s : State} {t rd ra rb : Nat} (hok : xreqOperands rd ra rb = true) (ht : s.takes = true)
include hok ht

theorem exec_xreqCells : exec (.xreqCells t rd ra rb) s =
    .next ((s.runXreq t rd ra rb 1 (parseCells (s.blockAt t ra))).keepQueue s) :=
  commandIf_next _ s (fun s => s.runXreq t rd ra rb 1 (parseCells (s.blockAt t ra))) hok ht

theorem exec_xreqRelease : exec (.xreqRelease t rd ra rb) s =
    .next ((s.runXreq t rd ra rb 2 (parseRelease (s.blockAt t ra))).keepQueue s) :=
  commandIf_next _ s (fun s => s.runXreq t rd ra rb 2 (parseRelease (s.blockAt t ra))) hok ht

theorem exec_xreqTrack : exec (.xreqTrack t rd ra rb) s =
    .next ((s.runXreq t rd ra rb 8 (parseTrack (s.blockAt t ra))).keepQueue s) :=
  commandIf_next _ s (fun s => s.runXreq t rd ra rb 8 (parseTrack (s.blockAt t ra))) hok ht

theorem exec_xreqClear : exec (.xreqClear t rd ra rb) s =
    .next ((s.runXreq t rd ra rb 9 parseClear).keepQueue s) :=
  commandIf_next _ s (fun s => s.runXreq t rd ra rb 9 parseClear) hok ht

theorem exec_xreqDraw : exec (.xreqDraw t rd ra rb) s =
    .next ((s.runXreq t rd ra rb 10 (parseDraw (s.blockAt t ra) (s.blockAt t rb))).keepQueue s) :=
  commandIf_next _ s (fun s => s.runXreq t rd ra rb 10 (parseDraw (s.blockAt t ra) (s.blockAt t rb))) hok ht

theorem exec_xreqMark : exec (.xreqMark t rd ra rb) s =
    .next ((s.runXreq t rd ra rb 11 parseMark).keepQueue s) :=
  commandIf_next _ s (fun s => s.runXreq t rd ra rb 11 parseMark) hok ht

theorem exec_xreqRcheck : exec (.xreqRcheck t rd ra rb) s =
    .next ((s.runXreq t rd ra rb 12 (parseRcheck (s.blockAt t ra))).keepQueue s) :=
  commandIf_next _ s (fun s => s.runXreq t rd ra rb 12 (parseRcheck (s.blockAt t ra))) hok ht

theorem exec_xreqFilled : exec (.xreqFilled t rd ra rb) s =
    .next ((s.runXreq t rd ra rb 13 (parseFilled (s.blockAt t ra))).keepQueue s) :=
  commandIf_next _ s (fun s => s.runXreq t rd ra rb 13 (parseFilled (s.blockAt t ra))) hok ht

end

section
variable {s : State} {t rd ra rb n : Nat} {parse : Issuer → Parsed} {r : Host.Outcome State Fault Refusal}
  (hr : r = .next ((s.runXreq t rd ra rb n parse).keepQueue s)) (hi : s.issues t (.xreq rd ra rb n) = true)
include hr hi

/-- A request that passes its checks takes a ticket number and starts; while all of them are outstanding it stalls. -/
theorem xreq_starts {q : Req} {act : State → Nat → State} (hp : parse (s.issuer t) = .req q act) :
    let u := s.countIssue t
    let o := u.ownerOf t
    (u.ticketNumber o = none → r = .next (s.settle.keepQueue s)) ∧
    (∀ k, u.ticketNumber o = some k → r = .next (((s.movesOn ((act (u.issue o k q (rd == 0)) k).onThread t
      fun y => y.setG rd (BitVec.ofNat 64 k)) t).settle).keepQueue s)) := by
  obtain ⟨stalls, takesNumber⟩ := runXreq_req s t rd ra rb n parse hi q act hp
  exact ⟨fun hk => by rw [hr, stalls hk], fun k hk => by rw [hr, takesNumber k hk]⟩

theorem xreq_raises {e : Nat} (hp : parse (s.issuer t) = .raise e) :
    r = .next ((s.trap t e none).settle.keepQueue s) := by
  rw [hr, runXreq_raise s t rd ra rb n parse hi e hp]

theorem xreq_faults {e : Nat} (hp : parse (s.issuer t) = .fault e) :
    r = .next ((s.benchFault t e 0).settle.keepQueue s) := by
  rw [hr, runXreq_fault s t rd ra rb n parse hi e hp]

end

/-! ### The checks that requests share (R165, R185, R190, R191) -/

section
variable {x : Issuer}

theorem notNow_of_incomplete (hc : x.completed = false) : (x.notNow false).1 = false := by
  simp [Issuer.notNow, refuse, hc]

/-- A command's request, before its completion, on a Bench. -/
theorem notNow_of_bench (hc : x.completed = false) (hb : x.t < 512) : (x.notNow true).1 = false := by
  simp [Issuer.notNow, Issuer.bureau, refuse, hc, hb]

theorem notNow_of_completed {ofCommand : Bool} (hc : x.completed = true) : (x.notNow ofCommand).1 = true := by
  simp [Issuer.notNow, refuse, hc]

theorem notNow_of_bureau (hb : 512 ≤ x.t) : (x.notNow true).1 = true := by
  simp [Issuer.notNow, Issuer.bureau, refuse, hb]

theorem noBlock_of_ok {a n : Nat} (h : x.blockOk a n = true) : (x.noBlock a n).1 = false := by
  simp [Issuer.noBlock, h]

theorem noBlock_of_misplaced {a n : Nat} (h : x.blockOk a n = false) : (x.noBlock a n).1 = true := by
  simp [Issuer.noBlock, h]

theorem notHeld_of_holds {h : Nat} (hh : x.user = true → x.holds h = true) : (x.notHeld [h]).1 = false := by
  cases hu : x.user <;> simp [Issuer.notHeld, hu, hh]

theorem noRight_of_right {v need : Nat}
    (h : x.user = true → (x.cmd.map fun c => x.s.hasRight c.sub v need) = some true) : (x.noRight v need).1 = false := by
  cases hu : x.user <;> simp [Issuer.noRight, hu, h]

/-! ### CELLS and RELEASE (R165, R190) -/

theorem parseCells_of_allowed {n : Nat} (hc : x.completed = false) (hpos : 0 < n) (hle : n ≤ 65536)
    (hquota : x.user = false ∨ x.s.cellsHeld x.o + n ≤ x.s.reg BNC_USER_CELLS_CELLS) :
    parseCells n x = plainReq (.cells n) := by
  have inRange : (n == 0 || decide (65536 < n)) = false := by simp; omega
  have within : (x.user && decide (x.s.reg BNC_USER_CELLS_CELLS < x.s.cellsHeld x.o + n)) = false := by
    rcases hquota with h | h <;> simp [h]
  exact (firstOf_skip (notNow_of_incomplete hc)).trans ((firstOf_refuse inRange).trans (firstOf_pair within))

/-- After the completion the request is refused anyway, with the same exception. -/
theorem parseCells_of_out_of_range {n : Nat} (h : n = 0 ∨ 65536 < n) : parseCells n x = .raise excREQUEST := by
  have outOfRange : (refuse (n == 0 || decide (65536 < n))).1 = true := by simpa [refuse] using h
  cases hc : x.completed with
  | false => exact (firstOf_skip (notNow_of_incomplete hc)).trans (firstOf_hit outOfRange)
  | true => exact firstOf_hit (notNow_of_completed hc)

theorem parseCells_of_over_quota {n : Nat} (hc : x.completed = false) (hpos : 0 < n) (hle : n ≤ 65536) (hu : x.user = true)
    (hquota : x.s.reg BNC_USER_CELLS_CELLS < x.s.cellsHeld x.o + n) : parseCells n x = .fault 0x0B01 := by
  have inRange : (n == 0 || decide (65536 < n)) = false := by simp; omega
  exact (firstOf_skip (notNow_of_incomplete hc)).trans ((firstOf_refuse inRange).trans (firstOf_hit (by simp [hu, hquota])))

theorem parseRelease_of_group {h : Nat} (hu : x.user = false) (hg : (x.group h).isSome = true) :
    parseRelease h x = plainReq (.release h) := by
  have names : ((x.group h).isNone && !x.user) = false := by simpa [hu] using hg
  exact (firstOf_refuse names).trans (firstOf_skip (by simp [Issuer.notHeld, hu]))

theorem parseRelease_of_held {h : Nat} (hu : x.user = true) (hh : x.holds h = true) :
    parseRelease h x = plainReq (.release h) :=
  (firstOf_refuse (by simp [hu])).trans (firstOf_skip (notHeld_of_holds fun _ => hh))

theorem parseRelease_of_not_held {h : Nat} (hu : x.user = true) (hh : x.holds h = false) :
    parseRelease h x = .fault 0x0B02 :=
  (firstOf_refuse (by simp [hu])).trans (firstOf_hit (by simp [Issuer.notHeld, hu, hh]))

theorem parseRelease_of_no_group {h : Nat} (hu : x.user = false) (hg : x.group h = none) :
    parseRelease h x = .raise excREQUEST :=
  firstOf_hit (by simp [refuse, hu, hg])

/-! ### TRACK, CLEAR and MARK (R187, R191) -/

section
variable {a : Nat} (hb : x.blockOk a 20 = true) (hc : x.completed = false) (ht : x.t < 512) (hkind : x.arg a 2 1 ≤ 1)
  (hfree : x.cmd.bind (·.track) = none)
  (hright : x.user = true → (x.cmd.map fun c => x.s.hasRight c.sub (x.arg a 0 2) (x.arg a 2 1 + 1)) = some true)
include hb hc ht hkind hfree hright

/-- What decides a TRACK that every check lets pass is whether its volume's set is OFFLINE. -/
theorem parseTrack_of_allowed :
    parseTrack a x = if x.s.setOffline (x.s.volSet (x.arg a 0 2)) then endsWith .track x.o 0x0011 0 0
      else .req .track fun s _ => s.doTrack x.o (x.arg a 0 2) (x.arg a 8 8) (x.arg a 16 4) (x.arg a 2 1 == 1) := by
  have inRange : (decide (1 < x.arg a 2 1) || ((x.cmd.bind (·.track)).map (·.asked)).getD false) = false := by
    simp [hfree, hkind]
  exact (firstOf_skip (noBlock_of_ok hb)).trans ((firstOf_skip (notNow_of_bench hc ht)).trans
    ((firstOf_refuse inRange).trans (firstOf_skip (noRight_of_right hright))))

theorem parseTrack_of_serving (h : x.s.setOffline (x.s.volSet (x.arg a 0 2)) = false) :
    parseTrack a x = .req .track fun s _ => s.doTrack x.o (x.arg a 0 2) (x.arg a 8 8) (x.arg a 16 4) (x.arg a 2 1 == 1) :=
  (parseTrack_of_allowed hb hc ht hkind hfree hright).trans (if_neg (ne_true_of_eq_false h))

theorem parseTrack_of_offline (h : x.s.setOffline (x.s.volSet (x.arg a 0 2)) = true) :
    parseTrack a x = endsWith .track x.o 0x0011 0 0 :=
  (parseTrack_of_allowed hb hc ht hkind hfree hright).trans (if_pos h)

end

theorem parseTrack_of_misplaced {a : Nat} (hb : x.blockOk a 20 = false) : parseTrack a x = .raise excARGBLOCK :=
  firstOf_hit (noBlock_of_misplaced hb)

theorem parseClear_of_bench (hc : x.completed = false) (ht : x.t < 512) : parseClear x = plainReq .clear :=
  firstOf_skip (notNow_of_bench hc ht)

theorem parseClear_of_bureau (ht : 512 ≤ x.t) : parseClear x = .raise excREQUEST :=
  firstOf_hit (notNow_of_bureau ht)

theorem parseMark_of_bench (hc : x.completed = false) (ht : x.t < 512) : parseMark x = plainReq .mark :=
  firstOf_skip (notNow_of_bench hc ht)

theorem parseMark_of_completed (hc : x.completed = true) : parseMark x = .raise excREQUEST :=
  firstOf_hit (notNow_of_completed hc)

/-! ### DRAW (R151, R165) -/

/-- The reservation that a user draws from is its subscriber's: fault 0x0B07 does not arise. -/
theorem otherRsv_of_mine {id : Nat} {c : Cmd} (h : x.user = true → (x.s.rsvOf id).map (fun r => r.2.sub == c.sub) = some true) :
    (x.user && !((x.s.rsvOf id).map fun r => r.2.sub == c.sub).getD false) = false := by
  cases hu : x.user <;> simp [hu, h]

theorem parseDraw_of_drawn {id n : Nat} {c : Cmd} (hc : x.completed = false) (ht : x.t < 512) (hcmd : x.cmd = some c)
    (hmine : x.user = true → (x.s.rsvOf id).map (fun r => r.2.sub == c.sub) = some true)
    (hd : x.s.drawCheck c id n c.drawTerms.1 c.drawTerms.2 = none) :
    parseDraw id n x = .req .draw fun s k => (s.drawBytes x.o id n).finishTicket x.o k 0 := by
  simp only [parseDraw, hcmd, Option.getD_some, hd]
  exact (firstOf_skip (notNow_of_bench hc ht)).trans (firstOf_pair (otherRsv_of_mine hmine))

/-- A draw that R151 refuses with a status other than 0x0008, which alone logs a miss. -/
theorem parseDraw_of_refused {id n st dt : Nat} {c : Cmd} (hc : x.completed = false) (ht : x.t < 512) (hcmd : x.cmd = some c)
    (hmine : x.user = true → (x.s.rsvOf id).map (fun r => r.2.sub == c.sub) = some true) (hst : st ≠ 0x0008)
    (hd : x.s.drawCheck c id n c.drawTerms.1 c.drawTerms.2 = some (st, dt)) :
    parseDraw id n x = .req .draw fun s k => s.finishTicket x.o k (resultWord st dt 0) := by
  simp only [parseDraw, hcmd, Option.getD_some, hd, hst, if_false]
  exact (firstOf_skip (notNow_of_bench hc ht)).trans (firstOf_pair (otherRsv_of_mine hmine))

/-! ### RCHECK and FILLED (R115, R187) -/

theorem parseRcheck_of_allowed {a st v : Nat} {c : Cmd} (hb : x.blockOk a 20 = true) (hc : x.completed = false)
    (ht : x.t < 512) (hcmd : x.cmd = some c) (hmin : 4096 ≤ x.arg a 16 4) (hmax : x.arg a 16 4 ≤ 0xFFFFF000)
    (hr : (x.s.checkRegion (x.arg a 0 4) (x.arg a 8 8) (x.arg a 16 4) c.conn c.sub).getD (0, 0) = (st, v)) :
    parseRcheck a x = endsWith .rcheck x.o st (if st = 0x0006 then 2 else 0) v := by
  have inRange : (decide (x.arg a 16 4 < 4096) || decide (0xFFFFF000 < x.arg a 16 4)) = false := by simp [hmin, hmax]
  simp only [parseRcheck, hcmd, Option.getD_some, hr]
  exact (firstOf_skip (noBlock_of_ok hb)).trans ((firstOf_skip (notNow_of_bench hc ht)).trans (firstOf_refuse inRange))

theorem parseFilled_of_allowed {a : Nat} (hb : x.blockOk a 24 = true) (hc : x.completed = false) (ht : x.t < 512)
    (hr : x.rangesBad [(x.arg a 4 4, x.arg a 8 8, x.arg a 16 8)] = false)
    (hh : x.user = true → x.holds (x.arg a 4 4) = true) :
    parseFilled a x = plainReq (.filled (groupIx (x.arg a 4 4)) (x.arg a 8 8) (x.arg a 16 8)) :=
  (firstOf_skip (noBlock_of_ok hb)).trans ((firstOf_skip (notNow_of_bench hc ht)).trans
    ((firstOf_refuse hr).trans (firstOf_skip (notHeld_of_holds hh))))

end

/-- Settles O23: each request starts, raises or faults by what its checks come to. -/
theorem requestsOfThreadsStart : Obligations.RequestsOfThreadsStart := by
  intro s t rd ra rb ht hrd hra hrb th u o user x a arg raises faults starts quiet word
  have hok : xreqOperands rd ra rb = true := by simp [hrd, hra, hrb]
  have begins {r : Host.Outcome State Fault Refusal} {n : Nat} {parse : Issuer → Parsed} {q : Req}
      {act : State → Nat → State} (hr : r = .next ((s.runXreq t rd ra rb n parse).keepQueue s)) (hi : word n)
      (hp : parse x = .req q act) : starts q act r := xreq_starts hr hi hp
  -- With `starts` opaque, the request and what follows it are read off each conjunct.
  clear_value starts
  refine ⟨fun hi => ⟨?cells, ?cellsRange, ?cellsQuota⟩,
    fun hi => ⟨?release, ?releaseHeld, ?releaseNotHeld, ?releaseNone⟩,
    fun hi hb hc hbench hkind hfree hright => ⟨?track, ?trackOffline⟩, ?trackBlock, ?clear, ?clearBureau,
    fun c hi hc hbench hcmd hmine => ⟨?draw, ?drawRefused⟩, ?mark, ?markCompleted,
    fun c hi hb hc hbench hcmd hmin hmax => ⟨?rcheck, ?rcheckRefused⟩, ?filled⟩
  case cells =>
    exact fun hpos hle hc hquota => begins (exec_xreqCells hok ht) hi (parseCells_of_allowed hc hpos hle hquota)
  case cellsRange => exact fun h => xreq_raises (exec_xreqCells hok ht) hi (parseCells_of_out_of_range h)
  case cellsQuota =>
    exact fun hpos hle hc hu hquota =>
      xreq_faults (exec_xreqCells hok ht) hi (parseCells_of_over_quota hc hpos hle hu hquota)
  case release => exact fun hu hg => begins (exec_xreqRelease hok ht) hi (parseRelease_of_group hu hg)
  case releaseHeld => exact fun hu hh => begins (exec_xreqRelease hok ht) hi (parseRelease_of_held hu hh)
  case releaseNotHeld => exact fun hu hh => xreq_faults (exec_xreqRelease hok ht) hi (parseRelease_of_not_held hu hh)
  case releaseNone => exact fun hu hg => xreq_raises (exec_xreqRelease hok ht) hi (parseRelease_of_no_group hu hg)
  case track =>
    exact fun hon => begins (exec_xreqTrack hok ht) hi (parseTrack_of_serving hb hc hbench hkind hfree hright hon)
  case trackOffline =>
    exact fun hoff => begins (exec_xreqTrack hok ht) hi (parseTrack_of_offline hb hc hbench hkind hfree hright hoff)
  case trackBlock => exact fun hi hb => xreq_raises (exec_xreqTrack hok ht) hi (parseTrack_of_misplaced hb)
  case clear => exact fun hi hc hbench => begins (exec_xreqClear hok ht) hi (parseClear_of_bench hc hbench)
  case clearBureau => exact fun hi hbureau => xreq_raises (exec_xreqClear hok ht) hi (parseClear_of_bureau hbureau)
  case draw => exact fun hd => begins (exec_xreqDraw hok ht) hi (parseDraw_of_drawn hc hbench hcmd hmine hd)
  case drawRefused =>
    exact fun dt hd => begins (exec_xreqDraw hok ht) hi (parseDraw_of_refused hc hbench hcmd hmine (by decide) hd)
  case mark => exact fun hi hc hbench => begins (exec_xreqMark hok ht) hi (parseMark_of_bench hc hbench)
  case markCompleted => exact fun hi hc => xreq_raises (exec_xreqMark hok ht) hi (parseMark_of_completed hc)
  case rcheck =>
    exact fun hr => begins (exec_xreqRcheck hok ht) hi
      (parseRcheck_of_allowed hb hc hbench hcmd hmin hmax (congrArg (Option.getD · (0, 0)) hr))
  case rcheckRefused =>
    exact fun st v hr => begins (exec_xreqRcheck hok ht) hi
      (parseRcheck_of_allowed hb hc hbench hcmd hmin hmax (congrArg (Option.getD · (0, 0)) hr))
  case filled =>
    exact fun hi hb hc hbench hr hh => begins (exec_xreqFilled hok ht) hi (parseFilled_of_allowed hb hc hbench hr hh)

end Sys2Proof.Machine
end

