-- ==== Sys2Proof/Proofs/Handlers.lean ====
section
/-! SUPPORT. A handler's start, its resume, the completion of a request and the two timeouts, each where its time has come
(R134, R159, R160, R166, R187). -/

namespace Sys2Proof.Machine

open Sys2Proof.Reg

section
variable {s : State} {f t : Nat} {c : Cmd}

/-! ### COMMAND_DISPATCH and COMMAND_RESUME (R159, R160) -/

/-- A dispatch is counted, and its command has issued nothing yet. -/
def State.dispatched (s : State) (f : Nat) (c : Cmd) : State :=
  (s.updFrame f fun c => { c with issued := 0 }).bump BNC_DISPATCHES 0 (c.attr s)

section
variable (hf : s.frame f = some c) (hq : c.phase = .queued) (hfirst : s.firstQueued f c = true)
  (hfree : s.threadFree t = true) (hno : s.noThread = false)
include hf hq hfirst hfree hno

theorem startCommand_of_builtin (hs : c.slot = builtinSlot) : s.startCommand f t = (s.dispatched f c).runBuiltin f t := by
  simp [State.startCommand, State.dispatched, hf, hq, hfirst, hfree, hno, hs]

/-- A handler with an image starts at the entry that its command names. -/
theorem startCommand_of_image {im : Image} (hs : c.slot ≠ builtinSlot)
    (hi : SMap.find (s.dispatched f c).bnc.images c.slot = some im) :
    s.startCommand f t = (s.dispatched f c).takeThread f t (im.entries.getD c.entry (0, false)).1 := by
  rw [State.dispatched] at hi
  simp [State.startCommand, State.dispatched, hf, hq, hfirst, hfree, hno, hs, hi]

end

/-- A resume is counted, and the fetch of a frame that is not on the die as well. -/
def State.resumed (s : State) (c : Cmd) (cached : Bool) : State :=
  let r := s.bump BNC_RESUMES 0 (c.attr s)
  if cached then r else r.bump BNC_FRAME_MISSES 0 (c.attr r)

theorem resumeCommand_of_done {m : Nat} (cached : Bool) (hf : s.frame f = some c) (hp : c.phase = .parked m)
    (hd : s.allDone f m = true) (hfree : s.threadFree t = true) :
    s.resumeCommand f t cached = if c.slot = builtinSlot then (s.resumed c cached).runBuiltin f t
      else (((s.resumed c cached).takeThread f t c.resumePc).updThread t fun th =>
        { th with g := savedRegs c.saved }).freeThreadState t := by
  simp only [State.resumeCommand, State.resumed, hf, hp, hd, hfree, Bool.not_true, Bool.false_eq_true, or_self, if_false]

/-! ### REQUEST_COMPLETE (R187) -/

section
variable {o k : Nat} {tk : Ticket} (hk : s.ticket o k = some tk) (hn : tk.done = none)
include hk hn

theorem completeRequest_of_ready {w : DWord} (hw : tk.ready = some w) : s.completeRequest o k = s.finishTicket o k w := by
  simp [State.completeRequest, hk, hn, hw]

theorem completeRequest_of_trackFree (hw : tk.ready = none) (hr : tk.req = .track) (h : s.trackFree o = true) :
    s.completeRequest o k = s.finishTicket o k 0 := by
  simp [State.completeRequest, hk, hn, hw, hr, h]

theorem completeRequest_of_filled {g a n : Nat} (hw : tk.ready = none) (hr : tk.req = .filled g a n)
    (h : s.isFilled g a n = true) : s.completeRequest o k = s.finishTicket o k 0 := by
  simp [State.completeRequest, hk, hn, hw, hr, h]

end

/-! ### GRANT_TIMEOUT and USER_WALL_TIMEOUT (R134, R166) -/

theorem grantExpires_of_due {k : Nat} {g : Grant} (hg : SMap.find s.ctx.grants k = some g) (ho : g.isOpen = true)
    (hd : max 1 (s.reg CMD_GRANT_TIMEOUT) ≤ s.rtu.cycle - g.lastCycle) :
    let u := s.setGrant k { g with isOpen := false }
    s.grantExpires k = ((u.bump CMD_GRANT_TIMEOUTS 0 (u.cmdAttr (some g.owner))).raise
      CMD_EVENT_GRANT_TIMEOUT).failData g.owner 0x0004 4 0 := by
  simp only [State.grantExpires, hg]
  exact if_pos ⟨ho, hd⟩

section
variable (hf : s.frame f = some c) (hmin : 32 ≤ c.slot) (hmax : c.slot < 64) (hc : c.comp = none)
  (hd : s.wall ≤ s.rtu.cycle - c.dispatchCycle)
include hf hmin hmax hc hd

/-- The fault names where the thread stands. -/
theorem wallExpires_of_running (hp : c.phase = .running t) :
    s.wallExpires f = s.faultCommand f 0x0B11 (s.thread t).pc 0 := by
  simp [State.wallExpires, hf, hmin, hmax, hc, hd, hp]

/-- A command that no handler runs for has its resume point in the fault's place. -/
theorem wallExpires_of_queued (hp : c.phase = .queued) : s.wallExpires f = s.faultCommand f 0x0B11 c.resumePc 0 := by
  simp [State.wallExpires, hf, hmin, hmax, hc, hd, hp]

end

end

/-- Settles O15, each command by its operation where its time has come. -/
theorem handlersStartResumeAndFinish : Obligations.HandlersStartResumeAndFinish := by
  intro s f t ht hf65536 ht512
  have operands : (decide (f < 65536) && decide (t < 512)) = true := by simp [hf65536, ht512]
  refine ⟨?dispatch, ?resume, ?complete, ?grant, ?wall⟩
  case dispatch =>
    intro c hf hq hfirst hfree hno u
    -- Rewritten with, not left to unification, which would evaluate the counter's registers.
    have counted : u = s.dispatched f c := rfl
    clear_value u
    rw [counted]
    have starts {v : State} (h : s.startCommand f t = v) : exec (.commandDispatch f t) s = .next (v.settle.keepQueue s) :=
      commandIf_of_eq (fun s => (s.startCommand f t).settle) operands ht (congrArg State.settle h)
    exact ⟨fun hs => starts (startCommand_of_builtin hf hq hfirst hfree hno hs),
      fun _ hs hi => starts (startCommand_of_image hf hq hfirst hfree hno hs hi)⟩
  case resume =>
    exact fun c m cached hf hp hd hfree => commandIf_of_eq (fun s => (s.resumeCommand f t cached).settle) operands ht
      (congrArg State.settle (resumeCommand_of_done cached hf hp hd hfree))
  case complete =>
    intro o k tk hk htk hn
    have ends {w : DWord} (h : s.completeRequest o k = s.finishTicket o k w) :
        exec (.requestComplete o k) s = .next ((s.finishTicket o k w).settle.keepQueue s) :=
      commandIf_of_eq (fun s => (s.completeRequest o k).settle) (decide_eq_true hk) ht (congrArg State.settle h)
    refine ⟨fun w hw => ends (completeRequest_of_ready htk hn hw), fun hw holds => ?_⟩
    rcases holds with ⟨hr, h⟩ | ⟨g, a, n, hr, h⟩
    case inl => exact ends (completeRequest_of_trackFree htk hn hw hr h)
    case inr => exact ends (completeRequest_of_filled htk hn hw hr h)
  case grant =>
    exact fun k g hk hg ho hd => commandIf_of_eq (fun s => (s.grantExpires k).settle) (decide_eq_true hk) ht
      (congrArg State.settle (grantExpires_of_due hg ho hd))
  case wall =>
    intro c hf hmin hmax hc hd
    have faults {v : State} (h : s.wallExpires f = v) : exec (.userWallTimeout f) s = .next (v.settle.keepQueue s) :=
      commandIf_of_eq (fun s => (s.wallExpires f).settle) (decide_eq_true hf65536) ht (congrArg State.settle h)
    exact ⟨fun hp => faults (wallExpires_of_running hf hmin hmax hc hd hp),
      fun hp => faults (wallExpires_of_queued hf hmin hmax hc hd hp)⟩

end Sys2Proof.Machine
end

