-- ==== Sys2Proof/Proofs/HandlerImages.lean ====
section
/-! SUPPORT. A handler image that its slot admits: a load's start and its end, an unload (R164, R165, R171, R172, R173). -/

namespace Sys2Proof.Machine

open Sys2Proof.Reg

section
variable {s : State} {p : Path} {k : Nat}

/-- A path that the slot belongs to, with no operation running, has its operation done. -/
theorem loadCmd_of_idle (f : State → State) (hp : 32 ≤ k ∨ p = .bureau) (hb : s.flag BNC_LOAD_STATUS_BUSY = false) :
    s.loadCmd p k f = f s := by
  have own : ¬ (k < 32 ∧ p ≠ .bureau) := by
    rintro ⟨hk, hne⟩
    exact hp.elim (Nat.not_le.mpr hk) hne
  exact (if_neg own).trans (if_neg (ne_true_of_eq_false hb))

theorem loadStart_of_empty (h : s.reg BNC_SLOT_STATE_STATE k = slotEmpty) :
    let u : State := { s with bnc := { s.bnc with loading := some (k, s.reg BNC_LOAD_ADDR_ADDR) } }
    s.loadStart k = ((u.setReg BNC_SLOT_STATE_STATE k slotLoading).setFlag BNC_LOAD_STATUS_BUSY 0 true).setReg
      BNC_LOAD_STATUS_SLOT 0 k :=
  if_neg (not_not_intro h)

/-- An unload ends at once, of an EMPTY slot as well (log entry 54). -/
theorem unload_of_unused (h : s.slotInUse k = false) :
    let u : State := { s with bnc := { s.bnc with images := SMap.del k s.bnc.images } }
    let v := (u.setReg BNC_SLOT_STATE_STATE k slotEmpty).setReg BNC_SLOT_STATE_KIND k 0
    s.unload k = ((v.setReg BNC_SLOT_STATE_CODE_KIB k 0).setReg BNC_CODE_USED_COUNT 0 v.codeUsed).loadEnds k 0 :=
  if_neg (ne_true_of_eq_false h)

/-- The state in which the load that was running has its result. -/
abbrev State.verified (s : State) : State :=
  ({ s with bnc := { s.bnc with loading := none } } : State).setFlag BNC_LOAD_STATUS_BUSY 0 false

section
variable {a r : Nat} (hl : s.bnc.loading = some (k, a))
include hl

theorem loadDone_of_image {im : Image} (h : s.checkImage k a = (r, some im)) :
    s.loadDone = (s.verified.putImage k im).loadEnds k r := by
  simp only [State.loadDone, hl, h]

theorem loadDone_of_failed (h : s.checkImage k a = (r, none)) :
    s.loadDone = (s.verified.setReg BNC_SLOT_STATE_STATE k slotEmpty).loadEnds k r := by
  simp only [State.loadDone, hl, h]

end

end

/-- Settles O16, each operation by what its slot is found to hold or the checks to answer. -/
theorem imagesLoadAndUnload : Obligations.ImagesLoadAndUnload := by
  intro s p k ht hk
  have slot : decide (k < 64) = true := decide_eq_true hk
  refine ⟨fun hw hp hb => ⟨?load, ?unload⟩, fun a hl => ⟨?image, ?failed⟩⟩
  case load =>
    exact fun h => commandIf_path_of_eq (·.loadCmd p k (·.loadStart k)) slot ht hw
      ((loadCmd_of_idle _ hp hb).trans (loadStart_of_empty h))
  case unload =>
    exact fun h => commandIf_path_of_eq (·.loadCmd p k (·.unload k)) slot ht hw
      ((loadCmd_of_idle _ hp hb).trans (unload_of_unused h))
  case image => exact fun r im h => commandIf_of_eq State.loadDone rfl ht (loadDone_of_image hl h)
  case failed => exact fun r h => commandIf_of_eq State.loadDone rfl ht (loadDone_of_failed hl h)

end Sys2Proof.Machine
end

