-- ==== Sys2Proof/Proofs/DataRequests.lean ====
section
/-! SUPPORT. The data requests of a thread: which row issues which request, and the checks of EMIT, CIPHER, PARITY, LEDGER and
DRIVE on an argument block that they let pass (R165, R168, R185, R188 to R191). -/

namespace Sys2Proof.Machine

open Sys2Proof.Reg

/-! ### The rows -/

/-- What XREQ of request `n` on a thread answers, with RA's value the address of the argument block. -/
abbrev State.xreqAnswer (s : State) (t rd ra rb n : Nat) (parse : Nat → Issuer → Parsed) : Host.Outcome State Fault Refusal :=
  .next ((s.runXreq t rd ra rb n (parse (s.blockAt t ra))).keepQueue s)

section
variable {s : State} {t rd ra rb : Nat} (hok : xreqOperands rd ra rb = true) (ht : s.takes = true)
include hok ht

/-- A row of XREQ answers its request on the block that RA names. -/
theorem xreqAnswer_of_row (n : Nat) (parse : Nat → Issuer → Parsed) :
    commandIf (xreqOperands rd ra rb) s (fun s => s.runXreq t rd ra rb n (parse (s.blockAt t ra))) =
      s.xreqAnswer t rd ra rb n parse :=
  commandIf_next _ s _ hok ht

/-- Every row of EMIT is the one request, whatever kind the row names: the block decides (log entry 52). -/
theorem exec_xreqEmit :
    exec (.xreqEmitXrdy t rd ra rb) s = s.xreqAnswer t rd ra rb 3 parseEmit ∧
    exec (.xreqEmitData t rd ra rb) s = s.xreqAnswer t rd ra rb 3 parseEmit ∧
    exec (.xreqEmitCmpl t rd ra rb) s = s.xreqAnswer t rd ra rb 3 parseEmit ∧
    exec (.xreqEmitCtrl t rd ra rb) s = s.xreqAnswer t rd ra rb 3 parseEmit ∧
    exec (.xreqEmitMgmt t rd ra rb) s = s.xreqAnswer t rd ra rb 3 parseEmit :=
  have row := xreqAnswer_of_row hok ht 3 parseEmit
  ⟨row, row, row, row, row⟩

theorem exec_xreqCipher :
    exec (.xreqCipherEncrypt t rd ra rb) s = s.xreqAnswer t rd ra rb 4 parseCipher ∧
    exec (.xreqCipherDecrypt t rd ra rb) s = s.xreqAnswer t rd ra rb 4 parseCipher :=
  have row := xreqAnswer_of_row hok ht 4 parseCipher
  ⟨row, row⟩

theorem exec_xreqParity :
    exec (.xreqParityGen t rd ra rb) s = s.xreqAnswer t rd ra rb 5 parseParity ∧
    exec (.xreqParityUpdate t rd ra rb) s = s.xreqAnswer t rd ra rb 5 parseParity ∧
    exec (.xreqParityRecon t rd ra rb) s = s.xreqAnswer t rd ra rb 5 parseParity ∧
    exec (.xreqParityCompare t rd ra rb) s = s.xreqAnswer t rd ra rb 5 parseParity :=
  have row := xreqAnswer_of_row hok ht 5 parseParity
  ⟨row, row, row, row⟩

theorem exec_xreqLedger : exec (.xreqLedger t rd ra rb) s = s.xreqAnswer t rd ra rb 6 parseLedger :=
  xreqAnswer_of_row hok ht 6 parseLedger

theorem exec_xreqDrive :
    exec (.xreqDriveRead t rd ra rb) s = s.xreqAnswer t rd ra rb 7 parseDrive ∧
    exec (.xreqDriveWrite t rd ra rb) s = s.xreqAnswer t rd ra rb 7 parseDrive ∧
    exec (.xreqDriveFlush t rd ra rb) s = s.xreqAnswer t rd ra rb 7 parseDrive ∧
    exec (.xreqDriveDeallocate t rd ra rb) s = s.xreqAnswer t rd ra rb 7 parseDrive :=
  have row := xreqAnswer_of_row hok ht 7 parseDrive
  ⟨row, row, row, row⟩

end

section
variable {x : Issuer} {a : Nat}

/-! ### Argument blocks (R185) -/

theorem blockOk_of_unaligned {n : Nat} (h : a % 8 ≠ 0) : x.blockOk a n = false := by
  simp [Issuer.blockOk, h]

/-- A shorter block at the same place lies in the local memory too. -/
theorem blockOk_mono {m n : Nat} (hmn : m ≤ n) (h : x.blockOk a n = true) : x.blockOk a m = true := by
  simp only [Issuer.blockOk, Bool.and_eq_true, decide_eq_true_eq] at h ⊢
  obtain ⟨aligned, within⟩ := h
  exact ⟨aligned, by omega⟩

section
variable (h : a % 8 ≠ 0)
include h

theorem parseEmit_of_unaligned : parseEmit a x = .raise excARGBLOCK :=
  if_pos (by simp [blockOk_of_unaligned h])

theorem parseCipher_of_unaligned : parseCipher a x = .raise excARGBLOCK :=
  firstOf_hit (noBlock_of_misplaced (blockOk_of_unaligned h))

theorem parseParity_of_unaligned : parseParity a x = .raise excARGBLOCK :=
  firstOf_hit (noBlock_of_misplaced (blockOk_of_unaligned h))

theorem parseLedger_of_unaligned : parseLedger a x = .raise excARGBLOCK :=
  firstOf_hit (noBlock_of_misplaced (blockOk_of_unaligned h))

theorem parseDrive_of_unaligned : parseDrive a x = .raise excARGBLOCK :=
  firstOf_hit (noBlock_of_misplaced (blockOk_of_unaligned h))

end

/-! ### What a user may name (R165) -/

theorem notHeld_of_all {hs : List Nat} (h : x.user = true → hs.all x.holds = true) : (x.notHeld hs).1 = false := by
  cases hu : x.user <;> simp_all [Issuer.notHeld]

theorem badRange_of_within {v b n : Nat} (h : x.user = true → x.inVolume v b n = true ∧ x.tracked v b n = true) :
    (x.badRange v b n).1 = false := by
  cases hu : x.user <;> simp_all [Issuer.badRange]

/-! ### EMIT (R168, R188) -/

theorem parseEmit_of_cells (hb : x.blockOk a 8 = true) (hk : x.arg a 0 1 = 2 ∨ x.arg a 0 1 = 3) :
    parseEmit a x = parseEmitCells a x := by
  rcases hk with hk | hk <;> simp [parseEmit, hb, hk]

theorem parseEmit_of_cmpl (hb : x.blockOk a 8 = true) (hk : x.arg a 0 1 = 4) : parseEmit a x = parseEmitCmpl a x := by
  simp [parseEmit, hb, hk]

theorem parseEmit_of_system (hb : x.blockOk a 8 = true) (hk : x.arg a 0 1 = 9 ∨ x.arg a 0 1 = 10) :
    parseEmit a x = parseEmitSystem a x := by
  rcases hk with hk | hk <;> simp [parseEmit, hb, hk]

/-- The range of a user's DATA emission lies in the command's region: fault 0x0B03 does not arise. -/
theorem notOutside_of_inside {P : Cmd → Bool} (hp : x.user = true → x.arg a 0 1 = 3 → ∀ c, x.cmd = some c → P c = false) :
    (x.user && x.arg a 0 1 == 3 && (x.cmd.map P).getD false) = false := by
  cases hu : x.user
  case false => rfl
  case true =>
    by_cases hk : x.arg a 0 1 = 3
    · cases hc : x.cmd with
      | none => simp
      | some c => simp [hp hu hk c hc]
    · simp [hk]

theorem parseEmitCells_of_allowed (hb : x.blockOk a 32 = true) (hc : x.completed = false) (ht : x.t < 512)
    (hgoff : x.arg a 8 8 % 4096 = 0) (hcoff : x.arg a 16 8 % 4096 = 0) (hlen : x.arg a 24 8 % 4096 = 0)
    (hpos : x.arg a 24 8 ≠ 0) (hr : x.rangesBad [(x.arg a 4 4, x.arg a 8 8, x.arg a 24 8)] = false)
    (hh : x.user = true → [x.arg a 4 4].all x.holds = true)
    (hregion : x.user = true → x.arg a 0 1 = 3 → ∀ c, x.cmd = some c →
      x.s.checkRegion c.dkey (c.doff + x.arg a 16 8) (x.arg a 24 8) c.conn c.sub = none) :
    parseEmitCells a x = plainReq (if x.arg a 0 1 = 2
      then .xrdy (groupIx (x.arg a 4 4)) (x.arg a 8 8) (x.arg a 16 8) (x.arg a 24 8) none
      else .data (groupIx (x.arg a 4 4)) (x.arg a 8 8) (x.arg a 16 8) (x.arg a 24 8) 0 none) := by
  have inRange : (x.arg a 8 8 % 4096 != 0 || x.arg a 16 8 % 4096 != 0 || x.arg a 24 8 % 4096 != 0 ||
      x.rangesBad [(x.arg a 4 4, x.arg a 8 8, x.arg a 24 8)]) = false := by simp [hgoff, hcoff, hlen, hr]
  have inside := notOutside_of_inside (a := a)
    fun hu hk c hcmd => (congrArg Option.isSome (hregion hu hk c hcmd)).trans Option.isSome_none
  refine (firstOf_skip (noBlock_of_ok hb)).trans ((firstOf_skip (notNow_of_bench hc ht)).trans ((firstOf_refuse inRange).trans
    ((firstOf_skip (notHeld_of_all hh)).trans ((firstOf_pair inside).trans ?_))))
  simp only [firstOf, List.find?_nil, hpos, if_false]
  split <;> rfl

theorem parseEmitCmpl_of_first (hb : x.blockOk a 24 = true) (hc : x.completed = false) (ht : x.t < 512)
    (hclass : x.arg a 1 1 ≤ 1) :
    parseEmitCmpl a x = .req .cmpl fun s _ =>
      s.complete x.o (x.arg a 2 2) (x.arg a 4 2) (x.arg a 8 4) (x.arg a 16 8) (x.arg a 1 1 == 1) := by
  have bench : x.bureau = false := by simp [Issuer.bureau, ht]
  have inRange : decide (1 < x.arg a 1 1) = false := by simp [hclass]
  exact (firstOf_skip (noBlock_of_ok hb)).trans ((firstOf_pair hc).trans ((firstOf_refuse bench).trans (firstOf_refuse inRange)))

theorem parseEmitCmpl_of_second (hb : x.blockOk a 24 = true) (hc : x.completed = true) :
    parseEmitCmpl a x = .raise excSECOND_COMPLETION :=
  (firstOf_skip (noBlock_of_ok hb)).trans (firstOf_hit hc)

theorem parseEmitSystem_of_allowed (hb : x.blockOk a 24 = true) (hc : x.completed = false) (hu : x.user = false)
    (hmax : x.arg a 16 2 ≤ 1024) (hconn : (x.s.findConn (x.arg a 20 4)).isSome = true)
    (hr : x.arg a 16 2 = 0 ∨ x.rangesBad [(x.arg a 4 4, x.arg a 8 8, x.arg a 16 2)] = false) :
    parseEmitSystem a x =
      .req (if x.arg a 0 1 = 9 then .ctrl (x.arg a 20 4) (x.arg a 1 1) else .mgmt (x.arg a 20 4) (x.arg a 1 1))
        fun s n => (s.started x.o n).emitSystem x.o n (x.arg a 0 1) (x.arg a 20 4) (x.arg a 1 1)
          (groupIx (x.arg a 4 4)) (x.arg a 8 8) (x.arg a 16 2) := by
  have known : (x.s.findConn (x.arg a 20 4)).isNone = false := Option.isNone_eq_false_iff.mpr hconn
  have payload : (x.arg a 16 2 != 0 && x.rangesBad [(x.arg a 4 4, x.arg a 8 8, x.arg a 16 2)]) = false := by
    rcases hr with h | h <;> simp [h]
  have inRange : (decide (1024 < x.arg a 16 2) || (x.s.findConn (x.arg a 20 4)).isNone ||
      (x.arg a 16 2 != 0 && x.rangesBad [(x.arg a 4 4, x.arg a 8 8, x.arg a 16 2)])) = false := by
    simp only [known, payload, Bool.or_false, decide_eq_false (Nat.not_lt.mpr hmax)]
  exact (firstOf_skip (noBlock_of_ok hb)).trans ((firstOf_skip (notNow_of_incomplete hc)).trans
    ((firstOf_refuse inRange).trans (firstOf_pair hu)))

/-! ### CIPHER (R165, R188) -/

/-- The slot of a CIPHER request: the one that it names, or with 0xFFFF the volume's. -/
abbrev Issuer.cipherSlot (x : Issuer) (a : Nat) : Option Nat :=
  if x.arg a 20 2 = 0xFFFF then x.s.volumeSlot (x.arg a 2 2) else some (x.arg a 20 2)

theorem parseCipher_of_allowed {slot : Nat} (hb : x.blockOk a 32 = true) (hop : x.arg a 0 1 ≤ 1) (hc : x.completed = false)
    (hslot : x.cipherSlot a = some slot) (hmax : slot < 8192) (hpos : x.arg a 16 4 ≠ 0)
    (hr : x.rangesBad [(x.arg a 4 4, x.arg a 8 8, x.arg a 16 4 * 4096)] = false)
    (hh : x.user = true → [x.arg a 4 4].all x.holds = true)
    (hown : x.user = true → x.s.volumeSlot (x.arg a 2 2) = some slot) :
    parseCipher a x = plainReq (.cipher (x.arg a 0 1 == 0) slot (groupIx (x.arg a 4 4)) (x.arg a 8 8) (x.arg a 16 4)
      (dataUnit (x.arg a 2 2) (x.arg a 24 8)) [] false) := by
  have inRange : (decide (1 < x.arg a 0 1) || x.rangesBad [(x.arg a 4 4, x.arg a 8 8, x.arg a 16 4 * 4096)] ||
      (some slot).isNone || decide (8192 ≤ (some slot).getD 0)) = false := by simp [hop, hr, hmax]
  have volumes : (x.user && some slot != x.s.volumeSlot (x.arg a 2 2)) = false := by
    cases hu : x.user <;> simp [hu, hown]
  unfold parseCipher
  simp only [hslot, hpos, if_false]
  exact (firstOf_skip (noBlock_of_ok hb)).trans ((firstOf_skip (notNow_of_incomplete hc)).trans
    ((firstOf_refuse inRange).trans ((firstOf_skip (notHeld_of_all hh)).trans (firstOf_pair volumes))))

/-! ### PARITY (R188) -/

/-- The ranges that a PARITY request reads and writes. -/
abbrev Issuer.parityRanges (x : Issuer) (a mode : Nat) : List (Nat × Nat × Nat) :=
  let n := x.arg a 1 1
  let j := x.arg a 2 1
  let b := x.arg a 3 1
  let len := x.arg a 32 8
  match mode with
  | 0 => [(x.arg a 4 4, x.arg a 8 8, x.arg a 40 4 * n * len), (x.arg a 16 4, x.arg a 24 8, x.arg a 40 4 * 2 * len)]
  | 1 => [(x.arg a 4 4, x.arg a 8 8, 4 * len), (x.arg a 16 4, x.arg a 24 8, 2 * len)]
  | 2 => [(x.arg a 4 4, x.arg a 8 8, (n + 2) * len), (x.arg a 16 4, x.arg a 24 8, (if b = 0xFF ∨ b = j then 1 else 2) * len)]
  | _ => [(x.arg a 4 4, x.arg a 8 8, len), (x.arg a 16 4, x.arg a 24 8, len)]

theorem parseParity_of_allowed {mode : Nat} (hb : x.blockOk a 44 = true) (hm : x.arg a 0 1 = mode) (hmax : mode ≤ 3)
    (hc : x.completed = false) (hlen : x.arg a 32 8 % 4096 = 0)
    (hlost : mode = 2 → x.arg a 2 1 < x.arg a 1 1 + 2 ∧ (x.arg a 3 1 = 0xFF ∨ x.arg a 3 1 < x.arg a 1 1 + 2))
    (hr : x.rangesBad (x.parityRanges a mode) = false)
    (hh : x.user = true → [x.arg a 4 4, x.arg a 16 4].all x.holds = true) :
    parseParity a x = plainReq (.parity mode (x.arg a 1 1) (x.arg a 2 1) (x.arg a 3 1) (groupIx (x.arg a 4 4)) (x.arg a 8 8)
      (groupIx (x.arg a 16 4)) (x.arg a 24 8) (x.arg a 32 8) (x.arg a 40 4)) := by
  subst hm
  have strips : (x.arg a 0 1 == 2 && (decide (x.arg a 1 1 + 2 ≤ x.arg a 2 1) ||
      (x.arg a 3 1 != 0xFF && decide (x.arg a 1 1 + 2 ≤ x.arg a 3 1)))) = false := by
    by_cases h2 : x.arg a 0 1 = 2
    · obtain ⟨first, second | second⟩ := hlost h2 <;> simp [first, second]
    · simp [h2]
  have inRange : (decide (3 < x.arg a 0 1) || x.arg a 32 8 % 4096 != 0 || (x.arg a 0 1 == 2 &&
      (decide (x.arg a 1 1 + 2 ≤ x.arg a 2 1) || (x.arg a 3 1 != 0xFF && decide (x.arg a 1 1 + 2 ≤ x.arg a 3 1)))) ||
      x.rangesBad (x.parityRanges a (x.arg a 0 1))) = false := by
    rw [strips, hr]; simp [hmax, hlen]
  exact (firstOf_skip (noBlock_of_ok hb)).trans ((firstOf_skip (notNow_of_incomplete hc)).trans
    ((firstOf_refuse inRange).trans (firstOf_skip (notHeld_of_all hh))))

/-! ### LEDGER (R165, R188) -/

theorem parseLedger_of_allowed (hb : x.blockOk a 20 = true) (hc : x.completed = false)
    (hv : x.user = false → x.inVolume (x.arg a 0 2) (x.arg a 8 8) (x.arg a 16 4) = true)
    (hright : x.user = true → (x.cmd.map fun c => x.s.hasRight c.sub (x.arg a 0 2) 2) = some true)
    (hin : x.user = true → x.inVolume (x.arg a 0 2) (x.arg a 8 8) (x.arg a 16 4) = true ∧
      x.tracked (x.arg a 0 2) (x.arg a 8 8) (x.arg a 16 4) = true) :
    parseLedger a x = plainReq (.ledger (x.arg a 0 2) (x.arg a 8 8) (x.arg a 16 4)) := by
  have inRange : (!x.user && !x.inVolume (x.arg a 0 2) (x.arg a 8 8) (x.arg a 16 4)) = false := by
    cases hu : x.user <;> simp [hu, hv]
  exact (firstOf_skip (noBlock_of_ok hb)).trans ((firstOf_skip (notNow_of_incomplete hc)).trans
    ((firstOf_refuse inRange).trans ((firstOf_skip (noRight_of_right hright)).trans (firstOf_skip (badRange_of_within hin)))))

/-! ### DRIVE (R165, R187 to R189) -/

/-- A DRIVE request's RAW flag: it names a drive's own blocks. -/
abbrev Issuer.driveRaw (x : Issuer) (a : Nat) : Nat := x.arg a 1 1 / 2 % 2

/-- The ranges that a DRIVE request reads and writes: its data, and for a write that is not RAW the parity. -/
abbrev Issuer.driveRanges (x : Issuer) (a op : Nat) : List (Nat × Nat × Nat) :=
  (if op < 2 then [(x.arg a 4 4, x.arg a 8 8, x.arg a 24 4 * 4096)] else []) ++
    (if op = 1 ∧ x.driveRaw a = 0 then
      [(x.arg a 28 4, x.arg a 32 8, x.s.parityBytes (x.arg a 2 2) (x.arg a 16 8) (x.arg a 24 4))] else [])

/-- A write or a deallocation that is not RAW has no LEDGER request that covers it. -/
abbrev Issuer.driveUncovered (x : Issuer) (a op : Nat) : Bool :=
  (op == 1 || op == 3) && !(x.driveRaw a == 1) &&
    !inRange (x.s.ledgerIssued x.o) (x.arg a 2 2) (x.arg a 16 8) (x.arg a 24 4)

/-- The operands of a DRIVE request that are refused. -/
abbrev Issuer.driveBad (x : Issuer) (a op : Nat) : Bool :=
  decide (3 < op) || (x.driveRaw a == 1 && decide (48 ≤ x.arg a 2 2)) || x.rangesBad (x.driveRanges a op) ||
    ((x.driveRanges a op).any fun r => r.2.1 % 4096 != 0) ||
    (!(x.driveRaw a == 1) && !x.user && op != 2 && !x.inVolume (x.arg a 2 2) (x.arg a 16 8) (x.arg a 24 4))

section
variable {op : Nat}

theorem driveUncovered_of_covered (h : op = 1 ∨ op = 3 → x.driveRaw a = 0 →
    inRange (x.s.ledgerIssued x.o) (x.arg a 2 2) (x.arg a 16 8) (x.arg a 24 4) = true) : x.driveUncovered a op = false := by
  rcases Nat.mod_two_eq_zero_or_one (x.arg a 1 1 / 2) with hraw | hraw
  · by_cases hop : op = 1 ∨ op = 3
    · simp [Issuer.driveUncovered, h hop hraw]
    · obtain ⟨h1, h3⟩ := not_or.mp hop
      simp [Issuer.driveUncovered, h1, h3]
  · simp [Issuer.driveUncovered, hraw]

theorem driveBad_of_inRange (hmax : op ≤ 3) (hraw : x.driveRaw a = 1 → x.arg a 2 2 < 48)
    (hr : x.rangesBad (x.driveRanges a op) = false) (halign : ((x.driveRanges a op).any fun r => r.2.1 % 4096 != 0) = false)
    (hv : x.driveRaw a = 0 → x.user = false → op ≠ 2 → x.inVolume (x.arg a 2 2) (x.arg a 16 8) (x.arg a 24 4) = true) :
    x.driveBad a op = false := by
  have drives : (x.driveRaw a == 1 && decide (48 ≤ x.arg a 2 2)) = false := by
    by_cases h : x.driveRaw a = 1 <;> simp [h, hraw]
  have volumes : (!(x.driveRaw a == 1) && !x.user && op != 2 &&
      !x.inVolume (x.arg a 2 2) (x.arg a 16 8) (x.arg a 24 4)) = false := by
    rcases Nat.mod_two_eq_zero_or_one (x.arg a 1 1 / 2) with h | h
    · cases hu : x.user
      case true => simp
      case false => by_cases h2 : op = 2 <;> simp [h2, hv h hu]
    · simp [h]
  have known : decide (3 < op) = false := by simp [hmax]
  simp only [Issuer.driveBad, known, drives, hr, halign, volumes, Bool.or_false]

section
variable (hb : x.blockOk a 40 = true) (ho : x.arg a 0 1 = op) (hc : x.completed = false)
include hb ho hc

theorem parseDrive_of_allowed (hmax : op ≤ 3) (hraw : x.driveRaw a = 1 → x.arg a 2 2 < 48 ∧ x.user = false)
    (hr : x.rangesBad (x.driveRanges a op) = false) (halign : ((x.driveRanges a op).any fun r => r.2.1 % 4096 != 0) = false)
    (hh : x.user = true → ((x.driveRanges a op).map (·.1)).all x.holds = true)
    (hv : x.driveRaw a = 0 → x.user = false → op ≠ 2 → x.inVolume (x.arg a 2 2) (x.arg a 16 8) (x.arg a 24 4) = true)
    (hright : x.user = true →
      (x.cmd.map fun c => x.s.hasRight c.sub (x.arg a 2 2) (if op = 0 then 1 else 2)) = some true)
    (hin : x.user = true → op ≠ 2 → x.inVolume (x.arg a 2 2) (x.arg a 16 8) (x.arg a 24 4) = true ∧
      x.tracked (x.arg a 2 2) (x.arg a 16 8) (x.arg a 24 4) = true)
    (hcovered : op = 1 ∨ op = 3 → x.driveRaw a = 0 →
      inRange (x.s.ledgerIssued x.o) (x.arg a 2 2) (x.arg a 16 8) (x.arg a 24 4) = true) :
    parseDrive a x = plainReq (.drive op (x.arg a 1 1 % 2) (x.driveRaw a) (x.arg a 2 2) (groupIx (x.arg a 4 4)) (x.arg a 8 8)
      (x.arg a 16 8) (x.arg a 24 4) (groupIx (x.arg a 28 4)) (x.arg a 32 8)) := by
  subst ho
  have notRefused : (x.driveBad a (x.arg a 0 1) || x.driveUncovered a (x.arg a 0 1)) = false :=
    Bool.or_eq_false_iff.mpr ⟨driveBad_of_inRange hmax (fun h => (hraw h).1) hr halign hv, driveUncovered_of_covered hcovered⟩
  have notRaw : (x.user && x.driveRaw a == 1) = false := by
    by_cases h : x.driveRaw a = 1 <;> simp [h, hraw]
  have inside : (if x.arg a 0 1 = 2 then (false, Parsed.fault 0x0B05)
      else x.badRange (x.arg a 2 2) (x.arg a 16 8) (x.arg a 24 4)).1 = false := by
    split
    case isTrue => rfl
    case isFalse h => exact badRange_of_within fun hu => hin hu h
  exact (firstOf_skip (noBlock_of_ok hb)).trans ((firstOf_skip (notNow_of_incomplete hc)).trans ((firstOf_refuse notRefused).trans
    ((firstOf_skip (notHeld_of_all hh)).trans ((firstOf_pair notRaw).trans ((firstOf_skip (noRight_of_right hright)).trans
      (firstOf_skip inside))))))

/-- Without a LEDGER request that covers it, a write or a deallocation that is not RAW is refused (R189). -/
theorem parseDrive_of_uncovered (hop : op = 1 ∨ op = 3) (hraw : x.driveRaw a = 0)
    (h : inRange (x.s.ledgerIssued x.o) (x.arg a 2 2) (x.arg a 16 8) (x.arg a 24 4) = false) :
    parseDrive a x = .raise excREQUEST := by
  subst ho
  have uncovered : x.driveUncovered a (x.arg a 0 1) = true := by rcases hop with hop | hop <;> simp [hop, hraw, h]
  have refused : (refuse (x.driveBad a (x.arg a 0 1) || x.driveUncovered a (x.arg a 0 1))).1 = true :=
    Bool.or_eq_true_iff.mpr (.inr uncovered)
  exact (firstOf_skip (noBlock_of_ok hb)).trans ((firstOf_skip (notNow_of_incomplete hc)).trans (firstOf_hit refused))

end

end

end

/-- Settles O24: each request starts with what its checks let pass, whichever row of its kind issues it. -/
theorem dataRequestsStart : Obligations.DataRequestsStart := by
  intro s t rd ra rb ht hrd hra hrb th u o user x a arg raises starts quiet word holds within unaligned cells system cipher
    parity drive
  have hok : xreqOperands rd ra rb = true := by simp [hrd, hra, hrb]
  obtain ⟨emitXrdy, emitData, emitCmpl, emitCtrl, emitMgmt⟩ := exec_xreqEmit (t := t) hok ht
  obtain ⟨cipherEncrypt, cipherDecrypt⟩ := exec_xreqCipher (t := t) hok ht
  obtain ⟨parityGen, parityUpdate, parityRecon, parityCompare⟩ := exec_xreqParity (t := t) hok ht
  have ledger := exec_xreqLedger (t := t) hok ht
  obtain ⟨driveRead, driveWrite, driveFlush, driveDeallocate⟩ := exec_xreqDrive (t := t) hok ht
  have begins {r : Host.Outcome State Fault Refusal} {n : Nat} {parse : Nat → Issuer → Parsed} {q : Req}
      {act : State → Nat → State} (hr : r = s.xreqAnswer t rd ra rb n parse) (hi : word n)
      (hp : parse a x = .req q act) : starts q act r := xreq_starts hr hi hp
  have misplaced {r : Host.Outcome State Fault Refusal} {n : Nat} {parse : Nat → Issuer → Parsed}
      (hr : r = s.xreqAnswer t rd ra rb n parse) (hp : a % 8 ≠ 0 → parse a x = .raise excARGBLOCK) : unaligned n r :=
    fun hi ha => xreq_raises hr hi (hp ha)
  clear_value starts
  have cellsStart {kind : Nat} (hkind : kind = 2 ∨ kind = 3) {r : Host.Outcome State Fault Refusal}
      (hr : r = s.xreqAnswer t rd ra rb 3 parseEmit) : cells kind r := by
    rintro hi hb rfl hc hbench hgoff hcoff hlen hpos hranges hh hregion
    exact begins hr hi ((parseEmit_of_cells (blockOk_mono (by decide) hb) hkind).trans
      (parseEmitCells_of_allowed hb hc hbench hgoff hcoff hlen hpos hranges hh hregion))
  have systemStarts {kind : Nat} (hkind : kind = 9 ∨ kind = 10) {r : Host.Outcome State Fault Refusal}
      (hr : r = s.xreqAnswer t rd ra rb 3 parseEmit) : system kind r := by
    rintro hi hb rfl hc hu hmax hconn hranges
    exact begins hr hi ((parseEmit_of_system (blockOk_mono (by decide) hb) hkind).trans
      (parseEmitSystem_of_allowed hb hc hu hmax hconn hranges))
  have cipherStarts {op : Nat} (hop : op ≤ 1) {r : Host.Outcome State Fault Refusal}
      (hr : r = s.xreqAnswer t rd ra rb 4 parseCipher) : cipher op r := by
    rintro slot hi hb rfl hc hslot hmax hpos hranges hh hown
    exact begins hr hi (parseCipher_of_allowed hb hop hc hslot hmax hpos hranges hh hown)
  have parityStarts {mode : Nat} (hmax : mode ≤ 3) {r : Host.Outcome State Fault Refusal}
      (hr : r = s.xreqAnswer t rd ra rb 5 parseParity) : parity mode r :=
    fun hi hb hm hc hlen hlost hranges hh =>
      begins hr hi (parseParity_of_allowed hb hm hmax hc hlen hlost hranges hh)
  have driveStarts {op : Nat} (hmax : op ≤ 3) {r : Host.Outcome State Fault Refusal}
      (hr : r = s.xreqAnswer t rd ra rb 7 parseDrive) : drive op r :=
    fun hi hb hop hc hraw hranges halign hh hv hright hin =>
      ⟨fun hcovered => begins hr hi
        (parseDrive_of_allowed hb hop hc hmax hraw hranges halign hh hv hright hin hcovered),
      fun hledger hraw0 h => xreq_raises hr hi (parseDrive_of_uncovered hb hop hc hledger hraw0 h)⟩
  refine ⟨?unaligned, cellsStart (.inl rfl) emitXrdy, cellsStart (.inr rfl) emitData,
    fun hi hb hkind hbench => ⟨?cmpl, ?secondCmpl⟩, systemStarts (.inl rfl) emitCtrl, systemStarts (.inr rfl) emitMgmt,
    cipherStarts (by decide) cipherEncrypt, cipherStarts (by decide) cipherDecrypt,
    parityStarts (by decide) parityGen, parityStarts (by decide) parityUpdate, parityStarts (by decide) parityRecon,
    parityStarts (by decide) parityCompare, ?ledger, driveStarts (by decide) driveRead, driveStarts (by decide) driveWrite,
    driveStarts (by decide) driveFlush, driveStarts (by decide) driveDeallocate⟩
  case unaligned =>
    exact ⟨misplaced emitXrdy parseEmit_of_unaligned, misplaced emitData parseEmit_of_unaligned,
      misplaced emitCmpl parseEmit_of_unaligned, misplaced emitCtrl parseEmit_of_unaligned,
      misplaced emitMgmt parseEmit_of_unaligned, misplaced cipherEncrypt parseCipher_of_unaligned,
      misplaced cipherDecrypt parseCipher_of_unaligned, misplaced parityGen parseParity_of_unaligned,
      misplaced parityUpdate parseParity_of_unaligned, misplaced parityRecon parseParity_of_unaligned,
      misplaced parityCompare parseParity_of_unaligned, misplaced ledger parseLedger_of_unaligned,
      misplaced driveRead parseDrive_of_unaligned, misplaced driveWrite parseDrive_of_unaligned,
      misplaced driveFlush parseDrive_of_unaligned, misplaced driveDeallocate parseDrive_of_unaligned⟩
  case cmpl =>
    exact fun hc hclass => begins emitCmpl hi
      ((parseEmit_of_cmpl (blockOk_mono (by decide) hb) hkind).trans (parseEmitCmpl_of_first hb hc hbench hclass))
  case secondCmpl =>
    exact fun hc => xreq_raises emitCmpl hi
      ((parseEmit_of_cmpl (blockOk_mono (by decide) hb) hkind).trans (parseEmitCmpl_of_second hb hc))
  case ledger =>
    exact fun hi hb hc hv hright hin => begins ledger hi (parseLedger_of_allowed hb hc hv hright hin)

end Sys2Proof.Machine
end

