-- ==== Sys2Proof/Proofs/Encoding.lean ====
section
/-! SUPPORT. Beykor words and the instructions they stand for: the fields of each format, what the tables of codes answer, and
that encoding and decoding are inverse on either side (R175 to R180, R183, R187, R192). -/

namespace Sys2Proof.Machine

/-! ### The fields of a word (R175) -/

theorem fRd_lt (w : Nat) : fRd w < 32 := Nat.mod_lt _ (by decide)

theorem fRa_lt (w : Nat) : fRa w < 32 := Nat.mod_lt _ (by decide)

theorem fRb_lt (w : Nat) : fRb w < 32 := Nat.mod_lt _ (by decide)

theorem fImm_lt (w : Nat) : fImm w < 65536 := Nat.mod_lt _ (by decide)

theorem formatA_lt {m rd ra rb fn : Nat} (hm : m < 64) (hrd : rd < 32) (hra : ra < 32) (hrb : rb < 32) (hfn : fn < 2 ^ 11) :
    formatA m rd ra rb fn < 2 ^ 32 := by
  unfold formatA; omega

theorem fields_formatA {m rd ra rb fn w : Nat} (hm : m < 64) (hrd : rd < 32) (hra : ra < 32) (hrb : rb < 32)
    (hfn : fn < 2 ^ 11) (hw : w = formatA m rd ra rb fn) :
    fMajor w = m ∧ fRd w = rd ∧ fRa w = ra ∧ fRb w = rb ∧ fFn w = fn := by
  unfold fMajor fRd fRa fRb fFn
  unfold formatA at hw
  omega

theorem formatI_lt {m rd ra v : Nat} (hm : m < 64) (hrd : rd < 32) (hra : ra < 32) (hv : v < 2 ^ 16) :
    formatI m rd ra v < 2 ^ 32 := by
  unfold formatI; omega

theorem fields_formatI {m rd ra v w : Nat} (hm : m < 64) (hrd : rd < 32) (hra : ra < 32) (hv : v < 2 ^ 16)
    (hw : w = formatI m rd ra v) : fMajor w = m ∧ fRd w = rd ∧ fRa w = ra ∧ fImm w = v := by
  unfold fMajor fRd fRa fImm
  unfold formatI at hw
  omega

/-- The fields of the A-format hold every bit of a word. -/
theorem formatA_of_fields {w : Nat} (hw : w < 2 ^ 32) : formatA (fMajor w) (fRd w) (fRa w) (fRb w) (fFn w) = w := by
  unfold formatA fMajor fRd fRa fRb fFn; omega

/-- The fields of the I-format hold every bit of a word. -/
theorem formatI_of_fields {w : Nat} (hw : w < 2 ^ 32) : formatI (fMajor w) (fRd w) (fRa w) (fImm w) = w := by
  unfold formatI fMajor fRd fRa fImm; omega

/-- IMM of a memory word is SP, W and OFF side by side (R180). -/
theorem fImm_eq_memory_fields (w : Nat) : fImm w = w / 2 ^ 14 % 4 * 2 ^ 14 + w / 2 ^ 12 % 4 * 2 ^ 12 + w % 2 ^ 12 := by
  unfold fImm; omega

/-! ### The tables of codes (R176, R177) -/

theorem aluOfFn_eq_some {fn : Nat} {op : AluOp} : aluOfFn fn = some op ↔ op.fn = fn := by
  constructor
  · intro h
    simpa using List.find?_some h
  · rintro rfl
    cases op <;> rfl

theorem immOfMajor_eq_some {m : Nat} {op : ImmOp} : immOfMajor m = some op ↔ op.major = m := by
  constructor
  · intro h
    simpa using List.find?_some h
  · rintro rfl
    cases op <;> rfl

theorem aluFn_lt (op : AluOp) : op.fn < 2 ^ 11 := by cases op <;> decide

theorem immMajor_range (op : ImmOp) : 0 < op.major ∧ op.major < 15 := by cases op <;> decide

theorem memMajor_lt (op : MemOp) : op.major < 64 := by cases op <;> decide

theorem branchMajor_lt (op : BranchOp) : op.major < 64 := by cases op <;> decide

theorem le_thirteen_of_xreqFields {req ra rb : Nat} (h : xreqFields req ra rb = true) : req ≤ 13 := by
  simp only [xreqFields, Bool.and_eq_true, decide_eq_true_eq] at h
  exact h.1.1.2

/-! ### A word's decoding, by its major opcode (R176) -/

section
variable {w : Nat}

theorem decodeBk_of_alu {op : AluOp} (hm : fMajor w = 0) (hop : fFn w = op.fn) :
    decodeBk w = if op.oneSource ∧ fRb w ≠ 0 then none else some (.alu op (fRd w) (fRa w) (fRb w)) := by
  simp only [decodeBk, hm, if_true, aluOfFn_eq_some.mpr hop.symm]

theorem decodeBk_of_imm {op : ImmOp} (hm : fMajor w = op.major) :
    decodeBk w = if op.isShift ∧ 64 ≤ fImm w then none else some (.imm op (fRd w) (fRa w) (fImm w)) := by
  obtain ⟨pos, lt⟩ := immMajor_range op
  have code : immOfMajor op.major = some op := immOfMajor_eq_some.mpr rfl
  simp only [decodeBk, hm, Nat.ne_of_gt pos, lt, if_true, if_false, code]

theorem decodeBk_of_mem {op : MemOp} (hm : fMajor w = op.major) : decodeBk w = decodeMem op w := by
  cases op <;> simp [decodeBk, hm, MemOp.major]

theorem decodeBk_of_branch {op : BranchOp} (hm : fMajor w = op.major) : decodeBk w = decodeBranch op w := by
  cases op <;> simp [decodeBk, hm, BranchOp.major]

theorem decodeBk_of_thread (hm : fMajor w = 0x1C) : decodeBk w = decodeThread w := by
  simp [decodeBk, hm]

end

/-! ### From an instruction to its word -/

/-- A word of the A-format decodes to what every word with these fields decodes to. -/
theorem decodeBk_formatA {m rd ra rb fn : Nat} {b : BkWord} (hm : m < 64) (hrd : rd < 32) (hra : ra < 32) (hrb : rb < 32)
    (hfn : fn < 2 ^ 11)
    (h : ∀ w, fMajor w = m → fRd w = rd → fRa w = ra → fRb w = rb → fFn w = fn → decodeBk w = some b) :
    formatA m rd ra rb fn < 2 ^ 32 ∧ decodeBk (formatA m rd ra rb fn) = some b := by
  obtain ⟨major, d, a, b', f⟩ := fields_formatA hm hrd hra hrb hfn rfl
  exact ⟨formatA_lt hm hrd hra hrb hfn, h _ major d a b' f⟩

/-- A word of the I-format decodes to what every word with these fields decodes to. -/
theorem decodeBk_formatI {m rd ra v : Nat} {b : BkWord} (hm : m < 64) (hrd : rd < 32) (hra : ra < 32) (hv : v < 2 ^ 16)
    (h : ∀ w, fMajor w = m → fRd w = rd → fRa w = ra → fImm w = v → decodeBk w = some b) :
    formatI m rd ra v < 2 ^ 32 ∧ decodeBk (formatI m rd ra v) = some b := by
  obtain ⟨major, d, a, i⟩ := fields_formatI hm hrd hra hv rfl
  exact ⟨formatI_lt hm hrd hra hv, h _ major d a i⟩

/-- A thread-control word is read by decodeThread alone (R183). -/
theorem decodeBk_formatA_thread {rd ra rb fn : Nat} {b : BkWord} (hrd : rd < 32) (hra : ra < 32) (hrb : rb < 32) (hfn : fn < 7)
    (h : ∀ w, fRd w = rd → fRa w = ra → fRb w = rb → fFn w = fn → decodeThread w = some b) :
    formatA 0x1C rd ra rb fn < 2 ^ 32 ∧ decodeBk (formatA 0x1C rd ra rb fn) = some b :=
  decodeBk_formatA (by decide) hrd hra hrb (Nat.lt_trans hfn (by decide)) fun w hm hd ha hb hf =>
    (decodeBk_of_thread hm).trans (h w hd ha hb hf)

theorem decodeBk_encode_alu {op : AluOp} {rd ra rb : Nat} (h : (BkWord.alu op rd ra rb).wf = true) :
    (BkWord.alu op rd ra rb).encode < 2 ^ 32 ∧ decodeBk (BkWord.alu op rd ra rb).encode = some (.alu op rd ra rb) := by
  simp only [BkWord.wf, Bool.and_eq_true, decide_eq_true_eq, Bool.or_eq_true, Bool.not_eq_true', beq_iff_eq] at h
  obtain ⟨⟨⟨hrd, hra⟩, hrb⟩, hone⟩ := h
  refine decodeBk_formatA (by decide) hrd hra hrb (aluFn_lt op) fun w hm hd ha hb hf => ?_
  have used : ¬ (op.oneSource = true ∧ rb ≠ 0) := by
    rintro ⟨hs, h0⟩
    exact hone.elim (by simp [hs]) h0
  rw [decodeBk_of_alu hm hf, hd, ha, hb, if_neg used]

theorem decodeBk_encode_imm {op : ImmOp} {rd ra v : Nat} (h : (BkWord.imm op rd ra v).wf = true) :
    (BkWord.imm op rd ra v).encode < 2 ^ 32 ∧ decodeBk (BkWord.imm op rd ra v).encode = some (.imm op rd ra v) := by
  simp only [BkWord.wf, Bool.and_eq_true, decide_eq_true_eq, Bool.or_eq_true, Bool.not_eq_true'] at h
  obtain ⟨⟨⟨hrd, hra⟩, hv⟩, hshift⟩ := h
  refine decodeBk_formatI (Nat.lt_trans (immMajor_range op).2 (by decide)) hrd hra hv fun w hm hd ha hi => ?_
  have used : ¬ (op.isShift = true ∧ 64 ≤ v) := by
    rintro ⟨hs, h64⟩
    exact hshift.elim (by simp [hs]) (Nat.not_lt.mpr h64)
  rw [decodeBk_of_imm hm, hd, ha, hi, if_neg used]

theorem decodeBk_encode_mem {op : MemOp} {rt ra sp wd off : Nat} (h : (BkWord.mem op rt ra sp wd off).wf = true) :
    (BkWord.mem op rt ra sp wd off).encode < 2 ^ 32 ∧
      decodeBk (BkWord.mem op rt ra sp wd off).encode = some (.mem op rt ra sp wd off) := by
  simp only [BkWord.wf, Bool.and_eq_true, decide_eq_true_eq] at h
  obtain ⟨⟨⟨⟨⟨hrt, hra⟩, hsp⟩, hwd⟩, hoff⟩, hlegal⟩ := h
  refine decodeBk_formatI (memMajor_lt op) hrt hra (by omega) fun w hm hd ha hi => ?_
  rw [fImm_eq_memory_fields] at hi
  obtain ⟨spField, widthField, offField⟩ : w / 2 ^ 14 % 4 = sp ∧ w / 2 ^ 12 % 4 = wd ∧ w % 2 ^ 12 = off := by omega
  rw [decodeBk_of_mem hm, decodeMem, spField, widthField, offField, hd, ha, if_pos hlegal]

theorem decodeBk_encode_branch {op : BranchOp} {ra disp : Nat} (h : (BkWord.branch op ra disp).wf = true) :
    (BkWord.branch op ra disp).encode < 2 ^ 32 ∧
      decodeBk (BkWord.branch op ra disp).encode = some (.branch op ra disp) := by
  simp only [BkWord.wf, Bool.and_eq_true, decide_eq_true_eq] at h
  obtain ⟨hra, hdisp⟩ := h
  have hm := branchMajor_lt op
  rw [BkWord.encode]
  generalize hw : 2 ^ 26 * op.major + 2 ^ 21 * ra + disp = w
  have major : fMajor w = op.major := by unfold fMajor; omega
  have reg : fRd w = ra := by unfold fRd; omega
  obtain ⟨bit20, dispField⟩ : w / 2 ^ 20 % 2 = 0 ∧ w % 2 ^ 20 = disp := by omega
  refine ⟨by omega, ?_⟩
  rw [decodeBk_of_branch major, decodeBranch, if_pos bit20, reg, dispField]

theorem decodeBk_encode {b : BkWord} (h : b.wf = true) : b.encode < 2 ^ 32 ∧ decodeBk b.encode = some b := by
  have zero : 0 < 32 := by decide
  cases b with
  | alu op rd ra rb => exact decodeBk_encode_alu h
  | imm op rd ra v => exact decodeBk_encode_imm h
  | mem op rt ra sp wd off => exact decodeBk_encode_mem h
  | branch op ra disp => exact decodeBk_encode_branch h
  | jalr rd ra =>
    simp only [BkWord.wf, Bool.and_eq_true, decide_eq_true_eq] at h
    exact decodeBk_formatA (by decide) h.1 h.2 zero (by decide) fun w hm hd ha hb hf => by simp [decodeBk, hm, hd, ha, hb, hf]
  | wait rd ra =>
    simp only [BkWord.wf, Bool.and_eq_true, decide_eq_true_eq] at h
    exact decodeBk_formatA_thread h.1 h.2 zero (by decide) fun w hd ha hb hf => by simp [decodeThread, hd, ha, hb, hf]
  | park ra =>
    exact decodeBk_formatA_thread zero (of_decide_eq_true h) zero (by decide) fun w hd ha hb hf => by simp [decodeThread, hd, ha, hb, hf]
  | drop ra =>
    exact decodeBk_formatA_thread zero (of_decide_eq_true h) zero (by decide) fun w hd ha hb hf => by simp [decodeThread, hd, ha, hb, hf]
  | endThread => exact decodeBk_formatA_thread zero zero zero (by decide) fun w hd ha hb hf => by simp [decodeThread, hd, ha, hb, hf]
  | rdtime rd =>
    exact decodeBk_formatA_thread (of_decide_eq_true h) zero zero (by decide) fun w hd ha hb hf => by simp [decodeThread, hd, ha, hb, hf]
  | rdc rd n =>
    simp only [BkWord.wf, Bool.and_eq_true, decide_eq_true_eq] at h
    exact decodeBk_formatA_thread h.1 zero (Nat.lt_trans h.2 (by decide)) (by decide) fun w hd ha hb hf => by simp [decodeThread, hd, ha, hb, hf, h.2]
  | mfence => exact decodeBk_formatA_thread zero zero zero (by decide) fun w hd ha hb hf => by simp [decodeThread, hd, ha, hb, hf]
  | eret => exact decodeBk_formatA (by decide) zero zero zero (by decide) fun w hm hd ha hb hf => by simp [decodeBk, hm, hd, ha, hb, hf]
  | wfi => exact decodeBk_formatA (by decide) zero zero zero (by decide) fun w hm hd ha hb hf => by simp [decodeBk, hm, hd, ha, hb, hf]
  | csrr rd n =>
    simp only [BkWord.wf, Bool.and_eq_true, decide_eq_true_eq] at h
    exact decodeBk_formatI (by decide) h.1 zero (Nat.lt_of_le_of_lt h.2 (by decide)) fun w hm hd ha hv => by simp [decodeBk, hm, hd, ha, hv, h.2]
  | csrw ra n =>
    simp only [BkWord.wf, Bool.and_eq_true, decide_eq_true_eq] at h
    exact decodeBk_formatI (by decide) zero h.1 (Nat.lt_of_le_of_lt h.2 (by decide)) fun w hm hd ha hv => by simp [decodeBk, hm, hd, ha, hv, h.2]
  | xreq rd ra rb req =>
    simp only [BkWord.wf, Bool.and_eq_true, decide_eq_true_eq] at h
    obtain ⟨⟨⟨hrd, hra⟩, hrb⟩, hreq⟩ := h
    have req_le := le_thirteen_of_xreqFields hreq
    exact decodeBk_formatA (by decide) hrd hra hrb (by omega) fun w hm hd ha hb hf => by
      simp [decodeBk, hm, hd, ha, hb, hf, hreq]

/-! ### From a word to its instruction -/

/-- A test of the major opcode that answers `r` answered it from one of its two sides. -/
theorem branch_of_ite {c : Prop} [Decidable c] {x y r : Option BkWord} (h : (if c then x else y) = r) :
    c ∧ x = r ∨ ¬ c ∧ y = r := by
  split at h
  · exact .inl ⟨‹c›, h⟩
  · exact .inr ⟨‹¬ c›, h⟩

/-- The word stands for the instruction: the instruction's fields fit, and the word is its encoding. -/
def BkWord.HasWord (b : BkWord) (w : Nat) : Prop := b.wf = true ∧ b.encode = w

section
variable {w : Nat} {b : BkWord} (hw : w < 2 ^ 32)
include hw

theorem hasWord_of_formatA (hb : b.wf = true) (he : b.encode = formatA (fMajor w) (fRd w) (fRa w) (fRb w) (fFn w)) :
    b.HasWord w :=
  ⟨hb, he.trans (formatA_of_fields hw)⟩

theorem hasWord_of_formatI (hb : b.wf = true) (he : b.encode = formatI (fMajor w) (fRd w) (fRa w) (fImm w)) :
    b.HasWord w :=
  ⟨hb, he.trans (formatI_of_fields hw)⟩

theorem hasWord_of_decodeMem {op : MemOp} (hm : fMajor w = op.major) (h : decodeMem op w = some b) : b.HasWord w := by
  obtain ⟨hlegal, ⟨⟩⟩ := Option.ite_none_right_eq_some.mp h
  have spLt : w / 2 ^ 14 % 4 < 4 := Nat.mod_lt _ (by decide)
  have widthLt : w / 2 ^ 12 % 4 < 4 := Nat.mod_lt _ (by decide)
  have offLt : w % 2 ^ 12 < 4096 := Nat.mod_lt _ (by decide)
  refine hasWord_of_formatI hw ?_ ?_
  · simp only [BkWord.wf, fRd_lt, fRa_lt, hlegal, spLt, widthLt, offLt, decide_true, Bool.and_self]
  · rw [BkWord.encode, ← fImm_eq_memory_fields, hm]

theorem hasWord_of_decodeBranch {op : BranchOp} (hm : fMajor w = op.major) (h : decodeBranch op w = some b) :
    b.HasWord w := by
  obtain ⟨bit20, ⟨⟩⟩ := Option.ite_none_right_eq_some.mp h
  refine ⟨?_, ?_⟩
  · simp [BkWord.wf, fRd_lt, Nat.mod_lt]
  · rw [BkWord.encode, ← hm, fMajor, fRd]
    omega

theorem hasWord_of_decodeThread (hm : fMajor w = 0x1C) (h : decodeThread w = some b) : b.HasWord w := by
  unfold decodeThread at h
  split at h
  case h_8 => cases h
  all_goals
    rename_i hf
    obtain ⟨hzero, ⟨⟩⟩ := Option.ite_none_right_eq_some.mp h
    exact hasWord_of_formatA hw (by simp [BkWord.wf, fRd_lt, fRa_lt, hzero]) (by simp [BkWord.encode, hm, hf, hzero])

theorem hasWord_of_decodeAlu {op : AluOp} (hm : fMajor w = 0) (hop : aluOfFn (fFn w) = some op)
    (hone : ¬ (op.oneSource = true ∧ fRb w ≠ 0)) : (BkWord.alu op (fRd w) (fRa w) (fRb w)).HasWord w := by
  refine hasWord_of_formatA hw ?_ ?_
  · simpa [BkWord.wf, fRd_lt, fRa_lt, fRb_lt] using (Decidable.not_and_iff_not_or_not.mp hone).imp_left eq_false_of_ne_true
  · rw [BkWord.encode, aluOfFn_eq_some.mp hop, hm]

theorem hasWord_of_decodeImm {op : ImmOp} (hop : immOfMajor (fMajor w) = some op)
    (hshift : ¬ (op.isShift = true ∧ 64 ≤ fImm w)) : (BkWord.imm op (fRd w) (fRa w) (fImm w)).HasWord w := by
  refine hasWord_of_formatI hw ?_ ?_
  · simpa [BkWord.wf, fRd_lt, fRa_lt, fImm_lt] using (Decidable.not_and_iff_not_or_not.mp hshift).imp_left eq_false_of_ne_true
  · rw [BkWord.encode, immOfMajor_eq_some.mp hop]

theorem hasWord_of_decodeBk (h : decodeBk w = some b) : b.HasWord w := by
  unfold decodeBk at h
  obtain ⟨hm, h⟩ | ⟨-, h⟩ := branch_of_ite h
  · split at h
    next op hop =>
      obtain ⟨hone, ⟨⟩⟩ := Option.ite_none_left_eq_some.mp h
      exact hasWord_of_decodeAlu hw hm hop hone
    next => cases h
  obtain ⟨-, h⟩ | ⟨-, h⟩ := branch_of_ite h
  · split at h
    next op hop =>
      obtain ⟨hshift, ⟨⟩⟩ := Option.ite_none_left_eq_some.mp h
      exact hasWord_of_decodeImm hw hop hshift
    next => cases h
  obtain ⟨hm, h⟩ | ⟨-, h⟩ := branch_of_ite h
  · exact hasWord_of_decodeMem (op := .load) hw hm h
  obtain ⟨hm, h⟩ | ⟨-, h⟩ := branch_of_ite h
  · exact hasWord_of_decodeMem (op := .loads) hw hm h
  obtain ⟨hm, h⟩ | ⟨-, h⟩ := branch_of_ite h
  · exact hasWord_of_decodeMem (op := .store) hw hm h
  obtain ⟨hm, h⟩ | ⟨-, h⟩ := branch_of_ite h
  · exact hasWord_of_decodeMem (op := .aadd) hw hm h
  obtain ⟨hm, h⟩ | ⟨-, h⟩ := branch_of_ite h
  · exact hasWord_of_decodeBranch (op := .bz) hw hm h
  obtain ⟨hm, h⟩ | ⟨-, h⟩ := branch_of_ite h
  · exact hasWord_of_decodeBranch (op := .bnz) hw hm h
  obtain ⟨hm, h⟩ | ⟨-, h⟩ := branch_of_ite h
  · exact hasWord_of_decodeBranch (op := .jal) hw hm h
  obtain ⟨hm, h⟩ | ⟨-, h⟩ := branch_of_ite h
  · obtain ⟨⟨hb, hf⟩, ⟨⟩⟩ := Option.ite_none_right_eq_some.mp h
    exact hasWord_of_formatA hw (by simp [BkWord.wf, fRd_lt, fRa_lt]) (by rw [BkWord.encode, hm, hb, hf])
  obtain ⟨hm, h⟩ | ⟨-, h⟩ := branch_of_ite h
  · exact hasWord_of_decodeThread hw hm h
  obtain ⟨hm, h⟩ | ⟨-, h⟩ := branch_of_ite h
  · obtain ⟨hzero, h⟩ := Option.ite_none_left_eq_some.mp h
    simp only [ne_eq, not_or, Decidable.not_not] at hzero
    obtain ⟨hd, ha, hb⟩ := hzero
    obtain ⟨hf, ⟨⟩⟩ | ⟨-, h⟩ := branch_of_ite h
    · exact hasWord_of_formatA hw rfl (by rw [BkWord.encode, hm, hd, ha, hb, hf])
    · obtain ⟨hf, ⟨⟩⟩ := Option.ite_none_right_eq_some.mp h
      exact hasWord_of_formatA hw rfl (by rw [BkWord.encode, hm, hd, ha, hb, hf])
  obtain ⟨hm, h⟩ | ⟨-, h⟩ := branch_of_ite h
  · obtain ⟨⟨ha, hn⟩, ⟨⟩⟩ := Option.ite_none_right_eq_some.mp h
    exact hasWord_of_formatI hw (by simp [BkWord.wf, fRd_lt, hn]) (by rw [BkWord.encode, hm, ha])
  obtain ⟨hm, h⟩ | ⟨-, h⟩ := branch_of_ite h
  · obtain ⟨⟨hd, hn⟩, ⟨⟩⟩ := Option.ite_none_right_eq_some.mp h
    exact hasWord_of_formatI hw (by simp [BkWord.wf, fRa_lt, hn]) (by rw [BkWord.encode, hm, hd])
  obtain ⟨hm, h⟩ := Option.ite_none_right_eq_some.mp h
  obtain ⟨⟨hlow, hreq⟩, ⟨⟩⟩ := Option.ite_none_right_eq_some.mp h
  refine hasWord_of_formatA hw (by simp [BkWord.wf, fRd_lt, fRa_lt, fRb_lt, hreq]) ?_
  rw [BkWord.encode, hm, Nat.div_mul_cancel (Nat.dvd_of_mod_eq_zero hlow)]

end

/-! ### The statements -/

/-- Settles O55: encoding then decoding by the constructors of an instruction, decoding then encoding by the major opcode. -/
theorem beykorEncodingAndDecodingAgree : Obligations.BeykorEncodingAndDecodingAgree :=
  ⟨fun _ => decodeBk_encode, fun _ _ => hasWord_of_decodeBk⟩

/-- A word that is an instruction's encoding decodes to it. -/
theorem decodeBk_of_encode_eq {w : Nat} (b : BkWord) (hb : b.wf = true) (he : b.encode = w) : decodeBk w = some b :=
  he ▸ (decodeBk_encode hb).2

/-- Settles O56: each defined word is the encoding of its instruction; each undefined one fails its own check. -/
theorem beykorWordsDecode : Obligations.BeykorWordsDecode :=
  ⟨decodeBk_of_encode_eq _ rfl rfl, decodeBk_of_encode_eq _ rfl rfl, decodeBk_of_encode_eq _ rfl rfl, rfl,
    decodeBk_of_encode_eq _ rfl rfl, decodeBk_of_encode_eq _ rfl rfl, decodeBk_of_encode_eq _ rfl rfl,
    decodeBk_of_encode_eq _ rfl rfl, decodeBk_of_encode_eq _ rfl rfl, decodeBk_of_encode_eq _ rfl rfl, rfl, rfl, rfl⟩

end Sys2Proof.Machine
end

