-- ==== Sys2Proof/Proofs/Computation.lean ====
section
/-! SUPPORT. What the ALU and the I-format operations compute, and what the register words and the branches leave on a thread
(R177 to R179). -/

namespace Sys2Proof.Machine

/-! ### Counts of bits (R177) -/

/-- Among the low `n` bits of a value below 2^n, as many are leading zeros as its size leaves. -/
theorem leadingZeros_spec (n v : Nat) (hv : v < 2 ^ n) :
    leadingZeros n v ≤ n ∧ v < 2 ^ (n - leadingZeros n v) ∧ (leadingZeros n v < n → 2 ^ (n - 1 - leadingZeros n v) ≤ v) := by
  induction n with
  | zero => exact ⟨Nat.le_refl 0, hv, fun h => absurd h (Nat.lt_irrefl 0)⟩
  | succ n ih =>
    cases hbit : v.testBit n with
    | true => simpa [leadingZeros, hbit, hv] using Nat.ge_two_pow_of_testBit hbit
    | false =>
      have below : v < 2 ^ n := by
        refine Nat.lt_pow_two_of_testBit v fun i hi => ?_
        obtain rfl | gt := Nat.eq_or_lt_of_le hi
        · exact hbit
        · exact Nat.testBit_lt_two_pow (Nat.lt_of_lt_of_le hv (Nat.pow_le_pow_right (by decide) gt))
      obtain ⟨le, lt, ge⟩ := ih below
      have count : leadingZeros (n + 1) v = 1 + leadingZeros n v := by simp [leadingZeros, hbit]
      rw [count, show n + 1 - (1 + leadingZeros n v) = n - leadingZeros n v by omega,
        show n + 1 - 1 - (1 + leadingZeros n v) = n - 1 - leadingZeros n v by omega]
      exact ⟨by omega, lt, fun h => ge (by omega)⟩

theorem oneBits_eq_length_filter (n v : Nat) : oneBits n v = ((List.range n).filter v.testBit).length := by
  induction n with
  | zero => rfl
  | succ n ih =>
    rw [List.range_succ, List.filter_append, List.length_append, ← ih, oneBits, Nat.add_comm]
    cases h : v.testBit n <;> simp [h]

/-! ### Operands and results (R177, R178) -/

/-- A compare writes 1 where its condition holds (R174). -/
theorem flagWord_of_iff {c : Bool} {p : Prop} [Decidable p] (h : c = true ↔ p) : flagWord c = if p then 1 else 0 := by
  simp only [flagWord, h]

theorem immSigned_toNat (imm : BitVec 16) : immSigned imm.toNat = imm.signExtend 64 := by
  rw [immSigned, signedField_toInt 16 (by decide)]; rfl

theorem immZero_toNat (imm : BitVec 16) : immZero imm.toNat = imm.zeroExtend 64 := BitVec.ofNat_toNat 64 imm

/-- A shift amount below 64 is the immediate itself. -/
theorem shiftCount_immZero {n : Nat} (h : n < 64) : shiftCount (immZero n) = n := by
  rw [shiftCount, immZero, BitVec.toNat_ofNat]; omega

theorem getLsbD_sixteen_ones (j : Nat) : (0xFFFF#64).getLsbD j = decide (j < 16) := by
  rw [show 0xFFFF#64 = (BitVec.allOnes 16).setWidth 64 from rfl, BitVec.getLsbD_setWidth, BitVec.getLsbD_allOnes]
  simp only [Bool.and_eq_right_iff_imp, decide_eq_true_eq]
  omega

/-- SETHp replaces bits 16p + 15 to 16p and no other (R178). -/
theorem getLsbD_setHalf (p : Nat) (a : DWord) (imm : BitVec 16) (i : Nat) (hi : i < 64) :
    (setHalf p a imm).getLsbD i = if i / 16 = p then imm.getLsbD (i % 16) else a.getLsbD i := by
  have bits : (setHalf p a imm).getLsbD i =
      (a.getLsbD i && !(!decide (i < 16 * p) && decide (i - 16 * p < 16)) ||
        !decide (i < 16 * p) && imm.getLsbD (i - 16 * p)) := by
    have inside : i - 16 * p < 64 := by omega
    simp only [setHalf, BitVec.getLsbD_or, BitVec.getLsbD_and, BitVec.getLsbD_not, BitVec.getLsbD_shiftLeft,
      BitVec.zeroExtend, BitVec.getLsbD_setWidth, getLsbD_sixteen_ones, hi, inside, decide_true, Bool.true_and]
  rw [bits]
  split
  case isTrue h =>
    rw [show i % 16 = i - 16 * p by omega]
    simp [show ¬ i < 16 * p by omega, show i - 16 * p < 16 by omega]
  case isFalse h =>
    obtain below | above : i < 16 * p ∨ 16 * p + 16 ≤ i := by omega
    · simp [below]
    · simp [show ¬ i < 16 * p by omega, show ¬ i - 16 * p < 16 by omega, show 16 ≤ i - 16 * p by omega]

theorem result_sethOp {p : Nat} (hp : p < 4) (a : DWord) (imm : BitVec 16) :
    (sethOp p).result a imm.toNat = setHalf p a imm := by
  have h : BitVec.ofNat 16 imm.toNat = imm := by rw [BitVec.ofNat_toNat, BitVec.setWidth_eq]
  obtain rfl | rfl | rfl | rfl : p = 0 ∨ p = 1 ∨ p = 2 ∨ p = 3 := by omega
  all_goals simp only [sethOp, ImmOp.result, h]

/-! ### What a word leaves -/

section
variable {i : Instr} {s : State} {t rd ra rb : Nat} (hok : i.wellFormed = true) (ht : s.takes = true)
include hok ht

/-- An ALU word that issues writes its row's result into RD (R177). -/
theorem command_runAlu {op : AluOp} (hi : s.issues t (.alu op rd ra rb) = true) {v : DWord}
    (hv : op.result ((s.thread t).rg ra) ((s.thread t).rg rb) ((s.thread t).rg rd) = v) :
    command i s (·.runAlu op t rd ra rb) =
      .next ((s.movesOn ((s.countIssue t).onThread t fun x => x.setG rd v) t).keepQueue s) :=
  hv ▸ command_word_next hok ht hi rfl

/-- An I-format word that issues writes its row's result into RD (R178). -/
theorem command_runImm {op : ImmOp} {imm : BitVec 16} (hi : s.issues t (.imm op rd ra imm.toNat) = true) {v : DWord}
    (hv : op.result ((s.thread t).rg ra) imm.toNat = v) :
    command i s (·.runImm op t rd ra imm) =
      .next ((s.movesOn ((s.countIssue t).onThread t fun x => x.setG rd v) t).keepQueue s) :=
  hv ▸ command_word_next hok ht hi rfl

/-- A word that acts in `u` and passes control to `pc` does so inside the code, and raises TARGET elsewhere (R179). -/
theorem command_word_to {b : BkWord} {f : State → Thread → Issued} (hi : s.starts t b = true) {u : State} {pc : Int}
    (hf : f (s.countIssue t) (s.thread t) = .goes u pc) :
    command i s (fun s => s.runWord t b f) = if s.pcOk t pc then .next ((u.goesTo t pc.toNat).keepQueue s)
      else .next ((s.trap t excTARGET (some (BitVec.ofInt 64 pc))).keepQueue s) := by
  rw [command_next i s _ hok ht, runWord_to s t b f hi u pc hf]
  split <;> rfl

end

/-- A shift word that issues has an amount below 64: its other immediate bits are 0 (R178). -/
theorem lt_of_issues_shift {s : State} {t rd ra v : Nat} {op : ImmOp} (hop : op.isShift = true)
    (hi : s.issues t (.imm op rd ra v) = true) : v < 64 := by
  simp only [State.issues, BkWord.wf, hop, Bool.and_eq_true, Bool.not_true, Bool.false_or, decide_eq_true_eq] at hi
  exact hi.1.1.2.2

/-! ### The statements -/

/-- Settles O17, row by row of R177: the row's result is the value that the statement writes out. -/
theorem aluResults : Obligations.AluResults := by
  intro s t rd ra rb ht hrd hra hrb th a b leaves two one
  have hthree : (Instr.add t rd ra rb).wellFormed = true := by simp [Instr.wellFormed, hrd, hra, hrb]
  have htwo : (Instr.clz t rd ra).wellFormed = true := by simp [Instr.wellFormed, hrd, hra]
  refine ⟨fun hi => command_runAlu hthree ht hi rfl, fun hi => command_runAlu hthree ht hi rfl,
    fun hi => command_runAlu hthree ht hi rfl, fun hi => command_runAlu hthree ht hi rfl,
    fun hi => command_runAlu hthree ht hi rfl, fun hi => command_runAlu hthree ht hi rfl,
    fun hi => command_runAlu hthree ht hi rfl, fun hi => command_runAlu hthree ht hi rfl,
    fun hi => command_runAlu hthree ht hi rfl, fun hi => command_runAlu hthree ht hi rfl,
    fun hi => command_runAlu hthree ht hi rfl, fun hi => command_runAlu hthree ht hi (flagWord_of_iff beq_iff_eq),
    fun hi => command_runAlu hthree ht hi (flagWord_of_iff bne_iff_ne),
    fun hi => command_runAlu hthree ht hi (flagWord_of_iff decide_eq_true_iff),
    fun hi => command_runAlu hthree ht hi (flagWord_of_iff decide_eq_true_iff),
    fun hi => command_runAlu hthree ht hi ?sel, fun hi => ?clz, fun hi => command_runAlu htwo ht hi ?popc⟩
  case sel => exact (ite_not ..).symm
  case clz =>
    obtain ⟨le, lt, ge⟩ := leadingZeros_spec 64 a.toNat a.isLt
    exact ⟨_, le, lt, ge, command_runAlu htwo ht hi rfl⟩
  case popc => exact congrArg (BitVec.ofNat 64) (oneBits_eq_length_filter 64 a.toNat)

/-- Settles O18, row by row of R178: a shift word that issues has its amount below 64. -/
theorem immediateResults : Obligations.ImmediateResults := by
  intro s t rd ra imm ht hrd hra a sx zx leaves word
  have hok : (Instr.addi t rd ra imm).wellFormed = true := by simp [Instr.wellFormed, hrd, hra]
  have signed : immSigned imm.toNat = sx := immSigned_toNat imm
  have unsigned : immZero imm.toNat = zx := immZero_toNat imm
  refine ⟨fun hi => command_runImm hok ht hi (congrArg (a + ·) signed),
    fun hi => command_runImm hok ht hi (congrArg (a &&& ·) unsigned),
    fun hi => command_runImm hok ht hi (congrArg (a ||| ·) unsigned),
    fun hi => command_runImm hok ht hi (congrArg (a ^^^ ·) unsigned), fun hi => ?shli, fun hi => ?shri, fun hi => ?sari,
    fun hi => command_runImm hok ht hi (signed ▸ flagWord_of_iff beq_iff_eq),
    fun hi => command_runImm hok ht hi (signed ▸ flagWord_of_iff decide_eq_true_iff),
    fun hi => command_runImm hok ht hi (unsigned ▸ flagWord_of_iff decide_eq_true_iff), fun p op hop hi => ?seth⟩
  case shli =>
    have amount := lt_of_issues_shift rfl hi
    exact ⟨amount, command_runImm hok ht hi (congrArg (a <<< ·) (shiftCount_immZero amount))⟩
  case shri =>
    have amount := lt_of_issues_shift rfl hi
    exact ⟨amount, command_runImm hok ht hi (congrArg (a >>> ·) (shiftCount_immZero amount))⟩
  case sari =>
    have amount := lt_of_issues_shift rfl hi
    exact ⟨amount, command_runImm hok ht hi (congrArg a.sshiftRight (shiftCount_immZero amount))⟩
  case seth =>
    obtain ⟨hp, rfl⟩ : p < 4 ∧ op = sethOp p := by
      simp only [List.mem_cons, Prod.mk.injEq, List.not_mem_nil, or_false] at hop
      obtain ⟨rfl, rfl⟩ | ⟨rfl, rfl⟩ | ⟨rfl, rfl⟩ | ⟨rfl, rfl⟩ := hop <;> exact ⟨by decide, rfl⟩
    have hseth : (Instr.seth t p rd ra imm).wellFormed = true := by simp [Instr.wellFormed, hp, hrd, hra]
    exact ⟨setHalf p a imm, getLsbD_setHalf p a imm, command_runImm hseth ht hi (result_sethOp hp a imm)⟩

/-- Settles O19: each word acts in its own state and names one destination, which either lies in the code or raises TARGET. -/
theorem branchesAndJumps : Obligations.BranchesAndJumps := by
  intro s t rd ra disp ht hrd hra th next target passes u linked
  have hbranch : (Instr.bz t ra disp).wellFormed = true := by simp [Instr.wellFormed, hra]
  have hjalr : (Instr.jalr t rd ra).wellFormed = true := by simp [Instr.wellFormed, hrd, hra]
  have direct : th.targetOf disp = target := by rw [Thread.targetOf, signedField_toInt 20 (by decide)]
  refine ⟨fun hi => command_word_to hbranch ht hi (congrArg (Issued.goes u) ?bz),
    fun hi => command_word_to hbranch ht hi (congrArg (Issued.goes u) ?bnz),
    fun hi => command_word_to hbranch ht hi (congrArg (Issued.goes (linked ra)) direct),
    fun hi => command_word_to hjalr ht hi rfl⟩
  case bz => simp only [direct, beq_iff_eq, next, th]
  case bnz => simp only [direct, bne_iff_ne, next, th]

end Sys2Proof.Machine
end

