-- ==== Sys2Proof/Proofs/BlockCommands.lean ====
section
/-! SUPPORT. START and STOP of the blocks that R451 decides ahead of their own rules: CAB, SCH, SLP, DRV, PAR, SBD, HNG
and LDG (R53, R216, R230, R268, R269, R313, R331, R359, R376, R430). -/

namespace Sys2Proof.Machine

open Sys2Proof.Reg

section
variable {s : State} {p : Path} {addr b : Nat} {ev : Field} {needs : List Nat} {refused : Bool} {act : State → State}

/-! ### What decides a START and a STOP (R430, R451) -/

theorem startBlock_of_runs (hr : s.runs b = true) : s.startBlock p addr b ev needs act = s :=
  if_pos (.inl hr)

/-- A START while a block it needs is stopped (R430). -/
theorem startBlock_of_stopped_need (hr : s.runs b = false) (hrec : s.inRecovery = false)
    (hn : ∃ n, n ∈ needs ∧ s.runs n = false) :
    s.startBlock p addr b ev needs act = (s.logErr 0x0D p addr).raise ev 0 := by
  have missing : needs.all s.runs = false := by simpa using hn
  simp [State.startBlock, State.refuseStart, hr, hrec, missing]

theorem stopBlock_of_refused (hr : s.runs b = true) (hf : refused = true) : s.stopBlock b refused ev act = s.raise ev := by
  simp [State.stopBlock, hr, hf]

theorem stopBlock_of_stopped (hr : s.runs b = false) : s.stopBlock b refused ev act = s := by
  simp [State.stopBlock, hr]

/-! ### A row that starts or stops a block -/

variable {i : Instr} {f : State → State}

/-- A row that starts a block, by R451's table: the block is stopped and has what it needs, or lacks it, or runs. -/
theorem exec_of_startBlock (hok : i.wellFormed = true) (row : exec i s = command i s fun s => s.viaWrite p addr f)
    (hf : f s = s.startBlock p addr b ev needs act) (ht : s.takes = true) (hm : s.mayWrite p addr = true)
    (hrec : s.inRecovery = false) :
    (s.runs b = false → (∀ n, n ∈ needs → s.runs n = true) → exec i s = .next ((act (s.setRuns b true)).keepQueue s)) ∧
    (s.runs b = false → (∃ n, n ∈ needs ∧ s.runs n = false) →
      exec i s = .next (((s.logErr 0x0D p addr).raise ev 0).keepQueue s)) ∧
    (s.runs b = true → exec i s = .next (s.keepQueue s)) := by
  have acts {u : State} (h : s.startBlock p addr b ev needs act = u) : exec i s = .next (u.keepQueue s) :=
    row.trans (commandIf_path_of_eq f hok ht hm (hf.trans h))
  exact ⟨fun hr hn => acts (startBlock_of_needs _ _ _ _ _ _ _ hr hrec (List.all_eq_true.mpr hn)),
    fun hr hn => acts (startBlock_of_stopped_need hr hrec hn), fun hr => acts (startBlock_of_runs hr)⟩

/-- A row that stops a block, by R451's table: the block runs and its own rule lets it stop, or refuses it, or it is
stopped. -/
theorem exec_of_stopBlock (hok : i.wellFormed = true) (row : exec i s = command i s fun s => s.viaWrite p addr f)
    (hf : f s = s.stopBlock b refused ev act) (ht : s.takes = true) (hm : s.mayWrite p addr = true) :
    (s.runs b = true → refused = false → exec i s = .next ((act (s.setRuns b false)).keepQueue s)) ∧
    (s.runs b = true → refused = true → exec i s = .next ((s.raise ev).keepQueue s)) ∧
    (s.runs b = false → exec i s = .next (s.keepQueue s)) := by
  have acts {u : State} (h : s.stopBlock b refused ev act = u) : exec i s = .next (u.keepQueue s) :=
    row.trans (commandIf_path_of_eq f hok ht hm (hf.trans h))
  exact ⟨fun hr h => acts (stopBlock_of_runs _ _ _ _ _ hr h), fun hr h => acts (stopBlock_of_refused hr h),
    fun hr => acts (stopBlock_of_stopped hr)⟩

end

section
variable {s : State} {p : Path}

/-! ### HNG and LDG (R53, R269, R359) -/

theorem hngDoStart_of_ledger (hrec : s.inRecovery = false) (hr : s.runs bHNG = false) (hl : s.runs bLDG = true) :
    s.hngDoStart p = (s.setRuns bHNG true).decideRole :=
  startBlock_of_needs _ _ _ _ _ _ _ hr hrec (by simp [hl])

/-- A START of LDG that finds it stopped, and no restore under way, is refused, runs it or starts the restore. -/
theorem ldgDoStart_of_stopped (hrec : s.inRecovery = false) (hr : s.runs bLDG = false) (hres : s.cfg.restoring = false)
    (hw : s.cfg.restoreWait = none) :
    s.ldgDoStart p = if s.runs bPAR then
        if s.cfg.restored then s.ldgRun else { s with cfg := { s.cfg with restoring := true } }
      else s.logErr 0x0D p LDG_CMD_START.addr := by
  cases hpar : s.runs bPAR <;> simp [State.ldgDoStart, hrec, hr, hres, hw, hpar]

/-- Where no record is unretired, LDG stops with neither ring. -/
theorem ldgDoStop_of_retired (hr : s.runs bLDG = true) (h : s.ldg.recs = []) :
    let u := ((s.setRuns bLDG false).setReg LDG_ACTIVE_A 0 0x3F).setReg LDG_ACTIVE_B 0 0x3F
    s.ldgDoStop = ({ u with ldg := { u.ldg with ringA := none, ringB := none } } : State).countReplacing.persistStop :=
  if_neg (by simp [hr, h])

theorem ldgDoStop_of_unretired (h : s.ldg.recs ≠ []) : s.ldgDoStop = s :=
  if_pos (.inr h)

end

/-- Settles O25: CAB, SCH, SLP, DRV, PAR, SBD and HNG by R451's table, LDG by what its own rule finds. -/
theorem blocksStartAndStop : Obligations.BlocksStartAndStop := by
  intro s p ht leaves starts stops
  -- The two laws in the statement's own words, whose bodies the rows below need no more.
  have starting {i : Instr} {addr b : Nat} {ev : Field} {needs : List Nat} {act : State → State} (f : State → State)
      (hok : i.wellFormed = true) (row : exec i s = command i s fun s => s.viaWrite p addr f)
      (hf : f s = s.startBlock p addr b ev needs act) : starts addr b ev needs act (exec i s) :=
    exec_of_startBlock hok row hf ht
  have stopping {i : Instr} {addr b : Nat} {ev : Field} {refused : Bool} {act : State → State} (f : State → State)
      (hok : i.wellFormed = true) (row : exec i s = command i s fun s => s.viaWrite p addr f)
      (hf : f s = s.stopBlock b refused ev act) : stops addr b ev refused act (exec i s) :=
    exec_of_stopBlock hok row hf ht
  clear_value starts stops
  refine ⟨?cabStarts, ?schStarts, ?slpStarts, ?drvStarts, ?parStarts, ?sbdStarts, ?cabStops, ?schStops, ?slpStops, ?drvStops,
    ?parStops, ?sbdStops, ?hngStops, ?hngStarts, ?ldgStarts, ?ldgStops, ?ldgStays⟩
  case cabStarts => exact starting (·.cabDoStart p) rfl rfl rfl
  case schStarts => exact starting (·.schDoStart p) rfl rfl rfl
  case slpStarts => exact starting (·.slpDoStart p) rfl rfl rfl
  case drvStarts => exact starting (·.drvDoStart p) rfl rfl rfl
  case parStarts => exact starting (·.parDoStart p) rfl rfl rfl
  case sbdStarts => exact starting (·.sbdDoStart p) rfl rfl rfl
  case cabStops => exact stopping State.cabDoStop rfl rfl rfl
  case schStops => exact stopping State.schDoStop rfl rfl rfl
  case slpStops => exact stopping State.slpDoStop rfl rfl rfl
  case drvStops => exact stopping State.drvDoStop rfl rfl rfl
  case parStops => exact stopping State.parDoStop rfl rfl rfl
  case sbdStops => exact stopping State.sbdDoStop rfl rfl rfl
  case hngStops => exact stopping State.hngDoStop rfl rfl rfl
  case hngStarts =>
    exact fun hm hrec hr hl => commandIf_path_of_eq (fun s => (s.hngDoStart p).settle) rfl ht hm
      (congrArg State.settle (hngDoStart_of_ledger hrec hr hl))
  case ldgStarts =>
    intro hm hrec hr hres hw
    have start := command_path (.ldgStart p) s p _ (·.ldgDoStart p) rfl ht hm
    rw [ldgDoStart_of_stopped hrec hr hres hw] at start
    exact ⟨fun hpar h => start.trans (by rw [if_pos hpar, if_pos h]),
      fun hpar h => start.trans (by rw [if_pos hpar, if_neg (ne_true_of_eq_false h)]),
      fun hpar => start.trans (by rw [if_neg (ne_true_of_eq_false hpar)])⟩
  case ldgStops => exact fun hm hr h => commandIf_path_of_eq State.ldgDoStop rfl ht hm (ldgDoStop_of_retired hr h)
  case ldgStays => exact fun hm _ h => commandIf_path_of_eq State.ldgDoStop rfl ht hm (ldgDoStop_of_unretired h)

end Sys2Proof.Machine
end

