-- ==== Sys2Proof/Proofs/Cabinet.lean ====
section
/-! SUPPORT. The Cabinet's windows and its spill engine: what the drive aperture and the PRP list window do by what an
address names, and what moves an extent to the spill area and back (R197, R198, R207 to R210, R306). -/

namespace Sys2Proof.Machine

open Sys2Proof.Reg

section
variable {s : State} {a n k g off : Nat} {bs : List Byte}

/-! ### The drive aperture (R197, R198) -/

theorem apertureGet_of_queue (h : s.apertureTarget a = .queue off) :
    s.apertureGet a n = s.setAperture (some (s.cab.queueMem.readAll off n)) := by
  simp only [State.apertureGet, h]

/-- A read that names bytes of a group answers its cells where they hold them all, Completer Abort else. -/
theorem apertureGet_of_cells (h : s.apertureTarget a = .cells g off) :
    s.apertureGet a n = if s.cellsInGroup g off n then s.setAperture (some (s.groupRead g off n))
      else s.apertureErr.setAperture none := by
  simp only [State.apertureGet, h]

/-- Outside the PRP list window a write goes to what the aperture names (R306). -/
theorem apertureWrite_of_not_prp (hp : s.prpTarget a = none) : s.apertureWrite a bs = s.aperturePut a bs := by
  simp only [State.apertureWrite, hp]

theorem apertureWrite_of_prp {x : Nat × Nat × Nat} (hp : s.prpTarget a = some x) : s.apertureWrite a bs = s.apertureErr := by
  simp only [State.apertureWrite, hp]

theorem aperturePut_of_queue (h : s.apertureTarget a = .queue off) :
    s.aperturePut a bs = { s with cab := { s.cab with queueMem := Mem.writeAll off bs s.cab.queueMem } } := by
  simp only [State.aperturePut, h]

/-- A write that names bytes of a group is stored where its cells hold them all, else counted as an error. -/
theorem aperturePut_of_cells (h : s.apertureTarget a = .cells g off) :
    s.aperturePut a bs = if s.cellsInGroup g off bs.length then s.groupWrite g off bs .driveRead else s.apertureErr := by
  simp only [State.aperturePut, h]

/-! ### The PRP list window (R306) -/

section
variable {x : Group} (ht : s.prpTarget a = some (g, k, off)) (hg : SMap.find s.cab.groups g = some x)
include ht hg

/-- A list page that begins within the group's pages. -/
theorem prpGet_of_page (h : k + 511 * (off / 4096) < x.cells / 16) :
    let rest := s.prpRest k (x.cells / 16) (off / 4096)
    let page := prpPage s.apertureBase g k (x.cells / 16) (off / 4096) rest.1
    s.prpGet a = { rest.2 with out := { rest.2.out with prpList := page, aperture := some (page.drop (off % 4096)) } } := by
  simp only [State.prpGet, ht, hg, Nat.not_le.mpr h, if_false]

/-- A list page that would begin behind the group's last page. -/
theorem prpGet_of_beyond (h : x.cells / 16 ≤ k + 511 * (off / 4096)) : s.prpGet a = s.apertureErr.setAperture none := by
  simp only [State.prpGet, ht, hg, h, if_true]

end

/-! ### Spill and return (R207 to R210) -/

/-- The cells of an extent of group `k`, in its state `g`, may be spilled now: each may spill, none that may went longer
without a mover request, and no return waits (R208, R209, R215). -/
structure State.MaySpillExtent (s : State) (k : Nat) (g : Group) (first count : Nat) : Prop where
  nonempty : 0 < count
  fits : count ≤ 256
  runs : s.spillsFor g.acc = true
  cells : ((List.range count).map (· + first)).all (g.maySpill (s.moverPins ++ s.aheadCells) k) = true
  oldest : s.oldestSpill g ((List.range count).map (· + first)) (s.moverPins ++ s.aheadCells) = true
  noReturn : s.anyWanted = false

/-- The extent's bytes stand at a place of the spill area, its cells are free, and the group lists it as spilled (R208). -/
def State.movedOut (s : State) (k : Nat) (g : Group) (first count : Nat) : State :=
  let place := lowestFree 0 (s.cab.spillPlaces.map (·.1))
  let u := s.sbWrite (s.spillAddr place) (s.groupRead k (256 * first) (256 * count))
  { u with cab := { u.cab with
    rows := ((List.range count).map (· + first)).foldl (fun m c => freeCell m (g.nums.getD c 0)) s.cab.rows
    spillPlaces := SMap.put place k u.cab.spillPlaces
    cellMem := Mem.writeAll (cellKey k (256 * first)) (List.replicate (256 * count) 0) u.cab.cellMem
    groups := SMap.put k { g with spilled := { run := { first := first, count := count }, place := place } :: g.spilled }
      u.cab.groups } }

/-- The counts of a spilled extent: its cells leave their account, and a full area is told (R202, R211). -/
def State.countSpill (s : State) (acc : Option Nat) (count : Nat) : State :=
  let w := s.setReg CAB_SPILLED_CELLS 0 (s.reg CAB_SPILLED_CELLS + count)
  let x := (w.uncharge acc count).bump CAB_SPILL_OUT 0 (accountAttr acc)
  if x.spillFull then x.raise CAB_EVENT_SPILL_FULL else x

theorem spillExtent_of_maySpillExtent {x : Group} {first count : Nat} (hg : SMap.find s.cab.groups k = some x)
    (h : s.MaySpillExtent k x first count) :
    s.spillExtent k first count = (s.movedOut k x first count).countSpill x.acc count := by
  obtain ⟨hpos, hfit, hruns, hcells, holdest, hno⟩ := h
  simp only [State.spillExtent, hg, Nat.ne_of_gt hpos, Nat.not_lt.mpr hfit, hruns, hcells, holdest, hno, Bool.not_true,
    Bool.false_eq_true, or_self, if_false]
  rfl

theorem spillReturn_of_fits {x : Group} {e : SpilledExtent} (hg : SMap.find s.cab.groups k = some x)
    (he : x.spilled.find? (fun y => y.run.first == e.run.first) = some e) (hw : s.extentWanted k e = true)
    (hf : s.returnFits e = true) : s.spillReturn k e.run.first = s.returnExtent k x e := by
  simp only [State.spillReturn, hg, he, hw, hf, Bool.and_self, if_true]

end

/-- Settles O26, by what the address names, by where the list page begins, and by the extent's leave to move. -/
theorem cabinetWindowsAndSpill : Obligations.CabinetWindowsAndSpill := by
  intro s drawer ht hd leaves
  have hok : decide (drawer < 48) = true := decide_eq_true hd
  refine ⟨fun a n off h => ?readQueue, fun a n g off h => ?readCells, fun a bs off hp h => ?writeQueue,
    fun a bs g off hp h => ?writeCells, fun a bs x hp => ?writeList, fun a g k off x hp hg => ?readList,
    fun k g first count hk hg hpos hfit hruns hcells holdest hno => ?spill, fun k g x hk hg he hw hf => ?returns⟩
  case readQueue => exact commandIf_of_eq (·.apertureGet a n) hok ht (apertureGet_of_queue h)
  case readCells =>
    have read := commandIf_of_eq (·.apertureGet a n) hok ht (apertureGet_of_cells h)
    exact ⟨fun hin => read.trans (by rw [if_pos hin]), fun hout => read.trans (by rw [if_neg (ne_true_of_eq_false hout)])⟩
  case writeQueue =>
    exact commandIf_of_eq (·.apertureWrite a bs) hok ht ((apertureWrite_of_not_prp hp).trans (aperturePut_of_queue h))
  case writeCells =>
    have write := commandIf_of_eq (·.apertureWrite a bs) hok ht ((apertureWrite_of_not_prp hp).trans (aperturePut_of_cells h))
    exact ⟨fun hin => write.trans (by rw [if_pos hin]), fun hout => write.trans (by rw [if_neg (ne_true_of_eq_false hout)])⟩
  case writeList => exact commandIf_of_eq (·.apertureWrite a bs) hok ht (apertureWrite_of_prp hp)
  case readList =>
    exact ⟨fun h => commandIf_of_eq (·.prpGet a) hok ht (prpGet_of_page hp hg h),
      fun h => commandIf_of_eq (·.prpGet a) hok ht (prpGet_of_beyond hp hg h)⟩
  case spill =>
    intro cells place u v w x
    have moves : s.spillExtent k first count = v.countSpill g.acc count :=
      spillExtent_of_maySpillExtent hg ⟨hpos, hfit, hruns, hcells, holdest, hno⟩
    exact commandIf_of_eq (fun s => (s.spillExtent k first count).settle) (decide_eq_true hk) ht (congrArg State.settle moves)
  case returns =>
    exact commandIf_of_eq (fun s => (s.spillReturn k x.run.first).settle) (decide_eq_true hk) ht
      (congrArg State.settle (spillReturn_of_fits hg he hw hf))

end Sys2Proof.Machine
end

