-- ==== Sys2Proof/Proofs/CipherKeys.lean ====
section
/-! SUPPORT. Key operations of the cipher engine: what the checks decide, import by import and slot by slot, how an operation
begins, and what it leaves when it ends (R233 to R236). -/

namespace Sys2Proof.Machine

open Sys2Proof.Reg

section
variable {s : State} {p : Path} {op kind k : Nat}

/-! ### The checks (R235) -/

/-- The kinds a key may be imported as: XTS, SETUP and KEK. -/
def importableKind (kind : Nat) : Prop := kind = 1 ∨ kind = 3 ∨ kind = 4

/-- What the material of an import decides once its slot is free: there is none, an XTS key's halves are equal, or it is
taken. -/
def judgeMaterial (kind : Nat) : Option (List Byte) → Nat × List Byte
  | none => (3, [])
  | some m => if kind = 1 ∧ m.take 32 = (m.drop 32).take 32 then (6, []) else (0, m)

/-- The wrapped material that declares the kind it is imported as. -/
def ofKind (kind : Nat) (u : Option (Nat × List Byte)) : Option (List Byte) :=
  match u with
  | some (kd, m) => if kd = kind then some m else none
  | none => none

theorem ofKind_of_some {u : Option (Nat × List Byte)} {m : List Byte} (h : u = some (kind, m)) : ofKind kind u = some m := by
  simp [ofKind, h]

theorem ofKind_of_other {u : Option (Nat × List Byte)} (h : ∀ m, u ≠ some (kind, m)) : ofKind kind u = none := by
  cases hu : u with
  | none => rfl
  | some x =>
    have other : x.1 ≠ kind := fun e => h x.2 (by rw [hu, ← e])
    exact if_neg other

theorem keyChecks_of_not_importable (h : ¬ importableKind kind) (hop : op ≤ 3) : s.keyChecks p op kind k = (4, []) := by
  obtain ⟨xts, setup, kek⟩ := not_or.mp h |>.imp_right not_or.mp
  exact if_pos (.inr (.inr ⟨hop, xts, setup, kek⟩))

/-- An import of a kind that may be imported passes the check of the operation and its kind. -/
theorem importable_passes (h : importableKind kind) (hpos : 1 ≤ op) (hop : op ≤ 3) :
    ¬ (op < 1 ∨ 5 < op ∨ (op ≤ 3 ∧ kind ≠ 1 ∧ kind ≠ 3 ∧ kind ≠ 4)) := by
  unfold importableKind at h
  omega

/-- An import in plain: the path, then the slot, then the material. -/
theorem keyChecks_plain (h : importableKind kind) :
    s.keyChecks p 1 kind k = if p = .mgmt ∨ p = .jtag then (5, []) else if (s.keySlot k).kind ≠ 0 then (1, [])
      else judgeMaterial kind (some (s.keyData.take 64)) := by
  rw [State.keyChecks, if_neg (importable_passes h (Nat.le_refl 1) (by decide))]
  simp [judgeMaterial]

/-- An import of a wrapped key: the slot, then what unwraps. -/
theorem keyChecks_wrapped (h : importableKind kind) (hop : op = 2 ∨ op = 3) :
    s.keyChecks p op kind k = if (s.keySlot k).kind ≠ 0 then (1, [])
      else judgeMaterial kind (ofKind kind (s.importMaterial op)) := by
  rw [State.keyChecks, if_neg (importable_passes h (by omega) (by omega))]
  rcases hop with rfl | rfl <;> simp [judgeMaterial, ofKind] <;> rfl

theorem keyChecks_export : s.keyChecks p 4 0 k = if (s.keySlot k).kind = 0 then (7, []) else (0, []) := by
  simp [State.keyChecks]

theorem keyChecks_erase :
    s.keyChecks p 5 0 k = if (s.keySlot k).kind = 0 then (7, []) else if s.slotBound k then (2, []) else (0, []) := by
  simp [State.keyChecks]

/-! ### An operation begins (R235) -/

/-- The engine runs an operation whose checks gave `r.1`, with the material `r.2`. -/
def State.keyBegins (s : State) (op kind k : Nat) (r : Nat × List Byte) : State :=
  ({ s with cph := { s.cph with job := some { op := op, kind := kind, slot := k, result := r.1, key := r.2 } } } : State).setFlag
    CPH_KEY_STATUS_BUSY 0 true

theorem keyStart_of_busy (h : s.flag CPH_KEY_STATUS_BUSY = true) :
    s.keyStart p op kind k = (s.setReg CPH_KEY_STATUS_RESULT 0 8).raise CPH_EVENT_KEY_FAILED :=
  if_pos h

theorem keyStart_of_idle (h : s.flag CPH_KEY_STATUS_BUSY = false) :
    s.keyStart p op kind k = s.keyBegins op kind k (s.keyChecks p op kind k) :=
  if_neg (ne_true_of_eq_false h)

/-- A row that writes CPH_KEY_CMD: refused while an operation runs, else an operation begins with what its checks give. -/
theorem exec_of_keyStart {i : Instr} (hok : i.wellFormed = true)
    (row : exec i s = command i s fun s => s.viaWrite p CPH_KEY_CMD_OP.addr (·.keyStart p op kind k))
    (ht : s.takes = true) (hm : s.mayWrite p CPH_KEY_CMD_OP.addr = true) :
    (s.flag CPH_KEY_STATUS_BUSY = true →
      exec i s = .next (((s.setReg CPH_KEY_STATUS_RESULT 0 8).raise CPH_EVENT_KEY_FAILED).keepQueue s)) ∧
    (s.flag CPH_KEY_STATUS_BUSY = false → ∀ r, s.keyChecks p op kind k = r →
      exec i s = .next ((s.keyBegins op kind k r).keepQueue s)) := by
  have acts {u : State} (h : s.keyStart p op kind k = u) : exec i s = .next (u.keepQueue s) :=
    row.trans (commandIf_path_of_eq (·.keyStart p op kind k) hok ht hm h)
  exact ⟨fun hb => acts (keyStart_of_busy hb), fun hi r hr => acts (hr ▸ keyStart_of_idle hi)⟩

/-! ### An operation ends (R235) -/

/-- What an operation does to the slots and to CPH_KEY_BLOB when it ends. -/
def State.keyEffect (s : State) (j : KeyJob) : State :=
  if j.result ≠ 0 then s
  else if j.op ≤ 3 then s.setKeySlot j.slot { kind := j.kind, key := slotMaterial j.kind j.key }
  else if j.op = 4 then
    s.setWords CPH_KEY_BLOB_BLOB ((Config.keyWrap true deviceKey (blobPlain (s.keySlot j.slot))).getD [])
  else s.setKeySlot j.slot {}

/-- No operation runs, the result shows and CPH_KEY_DATA is cleared. -/
def State.keyShows (s : State) (result : Nat) : State :=
  ((({ s with cph := { s.cph with job := none } } : State).setFlag CPH_KEY_STATUS_BUSY 0 false).setReg
    CPH_KEY_STATUS_RESULT 0 result).setWords CPH_KEY_DATA_DATA []

variable {j : KeyJob}

theorem keyDone_of_job (h : s.cph.job = some j) :
    s.keyDone = ((s.keyEffect j).keyShows j.result).raise (if j.result = 0 then CPH_EVENT_KEY_DONE else CPH_EVENT_KEY_FAILED) := by
  simp only [State.keyDone, h]
  rfl

theorem keyDone_of_failed (h : s.cph.job = some j) (hr : j.result ≠ 0) :
    s.keyDone = (s.keyShows j.result).raise CPH_EVENT_KEY_FAILED := by
  rw [keyDone_of_job h, State.keyEffect, if_pos hr, if_neg hr]

/-- An operation that its checks let pass takes effect, and KEY_DONE is set. -/
theorem keyDone_of_passed {u : State} (h : s.cph.job = some j) (hr : j.result = 0) (hu : s.keyEffect j = u) :
    s.keyDone = (u.keyShows j.result).raise CPH_EVENT_KEY_DONE := by
  rw [keyDone_of_job h, hu, if_pos hr]

theorem keyEffect_of_import (hr : j.result = 0) (hop : j.op ≤ 3) :
    s.keyEffect j = s.setKeySlot j.slot { kind := j.kind, key := slotMaterial j.kind j.key } := by
  simp [State.keyEffect, hr, hop]

theorem keyEffect_of_export (hr : j.result = 0) (hop : j.op = 4) :
    s.keyEffect j = s.setWords CPH_KEY_BLOB_BLOB ((Config.keyWrap true deviceKey (blobPlain (s.keySlot j.slot))).getD []) := by
  simp [State.keyEffect, hr, hop]

theorem keyEffect_of_erase (hr : j.result = 0) (hop : j.op = 5) : s.keyEffect j = s.setKeySlot j.slot {} := by
  simp [State.keyEffect, hr, hop]

end

/-- Settles O27: each write of CPH_KEY_CMD by the branch that its checks take, KEY_OP_DONE by the operation that ends. -/
theorem keyOperationsFollowTheirChecks : Obligations.KeyOperationsFollowTheirChecks := by
  intro s p kind k ht hkind hk hm leaves busy begins importable empty judged plain kek blob unwrapped
  have hslot : decide (k < 8192) = true := decide_eq_true hk
  have himport : (decide (k < 8192) && decide (kind < 16)) = true := by simp [hk, hkind]
  obtain ⟨plainBusy, plainBegins⟩ := exec_of_keyStart (i := .keyImportPlain p k kind) himport rfl ht hm
  obtain ⟨kekBusy, kekBegins⟩ := exec_of_keyStart (i := .keyImportKek p k kind) himport rfl ht hm
  obtain ⟨blobBusy, blobBegins⟩ := exec_of_keyStart (i := .keyImportBlob p k kind) himport rfl ht hm
  obtain ⟨exportBusy, exportBegins⟩ := exec_of_keyStart (i := .keyExport p k) hslot rfl ht hm
  obtain ⟨eraseBusy, eraseBegins⟩ := exec_of_keyStart (i := .keyErase p k) hslot rfl ht hm
  -- An operation that begins with what its material decides is judged by it.
  have judging {op : Nat} {m : List Byte} {r : Host.Outcome State Fault Refusal}
      (h : leaves (s.keyBegins op kind k (judgeMaterial kind (some m))) r) : judged op m r := by
    by_cases e : kind = 1 ∧ m.take 32 = (m.drop 32).take 32
    · rw [judgeMaterial, if_pos e] at h
      exact (if_pos e).mpr h
    · rw [judgeMaterial, if_neg e] at h
      exact (if_neg e).mpr h
  refine ⟨fun hb => ⟨plainBusy hb, kekBusy hb, blobBusy hb, exportBusy hb, eraseBusy hb⟩,
    fun hi => ⟨?otherKind, ?management, ?plainUsed, ?plainJudged, ?wrappedUsed, ?wrappedJudged, ?emptySlot, ?usedSlot⟩,
    fun j hj => ?ends⟩
  case otherKind =>
    intro h
    exact ⟨plainBegins hi _ (keyChecks_of_not_importable h (by decide)), kekBegins hi _ (keyChecks_of_not_importable h (by decide)),
      blobBegins hi _ (keyChecks_of_not_importable h (by decide))⟩
  case management => exact fun h hp => plainBegins hi _ ((keyChecks_plain h).trans (if_pos hp))
  case plainUsed =>
    exact fun h hmgmt hjtag hused => plainBegins hi _
      ((keyChecks_plain h).trans ((if_neg (not_or.mpr ⟨hmgmt, hjtag⟩)).trans (if_pos hused)))
  case plainJudged =>
    exact fun h hmgmt hjtag hempty => judging (plainBegins hi _
      ((keyChecks_plain h).trans ((if_neg (not_or.mpr ⟨hmgmt, hjtag⟩)).trans (if_neg (Classical.not_not.mpr hempty)))))
  case wrappedUsed =>
    exact fun h hused => ⟨kekBegins hi _ ((keyChecks_wrapped h (.inl rfl)).trans (if_pos hused)),
      blobBegins hi _ ((keyChecks_wrapped h (.inr rfl)).trans (if_pos hused))⟩
  case wrappedJudged =>
    intro h hempty
    have free {op : Nat} (hop : op = 2 ∨ op = 3) {u : Option (List Byte)} (hu : ofKind kind (s.importMaterial op) = u) :
        s.keyChecks p op kind k = judgeMaterial kind u :=
      hu ▸ (keyChecks_wrapped h hop).trans (if_neg (Classical.not_not.mpr hempty))
    exact ⟨fun m hu => judging (kekBegins hi _ (free (.inl rfl) (ofKind_of_some hu))),
      fun m hu => judging (blobBegins hi _ (free (.inr rfl) (ofKind_of_some hu))),
      fun hu => kekBegins hi _ (free (.inl rfl) (ofKind_of_other hu)),
      fun hu => blobBegins hi _ (free (.inr rfl) (ofKind_of_other hu))⟩
  case emptySlot =>
    exact fun hempty => ⟨exportBegins hi _ (keyChecks_export.trans (if_pos hempty)),
      eraseBegins hi _ (keyChecks_erase.trans (if_pos hempty))⟩
  case usedSlot =>
    exact fun hused => ⟨exportBegins hi _ (keyChecks_export.trans (if_neg hused)),
      fun hb => eraseBegins hi _ (keyChecks_erase.trans ((if_neg hused).trans (if_pos hb))),
      fun hb => eraseBegins hi _ (keyChecks_erase.trans ((if_neg hused).trans (if_neg (ne_true_of_eq_false hb))))⟩
  case ends =>
    intro ends
    have acts {u : State} (h : s.keyDone = u) : leaves u (exec .keyOpDone s) := commandIf_of_eq State.keyDone rfl ht h
    exact ⟨fun hr => acts (keyDone_of_failed hj hr),
      fun hr hop => acts (keyDone_of_passed hj hr (keyEffect_of_import hr hop)),
      fun hr hop => acts (keyDone_of_passed hj hr (keyEffect_of_export hr hop)),
      fun hr hop => acts (keyDone_of_passed hj hr (keyEffect_of_erase hr hop))⟩

end Sys2Proof.Machine
end

