-- ==== Sys2Proof/Proofs/CipherItems.lean ====
section
/-! SUPPORT. Items of the cipher engine that end on their pair, the pairs' tests and the entropy source (R237 to R241, R245,
R405, R454). -/

namespace Sys2Proof.Machine

open Sys2Proof.Reg

section
variable {s : State} {q n : Nat} {i : CphItem} {rest : List PairItem}

/-! ### The end of an item (R237, R239, R240) -/

/-- The item at the head of pair `q`'s queue is off it, and the dummy rounds it drew are counted. -/
def State.itemTaken (s : State) (q n : Nat) (i : CphItem) (rest : List PairItem) : State :=
  (s.setPairQueue q rest).bumpBy CPH_DUMMY_ROUNDS 0 n (i.attr s)

/-- A mismatch on pair `q` is counted and recorded (R240, R405). -/
def State.mismatchCounted (s : State) (q : Nat) (i : CphItem) : State :=
  let n := s.reg CPH_PAIR_STATE_COUNT q + 1
  (((s.setReg CPH_PAIR_STATE_COUNT q n).bump CPH_MISMATCHES 0 (i.attr s)).raise CPH_EVENT_MISMATCH).cphRecord q 1 n i.code i.slot

theorem itemEnds_of_empty (h : s.pairQueue q = []) (agree : Bool) : s.itemEnds q agree = s := by
  simp only [State.itemEnds, h]

theorem itemEnds_of_agree (h : s.pairQueue q = { item := i, dummies := n } :: rest) :
    s.itemEnds q true = ((s.itemTaken q n i rest).itemPassed i).itemOver i := by
  simp only [State.itemEnds, State.itemTaken, h, if_true]

theorem itemEnds_of_mismatch (h : s.pairQueue q = { item := i, dummies := n } :: rest) :
    s.itemEnds q false = ((s.itemTaken q n i rest).pairMismatch q i).itemOver i := by
  simp only [State.itemEnds, State.itemTaken, h, Bool.false_eq_true, if_false]

/-- The second mismatch of a working cycle quarantines the pair before the item fails on it (R240). -/
theorem pairMismatch_eq :
    s.pairMismatch q i =
      (if 2 ≤ s.reg CPH_PAIR_STATE_COUNT q + 1 then (s.mismatchCounted q i).quarantinePair q else s.mismatchCounted q i).itemFailed q i :=
  (apply_ite (State.itemFailed · q i) _ _ _).symm

/-! ### Pair tests (R241) -/

theorem pairTestStart_of_quarantined (h : s.reg CPH_PAIR_STATE_STATE q = 1) :
    s.pairTestStart q = s.setReg CPH_PAIR_STATE_STATE q 2 :=
  if_pos h

theorem pairTestStart_of_not_quarantined (h : s.reg CPH_PAIR_STATE_STATE q ≠ 1) :
    s.pairTestStart q = s.raise CPH_EVENT_CMD_REFUSED :=
  if_neg h

/-- A pair under test returns to service with its count cleared, or to quarantine. -/
theorem pairTestEnd_of_testing (h : s.reg CPH_PAIR_STATE_STATE q = 2) (pass : Bool) :
    s.pairTestEnd q pass = if pass then
        (((s.setReg CPH_PAIR_STATE_STATE q 0).setReg CPH_PAIR_STATE_COUNT q 0).countPairs).cphRecord q 3 0 0 0
      else (s.setReg CPH_PAIR_STATE_STATE q 1).cphRecord q 4 (s.reg CPH_PAIR_STATE_COUNT q) 0 0 :=
  if_pos h

/-! ### The entropy source (R245) -/

theorem entropyRecovers_of_failed (h : s.flag CPH_STATUS_SRC_FAILED = true) :
    s.entropyRecovers = ({ s with cph := { s.cph with drbg := { s.cph.drbg with owed := true } } } : State).setFlag
      CPH_STATUS_SRC_FAILED 0 false :=
  if_pos h

theorem entropyRecovers_of_sound (h : s.flag CPH_STATUS_SRC_FAILED = false) : s.entropyRecovers = s :=
  if_neg (ne_true_of_eq_false h)

end

/-- Settles O28, by the item at the head of the pair's queue, by the pair's state, and by the source's. -/
theorem cipherPairsAndEntropy : Obligations.CipherPairsAndEntropy := by
  intro s p q ht hq leaves
  have hok : decide (q < 72) = true := decide_eq_true hq
  have ends {agree : Bool} {u : State} (h : s.itemEnds q agree = u) : leaves u.settle (exec (.cipherItemDone q agree) s) :=
    commandIf_of_eq (fun s => (s.itemEnds q agree).settle) hok ht (congrArg State.settle h)
  refine ⟨fun i n rest hhead => ?item, fun hempty b => ends (itemEnds_of_empty hempty b),
    fun hm => ⟨?testBegins, ?testRefused⟩, fun htest => ⟨?testPasses, ?testFails⟩, ?healthFails, ?recovers, ?sound⟩
  case item =>
    intro u
    have passed : s.itemEnds q true = (u.itemPassed i).itemOver i := itemEnds_of_agree hhead
    have failed : s.itemEnds q false = (u.pairMismatch q i).itemOver i := itemEnds_of_mismatch hhead
    refine ⟨?xts, ?gcmTx, ?gcmRx, ends (failed.trans (congrArg (State.itemOver · i) pairMismatch_eq))⟩
    case xts =>
      rintro o t enc slot unit cell group goff zero rfl
      exact ends passed
    case gcmTx =>
      rintro f w k rfl
      exact ends passed
    case gcmRx =>
      rintro t m k x info rfl
      exact ends passed
  case testBegins =>
    exact fun h => commandIf_path_of_eq (·.pairTestStart q) hok ht hm (pairTestStart_of_quarantined h)
  case testRefused =>
    exact fun h => commandIf_path_of_eq (·.pairTestStart q) hok ht hm (pairTestStart_of_not_quarantined h)
  case testPasses => exact commandIf_of_eq (·.pairTestEnd q true) hok ht (pairTestEnd_of_testing htest true)
  case testFails => exact commandIf_of_eq (·.pairTestEnd q false) hok ht (pairTestEnd_of_testing htest false)
  case healthFails => exact command_next .entropyHealthFail s State.entropyFail rfl ht
  case recovers => exact fun h => commandIf_of_eq State.entropyRecovers rfl ht (entropyRecovers_of_failed h)
  case sound => exact fun h => commandIf_of_eq State.entropyRecovers rfl ht (entropyRecovers_of_sound h)

end Sys2Proof.Machine
end

