-- ==== Sys2Proof/Proofs/FieldArithmetic.lean ====
section
/-! SUPPORT. The field GF(2^8) of the syndromes: the generator's powers, and the inverses that recovery divides by (R252, R253). -/

namespace Sys2Proof.Machine

section
variable (a b c : Byte) (m n k : Nat)

/-! ### Scaling by powers of the generator -/

theorem xor_right_comm : a ^^^ b ^^^ c = a ^^^ c ^^^ b := by ac_rfl

theorem xor_pair_cancel : a ^^^ c ^^^ (b ^^^ c) = a ^^^ b := by
  have h : a ^^^ c ^^^ (b ^^^ c) = a ^^^ b ^^^ (c ^^^ c) := by ac_rfl
  rw [h, BitVec.xor_self]
  exact BitVec.xor_zero

theorem xor_add_cancel : a ^^^ (a ^^^ b) = b := by
  rw [← BitVec.xor_assoc, BitVec.xor_self]
  exact BitVec.zero_xor

/-- A sum with one term `a` replaced by `c`. -/
theorem xor_replace : a ^^^ b ^^^ (a ^^^ c) = c ^^^ b := by
  rw [BitVec.xor_comm a b, BitVec.xor_comm a c, xor_pair_cancel, BitVec.xor_comm]

theorem gfDouble_xor : gfDouble (a ^^^ b) = gfDouble a ^^^ gfDouble b := by
  unfold gfDouble
  rw [BitVec.getLsbD_xor, BitVec.shiftLeft_xor_distrib]
  cases a.getLsbD 7 <;> cases b.getLsbD 7
  · rfl
  · exact BitVec.xor_assoc ..
  · exact (xor_right_comm ..).symm
  · exact (xor_pair_cancel ..).symm

@[simp] theorem gfScale_zero : gfScale 0#8 n = 0#8 := by
  induction n with
  | zero => rfl
  | succ n ih => rw [gfScale, ih]; rfl

theorem gfScale_xor : gfScale (a ^^^ b) n = gfScale a n ^^^ gfScale b n := by
  induction n with
  | zero => rfl
  | succ n ih => rw [gfScale, ih, gfDouble_xor]; rfl

theorem gfScale_add : gfScale a (m + n) = gfScale (gfScale a m) n := by
  induction n with
  | zero => rfl
  | succ n ih => exact congrArg gfDouble ih

theorem gfScale_comm : gfScale (gfScale a m) n = gfScale (gfScale a n) m := by
  rw [← gfScale_add, ← gfScale_add, Nat.add_comm]

/-! ### Products -/

theorem gfMulFrom_xor : gfMulFrom (a ^^^ b) c n = gfMulFrom a c n ^^^ gfMulFrom b c n := by
  induction n with
  | zero => exact BitVec.xor_self.symm
  | succ n ih =>
    rw [gfMulFrom, gfMulFrom, gfMulFrom, ih, gfScale_xor]
    split
    · ac_rfl
    · simp

theorem gfMulFrom_gfScale : gfMulFrom (gfScale a m) b n = gfScale (gfMulFrom a b n) m := by
  induction n with
  | zero => exact (gfScale_zero m).symm
  | succ n ih =>
    rw [gfMulFrom, gfMulFrom, ih, gfScale_xor, gfScale_comm]
    split
    · rfl
    · exact congrArg (· ^^^ _) (gfScale_zero m).symm

/-- Scaling the first factor scales the product. -/
theorem gfMul_gfScale : gfMul (gfScale a m) b = gfScale (gfMul a b) m := gfMulFrom_gfScale ..

theorem gfMul_zero_left : gfMul 0 b = 0 := by
  have h := gfMulFrom_xor 0 0 b 8
  simpa [gfMul] using h

/-- A product is a sum of scaled first factors, so a further factor may be taken before it. -/
theorem gfMul_right_comm : gfMul (gfMul a b) c = gfMul (gfMul a c) b := by
  have from_bit : ∀ n, gfMul (gfMulFrom a b n) c = gfMulFrom (gfMul a c) b n := by
    intro n
    induction n with
    | zero => exact gfMul_zero_left c
    | succ n ih =>
      rw [gfMulFrom, gfMulFrom, ← ih, gfMul, gfMulFrom_xor]
      congr 1
      split
      · exact gfMul_gfScale ..
      · exact gfMul_zero_left c
  exact from_bit 8

theorem gfMul_one_left : gfMul 1 b = b := by
  revert b
  decide

theorem gfMul_comm : gfMul a b = gfMul b a := by
  have h := gfMul_right_comm 1 a b
  rwa [gfMul_one_left, gfMul_one_left] at h

theorem gfMul_assoc : gfMul (gfMul a b) c = gfMul a (gfMul b c) := by
  rw [gfMul_comm a b, gfMul_right_comm, gfMul_comm]

theorem gfMul_xor : gfMul a (b ^^^ c) = gfMul a b ^^^ gfMul a c := by
  rw [gfMul_comm, gfMul, gfMulFrom_xor, ← gfMul, ← gfMul, gfMul_comm b, gfMul_comm c]

/-- The product with a power of the generator is the scaling by it. -/
theorem gfMul_power : gfMul a (gfScale 1 n) = gfScale a n := by
  rw [gfMul_comm, gfMul_gfScale, gfMul_one_left]

theorem gfScale_xor_gfScale : gfScale a m ^^^ gfScale a n = gfMul a (gfScale 1 m ^^^ gfScale 1 n) := by
  rw [gfMul_xor, gfMul_power, gfMul_power]

/-! ### Inverses -/

/-- The generator has order 255, the number of the field's non-zero elements. -/
theorem gfScale_one_255 : gfScale 1 255 = 1 := by decide +kernel

theorem gfScale_one_mul_255 : gfScale 1 (k * 255) = 1 := by
  induction k with
  | zero => rw [Nat.zero_mul]; rfl
  | succ k ih => rw [Nat.succ_mul, gfScale_add, ih, gfScale_one_255]

theorem gfPow_power : gfPow (gfScale 1 k) n = gfScale 1 (k * n) := by
  induction n with
  | zero => rfl
  | succ n ih => rw [gfPow, ih, gfMul_power, ← gfScale_add, Nat.mul_succ, Nat.add_comm]

/-- `gfInv` inverts each power of the generator. -/
theorem gfMul_gfInv_power : gfMul (gfScale 1 k) (gfInv (gfScale 1 k)) = 1 :=
  (gfPow_power ..).trans (gfScale_one_mul_255 k)

/-- Dividing by a power of the generator undoes the product with it. -/
theorem gfMul_gfInv_cancel : gfMul (gfMul a (gfScale 1 k)) (gfInv (gfScale 1 k)) = a := by
  rw [gfMul_assoc, gfMul_gfInv_power, gfMul_comm, gfMul_one_left]

end

/-- Zech's logarithms: `1 + g^m` as a power of the generator, for the distances of two of the 22 data members of a column. -/
def zechLog (m : Nat) : Nat :=
  [0, 25, 50, 223, 100, 138, 191, 112, 200, 120, 21, 245, 127, 99, 224, 33, 145, 68, 240, 92, 42, 10].getD m 0

theorem gfScale_zechLog : ∀ m, m < 22 → m ≠ 0 → gfScale 1 (zechLog m) = 1 ^^^ gfScale 1 m := by
  decide +kernel

/-- Two different powers among a column's 22 differ by a power: dividing by the difference undoes the product with it. -/
theorem gfMul_gfInv_cancel_of_lt {m n : Nat} (d : Byte) (hmn : m < n) (hn : n < 22) :
    gfMul (gfMul d (gfScale 1 m ^^^ gfScale 1 n)) (gfInv (gfScale 1 m ^^^ gfScale 1 n)) = d := by
  have power : gfScale 1 m ^^^ gfScale 1 n = gfScale 1 (zechLog (n - m) + m) := by
    rw [gfScale_add, gfScale_zechLog (n - m) (by omega) (by omega), gfScale_xor, ← gfScale_add, Nat.sub_add_cancel hmn.le]
  rw [power, gfMul_gfInv_cancel]

theorem gfMul_gfInv_cancel_of_ne {m n : Nat} (d : Byte) (hmn : m ≠ n) (hm : m < 22) (hn : n < 22) :
    gfMul (gfMul d (gfScale 1 m ^^^ gfScale 1 n)) (gfInv (gfScale 1 m ^^^ gfScale 1 n)) = d := by
  rcases Nat.lt_or_gt_of_ne hmn with h | h
  · exact gfMul_gfInv_cancel_of_lt d h hn
  · rw [BitVec.xor_comm]
    exact gfMul_gfInv_cancel_of_lt d h hm

end Sys2Proof.Machine
end

