-- ==== Sys2Proof/Proofs/Recovery.lean ====
section
/-! SUPPORT. Recovery of a column's lost strips from the others (R252, R253). -/

namespace Sys2Proof.Machine

/-! ### The syndromes of a column with one byte replaced -/

theorem foldl_xor (x : Byte) (ds : List Byte) : ds.foldl (· ^^^ ·) x = x ^^^ synP ds := by
  unfold synP
  induction ds generalizing x with
  | nil => exact BitVec.xor_zero.symm
  | cons d ds ih => rw [List.foldl_cons, ih, List.foldl_cons, ih (0 ^^^ d), BitVec.xor_assoc]; exact congrArg _ (congrArg (· ^^^ _) BitVec.zero_xor.symm)

theorem synP_cons (d : Byte) (ds : List Byte) : synP (d :: ds) = d ^^^ synP ds :=
  (foldl_xor (0 ^^^ d) ds).trans (congrArg (· ^^^ _) BitVec.zero_xor)

theorem synP_set (ds : List Byte) {a : Nat} (x : Byte) (ha : a < ds.length) :
    synP (ds.set a x) = synP ds ^^^ (ds[a] ^^^ x) := by
  induction ds generalizing a with
  | nil => exact absurd ha (Nat.not_lt_zero a)
  | cons d ds ih =>
    cases a with
    | zero =>
      rw [List.set_cons_zero, synP_cons, synP_cons, List.getElem_cons_zero]
      exact (xor_replace ..).symm
    | succ a => rw [List.set_cons_succ, synP_cons, synP_cons, ih (Nat.lt_of_succ_lt_succ ha), ← BitVec.xor_assoc]; rfl

theorem synQFrom_set (ds : List Byte) {a : Nat} (j : Nat) (x : Byte) (ha : a < ds.length) :
    synQFrom j (ds.set a x) = synQFrom j ds ^^^ gfScale (ds[a] ^^^ x) (j + a) := by
  induction ds generalizing a j with
  | nil => exact absurd ha (Nat.not_lt_zero a)
  | cons d ds ih =>
    cases a with
    | zero =>
      rw [List.set_cons_zero, synQFrom, synQFrom, List.getElem_cons_zero, gfScale_xor]
      exact (xor_replace ..).symm
    | succ a =>
      rw [List.set_cons_succ, synQFrom, synQFrom, ih _ (Nat.lt_of_succ_lt_succ ha), ← BitVec.xor_assoc, Nat.add_right_comm]; rfl

theorem synQ_set (ds : List Byte) {a : Nat} (x : Byte) (ha : a < ds.length) :
    synQ (ds.set a x) = synQ ds ^^^ gfScale (ds[a] ^^^ x) a := by
  rw [synQ, synQFrom_set ds 0 x ha, Nat.zero_add]; rfl

/-! ### The column with its lost bytes taken as 0 -/

/-- The bytes that are not lost, the others taken as 0. -/
def zeroed (n : Nat) (ds : List Byte) (lost : List Nat) : List Byte :=
  (List.range n).map fun i => if lost.contains i then 0 else ds.getD i 0

section
variable {ds ds' : List Byte} {lost : List Nat}

theorem zeroing_getElem? (i : Nat) :
    (lost.foldl (fun u j => u.set j 0) ds)[i]? = if i ∈ lost then ds[i]?.map fun _ => 0 else ds[i]? := by
  induction lost generalizing ds with
  | nil => rfl
  | cons j lost ih =>
    rw [List.foldl_cons, ih, List.getElem?_set]
    by_cases hj : j = i
    · subst hj
      by_cases hl : j < ds.length <;> simp [hl]
    · simp [hj, Ne.symm hj]

/-- Where the other bytes are right, it is the true column with the lost bytes set to 0. -/
theorem zeroed_eq_set (hds : ∀ i, i < ds.length → i ∉ lost → ds'.getD i 0 = ds.getD i 0) :
    zeroed ds.length ds' lost = lost.foldl (fun u i => u.set i 0) ds := by
  refine List.ext_getElem? fun i => ?_
  rw [zeroing_getElem?, zeroed, List.getElem?_map]
  by_cases hi : i < ds.length
  · rw [List.getElem?_range hi, List.getElem?_eq_getElem hi]
    by_cases hl : i ∈ lost
    · simp [hl]
    · simpa [hl, hi] using hds i hi hl
  · rw [List.getElem?_eq_none (by simpa using hi), List.getElem?_eq_none (Nat.le_of_not_lt hi)]
    simp

end

/-! ### Recovery (R253) -/

/-- Data recovered from the column `u` whose lost bytes are taken as 0, from what P and Q differ by from its syndromes, with
P lost or not. -/
def recoveredData (u : List Byte) (p q : Byte) (pLost : Bool) : List Nat → List Byte
  | [a] => if pLost then setAt u a (gfMul (gfInv (gfScale 1 a)) q) else setAt u a p
  | [a, b] =>
    let da := gfMul (q ^^^ gfScale p b) (gfInv (gfScale 1 a ^^^ gfScale 1 b))
    setAt (setAt u a da) b (p ^^^ da)
  | _ => u

theorem recoverByte_fst (n : Nat) (ds : List Byte) (p q : Byte) (miss : List Nat) :
    (recoverByte n ds p q miss).1 =
      let lost := miss.filter fun i => decide (i < n)
      let u := zeroed n ds lost
      recoveredData u (p ^^^ synP u) (q ^^^ synQ u) (miss.contains n) lost := by
  unfold recoverByte recoveredData
  rfl

/-- Where the data are recovered, so are P and Q. -/
theorem recoverByte_of_data {n : Nat} {ds ds' : List Byte} {p q : Byte} {miss : List Nat}
    (h : (recoverByte n ds' p q miss).1 = ds) (hp : n ∉ miss → p = synP ds) (hq : n + 1 ∉ miss → q = synQ ds) :
    recoverByte n ds' p q miss = (ds, synP ds, synQ ds) := by
  have parts : recoverByte n ds' p q miss = ((recoverByte n ds' p q miss).1,
    if miss.contains n then synP (recoverByte n ds' p q miss).1 else p,
    if miss.contains (n + 1) then synQ (recoverByte n ds' p q miss).1 else q) := rfl
  rw [parts, h]
  congr 2
  · split
    · rfl
    · next hn => exact hp (by simpa using hn)
  · split
    · rfl
    · next hn => exact hq (by simpa using hn)

section
variable {ds : List Byte} {a b : Nat} (ha : a < ds.length)
include ha

theorem set_back : setAt (ds.set a 0) a ds[a] = ds := by
  rw [setAt, List.set_set, List.set_getElem_self]

/-- What P differs by where one byte is taken as 0. -/
theorem synP_zeroed_one : synP ds ^^^ synP (ds.set a 0) = ds[a] := by
  rw [synP_set ds 0 ha, xor_add_cancel]
  exact BitVec.xor_zero

theorem synQ_zeroed_one : synQ ds ^^^ synQ (ds.set a 0) = gfScale ds[a] a := by
  rw [synQ_set ds 0 ha, xor_add_cancel]
  exact congrArg (gfScale · a) BitVec.xor_zero

/-- One lost byte, from P. -/
theorem recoveredData_one_from_P (q : Byte) :
    recoveredData (ds.set a 0) (synP ds ^^^ synP (ds.set a 0)) q false [a] = ds := by
  rw [synP_zeroed_one ha]
  exact set_back ha

/-- One lost byte with P lost too, from Q. -/
theorem recoveredData_one_from_Q (p : Byte) :
    recoveredData (ds.set a 0) p (synQ ds ^^^ synQ (ds.set a 0)) true [a] = ds := by
  have solved : gfMul (gfInv (gfScale 1 a)) (gfScale ds[a] a) = ds[a] := by
    rw [gfMul_comm, ← gfMul_power, gfMul_gfInv_cancel]
  rw [synQ_zeroed_one ha, recoveredData, if_pos rfl, solved]
  exact set_back ha

variable (hb : b < ds.length) (hab : a ≠ b)
include hb hab

/-- Two lost bytes, from P and Q. -/
theorem recoveredData_two (hn : ds.length ≤ 22) (pLost : Bool) :
    let u := (ds.set a 0).set b 0
    recoveredData u (synP ds ^^^ synP u) (synQ ds ^^^ synQ u) pLost [a, b] = ds := by
  intro u
  have hb' : b < (ds.set a 0).length := by simpa using hb
  have other : (ds.set a 0)[b] = ds[b] := List.getElem_set_of_ne hab ..
  have difP : synP ds ^^^ synP u = ds[a] ^^^ ds[b] := by
    rw [← synP_zeroed_one ha, ← other, ← synP_zeroed_one hb', BitVec.xor_assoc, xor_add_cancel]
  have difQ : synQ ds ^^^ synQ u = gfScale ds[a] a ^^^ gfScale ds[b] b := by
    rw [← synQ_zeroed_one ha, ← other, ← synQ_zeroed_one hb', BitVec.xor_assoc, xor_add_cancel]
  have solved : gfMul (gfScale ds[a] a ^^^ gfScale ds[b] b ^^^ gfScale (ds[a] ^^^ ds[b]) b)
      (gfInv (gfScale 1 a ^^^ gfScale 1 b)) = ds[a] := by
    rw [gfScale_xor, xor_pair_cancel, gfScale_xor_gfScale,
      gfMul_gfInv_cancel_of_ne _ hab (Nat.lt_of_lt_of_le ha hn) (Nat.lt_of_lt_of_le hb hn)]
  rw [difP, difQ, recoveredData, solved, BitVec.xor_comm _ ds[a], xor_add_cancel]
  have first : setAt u a ds[a] = ds.set b 0 := by
    rw [setAt, List.set_comm _ _ hab.symm]
    exact congrArg (·.set b 0) (set_back ha)
  rw [first]
  exact set_back hb

end

/-- Three different members of a list of at most two. -/
theorem not_three_mem {l : List Nat} (h : l.length ≤ 2) {x y z : Nat} (hd : [x, y, z].Nodup) (hx : x ∈ l) (hy : y ∈ l) : z ∉ l := by
  intro hz
  have sub : [x, y, z] ⊆ l := by simp [hx, hy, hz]
  have := (List.subperm_of_subset hd sub).length_le
  simp only [List.length_cons, List.length_nil] at this
  omega

/-- Settles O60, by how many of the lost strips are data. -/
theorem twoLostStripsAreRecovered : Obligations.TwoLostStripsAreRecovered := by
  intro ds ds' p q miss hn hlen hmiss hnodup hds hp hq hin
  refine recoverByte_of_data ?_ hp hq
  have lost_iff (i : Nat) : i ∈ miss.filter (fun i => decide (i < ds.length)) ↔ i ∈ miss ∧ i < ds.length := by simp
  rw [recoverByte_fst]
  dsimp only
  rw [zeroed_eq_set fun i hi hl => hds i hi fun hm => hl ((lost_iff i).mpr ⟨hm, hi⟩)]
  have lost_nodup := hnodup.filter fun i => decide (i < ds.length)
  have lost_short := (List.length_filter_le (fun i => decide (i < ds.length)) miss).trans hmiss
  generalize miss.filter (fun i => decide (i < ds.length)) = lost at *
  match lost with
  | [] => rfl
  | [a] =>
    obtain ⟨ham, ha⟩ := (lost_iff a).mp (by simp)
    cases hpl : miss.contains ds.length with
    | true =>
      have hn : ds.length ∈ miss := by simpa using hpl
      rw [hq (not_three_mem hmiss (by simp; omega) ham hn)]
      exact recoveredData_one_from_Q ha _
    | false =>
      rw [hp (by simpa using hpl)]
      exact recoveredData_one_from_P ha _
  | [a, b] =>
    obtain ⟨ham, ha⟩ := (lost_iff a).mp (by simp)
    obtain ⟨hbm, hb⟩ := (lost_iff b).mp (by simp)
    have hab : a ≠ b := by simpa using lost_nodup
    rw [hp (not_three_mem hmiss (by simp; omega) ham hbm), hq (not_three_mem hmiss (by simp; omega) ham hbm)]
    exact recoveredData_two ha hb hab hn _
  | a :: b :: c :: rest => simp at lost_short

end Sys2Proof.Machine
end

