-- ==== Sys2Proof/Proofs/TetherFrame.lean ====
section
/-! SUPPORT. The Tether frame that the part sends (R344, R345). -/

namespace Sys2Proof.Machine

theorem tetherCrc_lt (v : Nat) : tetherCrc v < 256 := (crc8 (beBytes 7 (v / 256))).isLt

/-- The CRC covers bits 63:8 alone. -/
theorem tetherCrc_congr {v w : Nat} (h : v / 256 = w / 256) : tetherCrc v = tetherCrc w := by
  rw [tetherCrc, tetherCrc, h]

theorem boolNat_lt (b : Bool) : Bool.nat b < 2 := by cases b <;> decide

/-- Settles O59: the fields lie below one another, and the CRC below them all. -/
theorem everyTetherFrameSentIsAcceptable : Obligations.EveryTetherFrameSentIsAcceptable := by
  intro s hrole hpair v
  have hok := boolNat_lt s.hng.coreOk
  have hpfw := boolNat_lt s.top.pfw
  have hreq := boolNat_lt s.hng.detachReq
  have hack := boolNat_lt s.hng.detachAck
  obtain ⟨body, hv, hbody⟩ : ∃ body, v = body + tetherCrc body ∧ body = 1 * 2 ^ 60 + 2 ^ 59 * (s.top.unitSel % 2) + 2 ^ 56 * s.role +
      2 ^ 53 * s.pair + 2 ^ 52 * Bool.nat s.hng.coreOk + 2 ^ 51 * Bool.nat s.top.pfw + 2 ^ 50 * Bool.nat s.hng.detachReq +
      2 ^ 49 * Bool.nat s.hng.detachAck + 2 ^ 32 * (s.epoch % 65536) + 2 ^ 16 * (s.hng.tetherSeq % 65536) := ⟨_, rfl, rfl⟩
  have hcrc := tetherCrc_lt body
  have covered : tetherCrc v = tetherCrc body := tetherCrc_congr (by omega)
  rw [covered]
  generalize tetherCrc body = crc at *
  refine ⟨?_, ?_, ?_, ?_, ?_, ?_, ?_, ?_, ?_, ?_, ?_, ?_⟩ <;> omega

end Sys2Proof.Machine
end

