-- ==== Sys2Proof/Proofs/Runs.lean ====
section
/-! SUPPORT. Steps and runs: what a held device ignores, what a step leaves of the queue, and that no run stops (R422, R432). -/

namespace Sys2Proof.Machine

theorem commandAtOnce_of_held (ok : Bool) {s : State} (f : State → State) (h : s.held = true) :
    commandAtOnce ok s f = .next s := by
  simp [commandAtOnce, h]

/-- The commands that act while the device is held pass another gate than `command`. -/
theorem command_of_held (i : Instr) {s : State} (f : State → State) (h : s.held = true) : command i s f = .next s :=
  commandIf_held _ s f h

/-- A sensor's reading that is no trip leaves a held device as it is (R448). -/
theorem exec_thermalWarning_of_no_trip {k t : Nat} {s : State} (h : s.held = true) (ht : s.trips k t = false) :
    exec (.thermalWarning k t) s = .next s := by
  rw [exec_thermalWarning_of_held k t h]
  simp [commandAlwaysIf, ht]

/-- Settles O51, from the gate that each command passes. -/
theorem aHeldDeviceIgnoresCommands : Obligations.AHeldDeviceIgnoresCommands := by
  intro i s hh hi hc ht
  rcases gated_cases i with hg | hi' | ⟨c, hclk⟩ | ⟨k, t, rfl⟩
  · obtain ⟨f, hf⟩ := exec_of_gated hg
    rw [hf s, command_of_held i f hh]
  · obtain rfl : i = .epochBoundary := by
      simp only [List.mem_cons, List.not_mem_nil, or_false] at hi hi'
      tauto
    exact commandAtOnce_of_held _ _ hh
  · exact absurd hclk (not_or.mpr (hc c))
  · exact exec_thermalWarning_of_no_trip hh (ht k t rfl)

/-- A step answers a next state, whose queue is the rest of the old one. -/
theorem step_answers (s : State) : ∃ t, step s = .next t ∧ t.pending = s.pending.tail := by
  cases hq : s.pending with
  | nil => exact ⟨_, step_of_nil hq, hq⟩
  | cons c rest =>
    obtain ⟨t, ht, kept⟩ := (everyCommandAnswers c { s with pending := rest }).1
    exact ⟨t, (step_of_cons hq).trans ht, kept⟩

theorem pending_of_step {s t : State} (h : step s = .next t) : t.pending = s.pending.tail := by
  obtain ⟨u, hu, kept⟩ := step_answers s
  obtain rfl : u = t := Host.Outcome.next.inj (hu.symm.trans h)
  exact kept

theorem queueOk_of_tail {s t : State} (h : t.pending = s.pending.tail) (hs : s.queueOk = true) : t.queueOk = true := by
  rw [State.queueOk, h]
  exact List.all_eq_true.mpr fun i hi => List.all_eq_true.mp hs i (List.mem_of_mem_tail hi)

/-- Settles O52, from what a step leaves of the queue. -/
theorem theQueueStaysWellFormed : Obligations.TheQueueStaysWellFormed :=
  fun _ _ h => ⟨pending_of_step h, queueOk_of_tail (pending_of_step h)⟩

theorem run_succ_of_step (n : Nat) {s u : State} (h : step s = .next u) :
    Host.Core.run core (n + 1) s = Host.Core.run core n u := by
  have one : core.step s = .next u := h
  simp only [Host.Core.run, one]

/-- A run of `n` steps answers a next state, whose queue has lost its first `n` commands. -/
theorem run_answers (n : Nat) (s : State) : ∃ t, Host.Core.run core n s = .next t ∧ t.pending = s.pending.drop n := by
  induction n generalizing s with
  | zero => exact ⟨s, rfl, rfl⟩
  | succ n ih =>
    obtain ⟨u, hu, first⟩ := step_answers s
    obtain ⟨t, ht, rest⟩ := ih u
    refine ⟨t, ?_, ?_⟩
    · exact (run_succ_of_step n hu).trans ht
    · rw [rest, first, List.drop_tail]

/-- Settles O53, by induction on the number of steps. -/
theorem runsNeverStop : Obligations.RunsNeverStop := by
  intro s
  refine ⟨fun n => ?_, fun n t h => ?_⟩
  · obtain ⟨t, ht, _⟩ := run_answers n s
    exact ⟨t, ht⟩
  · obtain ⟨u, hu, kept⟩ := run_answers n s
    obtain rfl : u = t := Host.Outcome.next.inj (hu.symm.trans h)
    exact kept

end Sys2Proof.Machine
end

