-- ==== Sys2Proof/Proofs/Boot.lean ====
section
/-! SUPPORT. BOOT, by what the seal and the checks say of the image, the state that reset leaves, and the debug state (R394, R395,
R397, R401, R422). -/

namespace Sys2Proof.Machine

open Sys2Proof.Reg

/-! ### BOOT (R394, R395) -/

@[simp] theorem State.raise_fwu (s : State) (f : Field) (i : Nat) : (s.raise f i).fwu = s.fwu := by
  obtain ⟨r, m, h⟩ := s.raise_frame f i; rw [h]

/-- A release trains and samples, and leaves what the NOR holds. -/
theorem State.release_fwu (s : State) : s.release.fwu = s.fwu := by
  unfold State.release State.trainStacks
  simp only [State.setRuns_fwu, State.setFlag_fwu, apply_ite State.fwu, State.raise_fwu, State.setReg_fwu, ite_self]

/-- The part starts at BOOT: no trip holds it, no shelf entry is under way, and it has not started since its release. -/
def State.startsAtBoot (s : State) : Prop :=
  s.top.phase ≠ .tripped ∧ s.top.phase ≠ .shelfEntry ∧ ¬ (s.top.phase = .run ∧ s.top.booted = true)

/-- The released part's image is sealed, and its checks pass (R393, R391). -/
def State.imageStarts (s : State) : Prop :=
  s.release.fwu.isSealed = true ∧ s.release.checkFw s.release.fwu.sealedImage (s.release.fwu.sealUnits * 4096) = 0

section
variable {s : State}

theorem boot_of_tripped_or_booted (h : s.top.phase = .tripped ∨ (s.top.phase = .run ∧ s.top.booted = true)) : s.boot = s :=
  if_pos h

theorem boot_of_startsAtBoot (h : s.startsAtBoot) :
    s.boot = if !s.release.fwu.loaderOk then s.release.recover 2
      else if !s.release.fwu.isSealed ∨ s.release.checkFw s.release.fwu.sealedImage (s.release.fwu.sealUnits * 4096) ≠ 0 then
        s.release.recover 1
      else s.release.startImage s.release.fwu.sealedImage := by
  obtain ⟨trip, entry, booted⟩ := h
  rw [State.boot, if_neg (not_or.mpr ⟨trip, booted⟩), if_neg entry]

theorem boot_of_bad_loader (h : s.startsAtBoot) (hl : s.release.fwu.loaderOk = false) : s.boot = s.release.recover 2 := by
  rw [boot_of_startsAtBoot h, hl]
  rfl

theorem boot_of_bad_image (h : s.startsAtBoot) (hl : s.release.fwu.loaderOk = true) (hi : ¬ s.imageStarts) :
    s.boot = s.release.recover 1 := by
  have bad : (!s.release.fwu.isSealed) = true ∨
      s.release.checkFw s.release.fwu.sealedImage (s.release.fwu.sealUnits * 4096) ≠ 0 := by
    by_cases hseal : s.release.fwu.isSealed = true
    · exact .inr fun ok => hi ⟨hseal, ok⟩
    · exact .inl (by simpa using hseal)
  rw [boot_of_startsAtBoot h, hl, if_pos bad]
  rfl

theorem boot_of_imageStarts (h : s.startsAtBoot) (hl : s.release.fwu.loaderOk = true) (hi : s.imageStarts) :
    s.boot = s.release.startImage s.release.fwu.sealedImage := by
  obtain ⟨hseal, ok⟩ := hi
  rw [boot_of_startsAtBoot h, hl, hseal, ok]
  simp

/-! ### The debug state (R401) -/

theorem unlock_of_unsigned (h : s.dbgSigned = false) : s.unlock = s.newNonce := by
  simp only [State.unlock, h, Bool.not_false, if_true]

theorem unlock_of_signed (h : s.dbgSigned = true) :
    s.unlock = if s.fwu.dbgDisable then s
      else (State.setFlag { s with cph := { s.cph with slots := [] } } FWU_DBG_CMD_UNLOCKED 0 true).raise FWU_EVENT_DBG_UNLOCKED := by
  simp only [State.unlock, h, Bool.not_true, Bool.false_eq_true, if_false]

end

/-- Settles O43: BOOT by the phase, the loader and the image, the debug state by the signature and the fuse. -/
theorem bootAndDebugStateAct : Obligations.BootAndDebugStateAct := by
  intro s leaves
  have boots {u : State} (h : s.boot = u) : leaves u (exec .boot s) :=
    (commandAlwaysIf_next true s State.boot rfl).trans (by rw [h])
  refine ⟨fun h => boots (boot_of_tripped_or_booted h), fun hphase => ?starts, fun ht => ⟨?reset, fun p hm => ?debug⟩⟩
  case starts =>
    intro u v w x y img good
    have starts : s.startsAtBoot := by
      rcases hphase with h | h | h <;> simp [State.startsAtBoot, h]
    exact ⟨rfl, fun hl => boots (boot_of_bad_loader starts hl), fun hl hg => boots (boot_of_bad_image starts hl hg),
      fun hl hg => boots (boot_of_imageStarts starts hl hg)⟩
  case reset => exact commandIf_next true s (·.abandonOwner .jtag) rfl ht
  case debug =>
    have unlocks {u : State} (h : s.unlock = u) : leaves u (exec (.dbgUnlock p) s) :=
      commandIf_path_of_eq State.unlock rfl ht hm h
    exact ⟨fun h => unlocks (unlock_of_unsigned h), fun h hf => unlocks ((unlock_of_signed h).trans (if_pos hf)),
      fun h hf => unlocks ((unlock_of_signed h).trans (if_neg (ne_true_of_eq_false hf))),
      commandIf_path_of_eq State.lock rfl ht hm rfl⟩

/-! ### The state at reset (R422) -/

/-- With nothing listed, every field reads its reset value. -/
theorem reset_reg (f : Field) (i : Nat) : State.reset.reg f i = f.reset i := by
  unfold State.reg
  split <;> rfl

/-- The NOR is empty at reset, so that no image is sealed. -/
theorem reset_not_imageStarts : ¬ State.reset.imageStarts := by
  rintro ⟨hseal, -⟩
  rw [State.release_fwu] at hseal
  exact absurd hseal (by decide)

/-- Settles O54: nothing is listed at reset, and the NOR holds no image that BOOT could start. -/
theorem resetLeavesTheSpecsValues : Obligations.ResetLeavesTheSpecsValues := by
  refine ⟨reset_reg, rfl, rfl, rfl, rfl, rfl, reset_rising, rfl, rfl, rfl, rfl, rfl, rfl, rfl, ?boots⟩
  case boots =>
    have starts : State.reset.startsAtBoot := ⟨by decide, by decide, by decide⟩
    have loader : State.reset.release.fwu.loaderOk = true := congrArg Fwu.loaderOk (State.release_fwu _)
    have recovers : State.reset.boot = State.reset.release.recover 1 := boot_of_bad_image starts loader reset_not_imageStarts
    exact (commandAlwaysIf_next true State.reset State.boot rfl).trans (by rw [recovers])

end Sys2Proof.Machine
end

