-- ==== Sys2Proof/Proofs/Locks.lean ====
section
/-! SUPPORT. Hardware locks: what an acquire finds, whom a release, renew or clean obeys, and what abandons a lock (R325 to R330). -/

namespace Sys2Proof.Machine

open Sys2Proof.Reg

section
variable {s : State} {who : LockOwner} {n gen cause : Nat}

/-- An owner reaches LCK_CMD through the window, or by a path that may write it (R325). -/
theorem viaLock_of_mayWrite {addr : Nat} (f : State → State) (h : ∀ p, who.path = some p → s.mayWrite p addr = true) :
    s.viaLock who addr f = f s := by
  unfold State.viaLock
  cases hp : who.path with
  | none => rfl
  | some p => exact viaWrite_of_mayWrite s p addr f (h p hp)

/-- A lock command of an owner whose path may write LCK_CMD. -/
theorem commandIf_lock_of_eq {ok : Bool} {addr : Nat} {u : State} (f : State → State) (hok : ok = true) (ht : s.takes = true)
    (h : ∀ p, who.path = some p → s.mayWrite p addr = true) (hf : f s = u) :
    commandIf ok s (fun s => s.viaLock who addr f) = .next (u.keepQueue s) :=
  commandIf_of_eq _ hok ht ((viaLock_of_mayWrite f h).trans hf)

/-! ### Acquire (R326) -/

theorem acquireLock_of_held (h : s.reg LCK_LOCK_STATE n = 1) :
    s.acquireLock who n = (s.bump LCK_BUSY 0 (LockOwner.attr who n s)).lockAnswer who 2 (s.reg LCK_LOCK_GEN n)
      (2 * 2 ^ 62 + 2 ^ 56 * s.reg LCK_LOCK_KIND n + 2 ^ 32 * s.reg LCK_LOCK_ID n + s.reg LCK_LOCK_GEN n) :=
  if_pos h

theorem acquireLock_of_not_held (h : s.reg LCK_LOCK_STATE n ≠ 1) :
    let abandoned := s.reg LCK_LOCK_STATE n == 2
    let v := s.grantLock who n abandoned
    s.acquireLock who n = v.lockAnswer who (Bool.nat abandoned) (v.reg LCK_LOCK_GEN n)
      (2 ^ 62 * Bool.nat abandoned + v.reg LCK_LOCK_GEN n) :=
  if_neg h

/-! ### Release, renew and clean (R327) -/

theorem ownsLock_iff : s.ownsLock who n gen = true ↔
    s.reg LCK_LOCK_STATE n = 1 ∧ s.reg LCK_LOCK_KIND n = who.kind ∧ s.reg LCK_LOCK_ID n = who.ident ∧
      s.reg LCK_LOCK_GEN n = gen := by
  simp [State.ownsLock, lockHeld, and_assoc]

theorem ownerAct_of_owner (f : State → State) (h : s.ownsLock who n gen = true) : s.ownerAct who n gen f = f s :=
  if_pos h

theorem ownerAct_of_stale (f : State → State) (h : ¬ s.ownsLock who n gen = true) :
    s.ownerAct who n gen f = (s.bump LCK_STALE 0 (LockOwner.attr who n s)).raise LCK_EVENT_STALE :=
  if_neg h

/-! ### Force and the lease (R328 to R330) -/

theorem forceLock_of_bureau : s.forceLock .bureau n = s.abandonLock n 3 :=
  if_pos rfl

theorem forceLock_of_other {p : Path} (h : p ≠ .bureau) : s.forceLock p n = s.logErr 5 p (lockCmdAddr n) :=
  if_neg h

theorem expireLease_of_due (hs : s.reg LCK_LOCK_STATE n = 1) (hl : s.reg LCK_LOCK_LEASE n ≠ 0)
    (hd : s.reg LCK_LOCK_LEASE n ≤ s.reg LCK_LOCK_HELD n) :
    s.expireLease n = (s.abandonLock n 2).raise LCK_EVENT_LEASE :=
  if_pos ⟨hs, hl, hd⟩

/-- What an abandoned lock leaves (R328). -/
theorem abandonLock_of_held (h : s.reg LCK_LOCK_STATE n = 1) :
    let u := ((((s.setReg LCK_LOCK_STATE n 2).setReg LCK_LOCK_KIND n 0).setReg LCK_LOCK_ID n 0).bump LCK_ABANDONS).raise
      LCK_EVENT_ABANDONED
    s.abandonLock n cause = u.record 0x71 1 bLCK ([b8 n, b8 cause, b8 (s.reg LCK_LOCK_KIND n), 0] ++
      leBytes 4 (s.reg LCK_LOCK_ID n) ++ leBytes 4 (u.reg LCK_LOCK_GEN n)) :=
  if_pos h

end

/-- Settles O35: acquire by the lock's state, release, renew and clean by its owner, force by its path. -/
theorem locksFollowTheirOwners : Obligations.LocksFollowTheirOwners := by
  intro s who n gen ht hwho hn hgen hmay leaves st answered owns stale
  have hanswered : answered = fun u outcome gen word => u.lockAnswer who outcome gen word := rfl
  clear_value answered
  subst hanswered
  have hlock : (who.wf && decide (n < 256)) = true := by simp [hwho, hn]
  have hown : (who.wf && decide (n < 256) && decide (gen < 2 ^ 24)) = true := by
    rw [hlock, decide_eq_true hgen, Bool.true_and]
  have owner {f : State → State} (h : owns) : s.ownerAct who n gen f = f s := ownerAct_of_owner f (ownsLock_iff.mpr h)
  have other {f : State → State} (h : ¬ owns) : s.ownerAct who n gen f = stale := ownerAct_of_stale f (mt ownsLock_iff.mp h)
  refine ⟨fun h => ?busy, fun h => ?granted, fun h => ?release, fun h => ?renew, fun h => ?clean, fun h => ⟨?staleRelease, ?staleRenew,
    ?staleClean⟩, ?read, fun p hp => ⟨?force, ?refused⟩, fun hs hl hd => ?expires, fun h cause => abandonLock_of_held h⟩
  case busy => exact commandIf_lock_of_eq (·.acquireLock who n) hlock ht hmay (acquireLock_of_held h)
  case granted =>
    intro abandoned u v gen
    exact commandIf_lock_of_eq (·.acquireLock who n) hlock ht hmay (acquireLock_of_not_held h)
  case release => exact commandIf_lock_of_eq (·.releaseLock who n gen) hown ht hmay (owner h)
  case renew => exact commandIf_lock_of_eq (·.renewLock who n gen) hown ht hmay (owner h)
  case clean => exact commandIf_lock_of_eq (·.cleanLock who n gen) hown ht hmay (owner h)
  case staleRelease => exact commandIf_lock_of_eq (·.releaseLock who n gen) hown ht hmay (other h)
  case staleRenew => exact commandIf_lock_of_eq (·.renewLock who n gen) hown ht hmay (other h)
  case staleClean => exact commandIf_lock_of_eq (·.cleanLock who n gen) hown ht hmay (other h)
  case read =>
    exact command_next (.lockStateRead who n) s
      (fun s => { s with out := { s.out with lockResult := SMap.put who.kind (s.lockWord n) s.out.lockResult } }) hlock ht
  case force =>
    rintro rfl
    exact commandIf_path_of_eq (·.forceLock .bureau n) (decide_eq_true hn) ht hp forceLock_of_bureau
  case refused => exact fun h => commandIf_path_of_eq (·.forceLock p n) (decide_eq_true hn) ht hp (forceLock_of_other h)
  case expires => exact commandIf_of_eq (·.expireLease n) (decide_eq_true hn) ht (expireLease_of_due hs hl hd)

end Sys2Proof.Machine
end

