-- ==== Sys2Proof/Proofs/Drawers.lean ====
section
/-! SUPPORT. Drawers: what each command of DRV_CMD and each event does in the states that it acts in (R295, R297, R300, R301, R304,
R309, R312). -/

namespace Sys2Proof.Machine

open Sys2Proof.Reg

section
variable {s : State} {d : Nat}

/-! ### DRV_CMD (R300, R301, R312) -/

theorem drvResult_done : s.drvResult d 0 = s.setReg DRV_CMD_RESULT_RESULT d 0 := rfl

theorem drvResult_refused {result : Nat} (h : result ≠ 0) :
    s.drvResult d result = (s.setReg DRV_CMD_RESULT_RESULT d result).raise DRV_EVENT_CMD_REFUSED d :=
  if_neg h

theorem drvPowerOn_of_off (h : s.reg DRV_STATE_STATE d = 7) : s.drvPowerOn d = (s.powerUp d).drvResult d 0 :=
  if_pos h

theorem drvPowerOn_of_other (h : s.reg DRV_STATE_STATE d ≠ 7) : s.drvPowerOn d = s.drvResult d 1 :=
  if_neg h

theorem drvPowerOff_of_inUse (h : s.inUse d = true) : s.drvPowerOff d = s.drvResult d 2 :=
  if_pos h

theorem drvPowerOff_of_other (hu : s.inUse d = false) (hoff : s.reg DRV_STATE_STATE d ≠ 7) (hfailed : s.reg DRV_STATE_STATE d ≠ 6)
    (hready : s.reg DRV_STATE_STATE d ≠ 4) : s.drvPowerOff d = s.drvResult d 1 :=
  (if_neg (ne_true_of_eq_false hu)).trans (if_pos ⟨hoff, hfailed, hready⟩)

/-- A Drawer's slot is off, PERST_N asserted (R300). -/
def State.drawerTurnedOff (s : State) (d : Nat) : State :=
  (((s.setPerst d false).setTimer d 0).slotOff d).enterDrawer d 7

theorem drvPowerOff_of_idle (hu : s.inUse d = false) (h : s.reg DRV_STATE_STATE d = 7 ∨ s.reg DRV_STATE_STATE d = 6) :
    s.drvPowerOff d = (s.drawerTurnedOff d).drvResult d 0 := by
  have acts : ¬ (s.reg DRV_STATE_STATE d ≠ 7 ∧ s.reg DRV_STATE_STATE d ≠ 6 ∧ s.reg DRV_STATE_STATE d ≠ 4) := by omega
  have idle : s.reg DRV_STATE_STATE d ≠ 4 := by omega
  exact (if_neg (ne_true_of_eq_false hu)).trans ((if_neg acts).trans (congrArg (State.drvResult · d 0) (if_neg idle)))

/-- What a READY Drawer holds ends with it (R310). -/
theorem drvPowerOff_of_ready (hu : s.inUse d = false) (h : s.reg DRV_STATE_STATE d = 4) :
    s.drvPowerOff d = ((s.drawerTurnedOff d).endHeld d).drvResult d 0 := by
  have acts : ¬ (s.reg DRV_STATE_STATE d ≠ 7 ∧ s.reg DRV_STATE_STATE d ≠ 6 ∧ s.reg DRV_STATE_STATE d ≠ 4) := by omega
  exact (if_neg (ne_true_of_eq_false hu)).trans ((if_neg acts).trans (congrArg (State.drvResult · d 0) (if_pos h)))

theorem drvReset_of_ready (h : s.reg DRV_STATE_STATE d = 4) : s.drvReset d = (s.resetDrawer d).drvResult d 0 :=
  if_pos h

theorem drvReset_of_other (h : s.reg DRV_STATE_STATE d ≠ 4) : s.drvReset d = s.drvResult d 1 :=
  if_neg h

theorem drvReadmit_of_failed (h : s.reg DRV_STATE_STATE d = 6) :
    s.drvReadmit d = ((s.setPerst d false).setTimer d 6).drvResult d 0 :=
  if_pos h

theorem drvReadmit_of_other (h : s.reg DRV_STATE_STATE d ≠ 6) : s.drvReadmit d = s.drvResult d 1 :=
  if_neg h

/-! ### Presence (R300) -/

theorem debounced_of_empty (hr : s.runs bDRV = true) (h : s.reg DRV_STATE_STATE d = 0) :
    let u := (s.updDrawer d fun w => { w with present := true, timer := 0 }).setFlag DRV_STATE_PRESENT d true
    s.debounced d = if u.flag DRV_CFG_HP_AUTO d then u.powerUp d else u.enterDrawer d 7 :=
  if_pos ⟨hr, h⟩

/-- A drive that has gone: it is not present, and what it stored is gone. -/
def State.drawerEmptied (s : State) (d : Nat) : State :=
  let u := s.updDrawer d fun w => { w with present := false, timer := 0 }
  { u with ldg := { u.ldg with media := SMap.del d u.ldg.media } }

/-- A Drawer that was not EMPTY enters it, PERST_N asserted and its slot off. -/
def State.drawerRemoved (s : State) (d : Nat) : State :=
  (((((s.drawerEmptied d).setFlag DRV_STATE_PRESENT d false).setPerst d false).slotOff d).enterDrawer d 0).raise DRV_EVENT_REMOVED d

theorem presenceGone_of_empty (h : s.reg DRV_STATE_STATE d = 0) : s.presenceGone d = s.drawerEmptied d :=
  if_pos h

theorem presenceGone_of_serving (h : s.reg DRV_STATE_STATE d = 4 ∨ s.reg DRV_STATE_STATE d = 5) :
    s.presenceGone d = (s.drawerRemoved d).driveGone d := by
  have full : s.reg DRV_STATE_STATE d ≠ 0 := by omega
  exact (if_neg full).trans (if_pos h)

theorem presenceGone_of_other (full : s.reg DRV_STATE_STATE d ≠ 0) (hready : s.reg DRV_STATE_STATE d ≠ 4)
    (hreset : s.reg DRV_STATE_STATE d ≠ 5) :
    s.presenceGone d = (s.drawerRemoved d).updDrawer d fun w => { w with adminOut := false } :=
  (if_neg full).trans (if_neg (not_or.mpr ⟨hready, hreset⟩))

/-! ### Power, training and admission (R297, R300) -/

theorem perstDelayEnd_of_powered (h : s.reg DRV_STATE_STATE d = 1) (hp : s.flag DRV_STATE_PG d = true) :
    s.perstDelayEnd d = ((s.setPerst d true).setTimer d 3).enterDrawer d 2 :=
  if_pos ⟨h, hp⟩

theorem perstAsserted_of_readmitted (h : s.reg DRV_STATE_STATE d = 6) (ht : (s.drawer d).timer = 6) :
    s.perstAsserted d = ((s.setPerst d true).setTimer d 3).enterDrawer d 2 :=
  if_pos ⟨h, ht⟩

theorem linkActive_of_training {width speed : Nat} {flit : Bool} (h : s.reg DRV_STATE_STATE d = 2) :
    let u := ((s.setReg DRV_STATE_WIDTH d width).setReg DRV_STATE_SPEED d speed).setFlag DRV_STATE_FLIT d flit
    s.linkActive d width speed flit = (if width < 2 then u.raise DRV_EVENT_WIDTH d else u).setTimer d 4 :=
  if_pos h

theorem initStart_of_trained (h : s.reg DRV_STATE_STATE d = 2) (ht : (s.drawer d).timer = 4) :
    s.initStart d =
      (s.updDrawer d fun w => { w with timer := 5, adminOut := true, adminSince := s.rtu.cycle }).enterDrawer d 3 :=
  if_pos ⟨h, ht⟩

theorem trainTimeout_of_training (h : s.reg DRV_STATE_STATE d = 2) (ht : (s.drawer d).timer = 3) :
    s.trainTimeout d = s.failDrawer d 1 :=
  if_pos ⟨h, ht⟩

theorem admitDrive_of_init {v : DriveFacts} (h : s.reg DRV_STATE_STATE d = 3) :
    s.admitDrive d v = match s.admission d v with
      | some r => s.failDrawer d r
      | none => (s.keepFacts d v).enterReady d :=
  if_neg (Classical.not_not.mpr h)

theorem admitDrive_of_refused {v : DriveFacts} {reason : Nat} (h : s.reg DRV_STATE_STATE d = 3)
    (ha : s.admission d v = some reason) : s.admitDrive d v = s.failDrawer d reason := by
  rw [admitDrive_of_init h, ha]

theorem admitDrive_of_admitted {v : DriveFacts} (h : s.reg DRV_STATE_STATE d = 3) (ha : s.admission d v = none) :
    s.admitDrive d v = (s.keepFacts d v).enterReady d := by
  rw [admitDrive_of_init h, ha]

/-! ### Failures and messages (R300, R304, R309) -/

theorem linkDown_of_linked {cfs : Bool} (hlow : 2 ≤ s.reg DRV_STATE_STATE d) (hhigh : s.reg DRV_STATE_STATE d ≤ 5) :
    s.linkDown d cfs = s.failDrawer d (if cfs then 3 else 11) :=
  if_pos ⟨hlow, hhigh⟩

theorem resetDone_of_reset (ok : Bool) (h : s.reg DRV_STATE_STATE d = 5) :
    s.resetDone d ok = if !ok then s.failDrawer d 3 else (s.accountAll d).enterReady d :=
  if_neg (Classical.not_not.mpr h)

theorem readyTimeout_of_starting (h : s.reg DRV_STATE_STATE d = 3 ∨ s.reg DRV_STATE_STATE d = 5) :
    s.readyTimeout d = s.failDrawer d 3 :=
  if_pos h

theorem driveWarning_of_kept {warning : Nat} (h : (s.setReg DRV_WARN_CW d warning).reg DRV_WARN_CW d ≠ 0) :
    let u := s.setReg DRV_WARN_CW d warning
    let v := (u.raise DRV_EVENT_WARNING d).drawerRecord d (u.dState d) (u.dState d) 3
    s.driveWarning d warning = if bitsOf warning 2 3 ≠ 0 then (v.losePosition d).pumpAll else v :=
  if_neg h

theorem cqDoorbell_of_new {sq : Nat} (h : SMap.get 0 (s.drawer d).cqNew sq ≠ 0) :
    s.cqDoorbell d sq =
      (s.ring d (16 + sq) (SMap.get 0 (s.drawer d).cqHead sq)).updDrawer d fun w => { w with cqNew := SMap.del sq w.cqNew } :=
  if_neg h

end

/-- Settles O31: each OP by the Drawer's state, and power-off by whether the Drawer is in use. -/
theorem drawerCommandsFollowTheirChecks : Obligations.DrawerCommandsFollowTheirChecks := by
  intro s p d ht hd hm leaves st done refused
  have hok : decide (d < 48) = true := decide_eq_true hd
  have on {u : State} (h : s.drvPowerOn d = u) : leaves u (exec (.drawerPowerOn p d) s) :=
    commandIf_path_of_eq (·.drvPowerOn d) hok ht hm h
  have off {u : State} (h : s.drvPowerOff d = u) : leaves u.settle (exec (.drawerPowerOff p d) s) :=
    commandIf_path_of_eq (fun s => (s.drvPowerOff d).settle) hok ht hm (congrArg State.settle h)
  have reset {u : State} (h : s.drvReset d = u) : leaves u.settle (exec (.drawerControllerReset p d) s) :=
    commandIf_path_of_eq (fun s => (s.drvReset d).settle) hok ht hm (congrArg State.settle h)
  have readmit {u : State} (h : s.drvReadmit d = u) : leaves u (exec (.drawerReadmit p d) s) :=
    commandIf_path_of_eq (·.drvReadmit d) hok ht hm h
  have wrongState : s.drvResult d 1 = refused 1 := drvResult_refused (by decide)
  have wrongUse : s.drvResult d 2 = refused 2 := drvResult_refused (by decide)
  clear_value refused
  refine ⟨fun h => ?powersOn, fun h => ?notOff, fun hu => ?used, fun hu hoff hfailed hready => ?notIdle, fun hu h => ?idle,
    fun hu h => ?ready, fun h => ?resets, fun h => ?notReady, fun h => ?readmits, fun h => ?notFailed⟩
  case powersOn => exact on ((drvPowerOn_of_off h).trans drvResult_done)
  case notOff => exact on ((drvPowerOn_of_other h).trans wrongState)
  case used => exact off ((drvPowerOff_of_inUse hu).trans wrongUse)
  case notIdle => exact off ((drvPowerOff_of_other hu hoff hfailed hready).trans wrongState)
  case idle => exact off ((drvPowerOff_of_idle hu h).trans drvResult_done)
  case ready => exact off ((drvPowerOff_of_ready hu h).trans drvResult_done)
  case resets => exact reset ((drvReset_of_ready h).trans drvResult_done)
  case notReady => exact reset ((drvReset_of_other h).trans wrongState)
  case readmits => exact readmit ((drvReadmit_of_failed h).trans drvResult_done)
  case notFailed => exact readmit ((drvReadmit_of_other h).trans wrongState)

/-- Settles O32: each event by the Drawer's state, admission by its first check that fails. -/
theorem drawersPowerTrainAndAreAdmitted : Obligations.DrawersPowerTrainAndAreAdmitted := by
  intro s d ht hd leaves st timer seen
  have hok : decide (d < 48) = true := decide_eq_true hd
  refine ⟨?seen, ?debounced, ⟨?emptied, ?serving, ?removed⟩, ?powered, ?readmitted, ?active, ?trained, ?untrained, ?refused,
    ?admitted, ?linkDown, ?resetEnds, ?resetFails, ?unready, ?warning, ?aer, ?doorbell⟩
  case seen => exact commandIf_next _ s (·.presenceSeen d) hok ht
  case debounced => exact fun hr h => commandIf_of_eq (·.debounced d) hok ht (debounced_of_empty hr h)
  case emptied => exact fun h => commandIf_of_eq (fun s => (s.presenceGone d).settle) hok ht (congrArg State.settle (presenceGone_of_empty h))
  case serving => exact fun h => commandIf_of_eq (fun s => (s.presenceGone d).settle) hok ht (congrArg State.settle (presenceGone_of_serving h))
  case removed =>
    exact fun full hready hreset => commandIf_of_eq (fun s => (s.presenceGone d).settle) hok ht
      (congrArg State.settle (presenceGone_of_other full hready hreset))
  case powered => exact fun h hp => commandIf_of_eq (·.perstDelayEnd d) hok ht (perstDelayEnd_of_powered h hp)
  case readmitted => exact fun h htimer => commandIf_of_eq (·.perstAsserted d) hok ht (perstAsserted_of_readmitted h htimer)
  case active =>
    intro width speed flit hwidth hspeed h
    exact commandIf_of_eq (·.linkActive d width speed flit) (by simp [Instr.wellFormed, hd, hwidth, hspeed]) ht (linkActive_of_training h)
  case trained => exact fun h htimer => commandIf_of_eq (·.initStart d) hok ht (initStart_of_trained h htimer)
  case untrained => exact fun h htimer => commandIf_of_eq (·.trainTimeout d) hok ht (trainTimeout_of_training h htimer)
  case refused =>
    exact fun v reason h ha => commandIf_of_eq (fun s => (s.admitDrive d v).settle) hok ht
      (congrArg State.settle (admitDrive_of_refused h ha))
  case admitted =>
    exact fun v h ha => commandIf_of_eq (fun s => (s.admitDrive d v).settle) hok ht
      (congrArg State.settle (admitDrive_of_admitted h ha))
  case linkDown =>
    exact fun cfs hlow hhigh => commandIf_of_eq (fun s => (s.linkDown d cfs).settle) hok ht
      (congrArg State.settle (linkDown_of_linked hlow hhigh))
  case resetEnds =>
    exact fun h => commandIf_of_eq (fun s => (s.resetDone d true).settle) hok ht (congrArg State.settle (resetDone_of_reset true h))
  case resetFails =>
    exact fun h => commandIf_of_eq (fun s => (s.resetDone d false).settle) hok ht (congrArg State.settle (resetDone_of_reset false h))
  case unready =>
    exact fun h => commandIf_of_eq (fun s => (s.readyTimeout d).settle) hok ht (congrArg State.settle (readyTimeout_of_starting h))
  case warning =>
    intro warning hwarning u v hu
    exact commandIf_of_eq (fun s => (s.driveWarning d warning).settle) (by simp [Instr.wellFormed, hd, hwarning]) ht
      (congrArg State.settle (driveWarning_of_kept hu))
  case aer => exact fun unc cor hdr => commandIf_next _ s (fun s => s.record 0x51 2 bDRV (aerBody d unc cor hdr)) hok ht
  case doorbell =>
    exact fun sq hsq h => commandIf_of_eq (·.cqDoorbell d sq) (by simp [hd, hsq]) ht (cqDoorbell_of_new h)

end Sys2Proof.Machine
end

