-- ==== Sys2Proof/Proofs/Recorder.lean ====
section
/-! SUPPORT. The event recorder: flushes, the Bureau's records, the reading window and the extents that drives commit (R307, R408,
R409, R410, R419). -/

namespace Sys2Proof.Machine

open Sys2Proof.Reg

section
variable {s : State} {p : Path} {d : Nat}

/-- A read on a path that may read: JTAG with debug unlocked, and the block's bit set for the path (R56). -/
theorem viaRead_of_allowed {addr : Nat} (f : State → State) (hj : p = .jtag → s.flag FWU_DBG_CMD_UNLOCKED = true)
    (ha : s.pathAllows p false ((blockOf addr).getD 0) = true) : s.viaRead p addr f = f s := by
  have unlocked : ¬ (p = .jtag ∧ (!s.flag FWU_DBG_CMD_UNLOCKED) = true) := fun ⟨hp, hu⟩ => by simp [hj hp] at hu
  rw [State.viaRead, if_neg unlocked, if_neg (by simp [ha])]

/-! ### Flushes (R409, R410) -/

theorem startFlush_of_flushing {cause : Nat} (h : s.evr.flushing = true) :
    s.startFlush cause = { s with evr := { s.evr with flushAgain := some (s.evr.flushAgain.getD cause) } } :=
  if_pos h

theorem startFlush_of_idle {cause : Nat} (h : s.evr.flushing = false) :
    s.startFlush cause = State.setFlag { s with evr := { s.evr with
      flushing := true, flushCause := cause, flushNs := s.ns, range := s.evr.unflushed.map (·.seq) } } EVR_STATUS_FLUSHING 0 true :=
  if_neg (ne_true_of_eq_false h)

theorem extentCommitted_of_nil {ok : Bool} (h : SMap.get [] s.evr.queues d = []) : s.extentCommitted d ok = s.planFlush := by
  simp only [State.extentCommitted, h]

/-- The extent at the head of a drive's queue is committed, or the drive is lost (R307, R410). -/
theorem extentCommitted_of_cons {ok : Bool} {x : Extent} {rest : List Extent} (h : SMap.get [] s.evr.queues d = x :: rest) :
    s.extentCommitted d ok =
      (if ok then s.extentDone d x rest else s.extentFails d (x :: rest)).planFlush.endFlush.stageExtents := by
  simp only [State.extentCommitted, h]

/-! ### The Bureau's records (R419) -/

theorem post_of_other (h : p ≠ .bureau) : s.post p = s.logErr 5 p EVR_POST_GO.addr :=
  if_pos h

theorem post_of_low_type (h : s.reg EVR_POST_TYPE < 0xC0) : s.post .bureau = s :=
  (if_neg (by simp)).trans (if_pos h)

theorem post_of_type (h : 0xC0 ≤ s.reg EVR_POST_TYPE) :
    s.post .bureau = s.record (s.reg EVR_POST_TYPE) (s.reg EVR_POST_SEVERITY) 0 s.postBody :=
  (if_neg (by simp)).trans (if_neg (Nat.not_lt.mpr h))

/-! ### The reading window (R408) -/

/-- The page that a read of the window sees: built from the cursor where there is none. -/
def State.windowPage (s : State) (p : Path) : Cursor :=
  if (s.pathCursor p).page.isNone then s.buildPage (s.pathCursor p) else s.pathCursor p

/-- A read of the window answers its word; the read of the page's last word moves the cursor behind the page. -/
theorem windowRead_eq (idx : Nat) :
    let c := s.windowPage p
    let len := (c.page.getD []).length
    s.windowRead p idx = (s.answerRead p [leNat (((c.page.getD []).drop (4 * idx)).take 4)]).setPathCursor p
      (if 0 < len ∧ (len - 1) / 4 = idx then { c with cur := (c.lastSeq + 1) % 2 ^ 32, page := none, count := 0 } else c) :=
  (apply_ite (State.setPathCursor _ p) _ _ _).symm

end

/-- Settles O44: a flush by the one that runs, a record by its path and type, an extent by the drive's queue. -/
theorem recorderCommandsAct : Obligations.RecorderCommandsAct := by
  intro s ht leaves
  refine ⟨fun p hm => ?flush, fun p hm => ?posts, fun p seq hm => ?cursor, fun p hm => ?clears, fun p idx hidx hj ha => ?window,
    fun d ok hd hq => ?nothing, fun d x rest hd hq => ?extent⟩
  case flush =>
    exact ⟨fun h => commandIf_path_of_eq (·.startFlush 3) rfl ht hm (startFlush_of_flushing h),
      fun h => commandIf_path_of_eq (·.startFlush 3) rfl ht hm (startFlush_of_idle h)⟩
  case posts =>
    have posts {u : State} (h : s.post p = u) : leaves u (exec (.evrPost p) s) := commandIf_path_of_eq (·.post p) rfl ht hm h
    refine ⟨fun h => posts (post_of_other h), ?_, ?_⟩
    · rintro rfl h
      exact posts (post_of_low_type h)
    · rintro rfl h
      exact posts (post_of_type h)
  case cursor => exact commandIf_path true s p EVR_CUR_SEQ.addr (·.moveCursor p seq) rfl ht hm
  case clears => exact commandIf_path true s p PMC_CMD_OP.addr State.pmcClear rfl ht hm
  case window =>
    exact commandIf_of_eq (fun s => s.viaRead p (EVR_WINDOW_DATA.addr + 4 * idx) (·.windowRead p idx)) (decide_eq_true hidx) ht
      ((viaRead_of_allowed (·.windowRead p idx) hj ha).trans (windowRead_eq idx))
  case nothing =>
    exact commandIf_of_eq (fun s => (s.extentCommitted d ok).settle) (decide_eq_true hd) ht
      (congrArg State.settle (extentCommitted_of_nil hq))
  case extent =>
    have ends (ok : Bool) := commandIf_of_eq (fun s => (s.extentCommitted d ok).settle) (decide_eq_true hd) ht
      (congrArg State.settle (extentCommitted_of_cons (ok := ok) hq))
    exact ⟨ends true, ends false⟩

end Sys2Proof.Machine
end

