-- ==== Sys2Proof/Proofs/Endpoint.lean ====
section
/-! SUPPORT. The management endpoint: its link and resets, and its vectors, copies and translations (R378 to R384, R388). -/

namespace Sys2Proof.Machine

open Sys2Proof.Reg

section
variable {s : State} {ch : Nat}

/-! ### The link and the function's resets (R378, R381, R383, R388) -/

/-- MEP_PERST_N: an FLR starts, a link that is up leaves DL_Active, and requests are retried until CFG_READY (R378). -/
theorem mepPerst_eq :
    let u := if s.flag MEP_LINK_UP then s.flrStart.mepLinkLeaves else s.flrStart
    let v := (u.setFlag MEP_CTRL_CFG_READY 0 false).setRuns bMEP false
    s.mepPerst = { v with mep := { v.mep with perst := true } } := by
  intro u v
  have kept : v.mep = u.mep := (State.setRuns_mep ..).trans (State.setFlag_mep ..)
  rw [kept]
  rfl

theorem flrDone_of_running (h : s.mep.flr = true) :
    let u := (s.resetFunction.bumpBy MEP_INVALS 0 s.mep.invals.length {}).abandonOwner .bar0
    s.flrDone = (State.setFlag { u with mep := { u.mep with flr := false } } MEP_LINK_FLR 0 false).raise MEP_EVENT_FLR :=
  if_pos h

theorem flrDone_of_idle (h : s.mep.flr = false) : s.flrDone = s :=
  if_neg (ne_true_of_eq_false h)

theorem enterL1_of_idle (hup : s.flag MEP_LINK_UP = true) (hdma : s.mep.dma = []) (hw : s.msixWaits = false) :
    s.enterL1 = s.setFlag MEP_LINK_L1 0 true :=
  if_pos ⟨hup, hdma, by simp [hw]⟩

/-! ### Copies (R383) -/

theorem dmaBusy_of_busy (h : s.reg MEP_DMA_STATUS ch = 1) : s.dmaBusy ch = true :=
  beq_iff_eq.mpr h

theorem dmaBusy_of_not_busy (h : s.reg MEP_DMA_STATUS ch ≠ 1) : s.dmaBusy ch = false :=
  beq_eq_false_iff_ne.mpr h

/-- The copy that a channel's registers and a write of its control word ask for. -/
def State.dmaAsked (s : State) (ch ctl : Nat) : Dma :=
  { toHost := ctl.testBit 1, host := s.reg MEP_DMA_HOST ch, sbd := s.reg MEP_DMA_SBD ch,
    len := s.reg MEP_DMA_LEN ch, ats := ctl.testBit 2 && s.mep.atsOn }

section
variable {ctl : Nat}

theorem dmaStart_of_not_go (h : ctl.testBit 0 = false ∨ s.reg MEP_DMA_STATUS ch = 1) : s.dmaStart ch ctl = s :=
  if_pos (h.imp (fun hgo => by simp [bitOf, hgo]) dmaBusy_of_busy)

variable (hgo : ctl.testBit 0 = true) (hidle : s.reg MEP_DMA_STATUS ch ≠ 1)
include hgo hidle

/-- GO on an idle channel: aborted without Bus Master Enable, ended on illegal settings, else started. -/
theorem dmaStart_of_go :
    let x := s.dmaAsked ch ctl
    let u := s.setReg MEP_DMA_STATUS ch 1
    let v := State.setFlag { u with mep := { u.mep with dma := SMap.put ch x u.mep.dma } } MEP_LINK_L1 0 false
    s.dmaStart ch ctl = if !s.flag MEP_LINK_BME then s.dmaAbort ch else if !x.legal then s.setReg MEP_DMA_STATUS ch 3
      else if x.ats then x.pages.foldl State.translate v else v := by
  intro x u v
  have goes : ¬ ((!bitOf ctl 0) = true ∨ s.dmaBusy ch = true) := by
    rw [dmaBusy_of_not_busy hidle]
    simp [bitOf, hgo]
  have kept : u.mep = s.mep := State.setReg_mep ..
  have started : v = State.setFlag { u with mep := { s.mep with dma := SMap.put ch x s.mep.dma } } MEP_LINK_L1 0 false := by
    rw [← kept]
  rw [started]
  exact if_neg goes

theorem dmaStart_of_no_bme (hb : s.flag MEP_LINK_BME = false) :
    s.dmaStart ch ctl = (s.setReg MEP_DMA_STATUS ch 2).raise MEP_EVENT_DMA_ABORT :=
  (dmaStart_of_go hgo hidle).trans (if_pos (by rw [hb]; rfl))

variable (hb : s.flag MEP_LINK_BME = true)
include hb

theorem dmaStart_of_illegal (hl : (s.dmaAsked ch ctl).legal = false) : s.dmaStart ch ctl = s.setReg MEP_DMA_STATUS ch 3 :=
  (dmaStart_of_go hgo hidle).trans ((if_neg (by simp [hb])).trans (if_pos (by rw [hl]; rfl)))

theorem dmaStart_of_legal (hl : (s.dmaAsked ch ctl).legal = true) :
    let x := s.dmaAsked ch ctl
    let u := s.setReg MEP_DMA_STATUS ch 1
    let v := State.setFlag { u with mep := { u.mep with dma := SMap.put ch x u.mep.dma } } MEP_LINK_L1 0 false
    s.dmaStart ch ctl = if x.ats then x.pages.foldl State.translate v else v :=
  (dmaStart_of_go hgo hidle).trans ((if_neg (by simp [hb])).trans (if_neg (by simp [hl])))

end

/-- The channel's copy is over. -/
def State.dmaOver (s : State) (ch : Nat) : State :=
  { s with mep := { s.mep with dma := SMap.del ch s.mep.dma } }

section
variable {x : Dma} {ok : Bool} {data : List Byte} (hx : SMap.find s.mep.dma ch = some x)
include hx

/-- The completions of an aborted copy: a read's are discarded and counted. -/
theorem dmaDone_of_aborted (h : s.reg MEP_DMA_STATUS ch ≠ 1) :
    s.dmaDone ch ok data = State.answerInvals (if x.toHost then s.dmaOver ch
      else (s.dmaOver ch).bumpBy MEP_DISCARDED 0 ((4095 + data.length) / 4096) {}) := by
  simp only [State.dmaDone, hx, dmaBusy_of_not_busy h, Bool.not_false, if_true]
  rfl

variable (h : s.reg MEP_DMA_STATUS ch = 1)
include h

theorem dmaDone_of_failed : s.dmaDone ch false data = ((s.dmaOver ch).setReg MEP_DMA_STATUS ch 3).answerInvals := by
  simp only [State.dmaDone, hx, dmaBusy_of_busy h, Bool.not_true, Bool.not_false, Bool.false_eq_true, if_false, if_true]
  rfl

theorem dmaDone_to_host (ht : x.toHost = true) :
    s.dmaDone ch true data = State.answerInvals
      { (s.dmaOver ch).setReg MEP_DMA_STATUS ch 0 with mep := { (s.dmaOver ch).mep with hostMem := s.dmaBytes x } } := by
  simp only [State.dmaDone, hx, dmaBusy_of_busy h, ht, Bool.not_true, Bool.false_eq_true, if_false, if_true]
  rfl

theorem dmaDone_to_hostArea (ht : x.toHost = false) (ha : x.inHostArea = true) :
    s.dmaDone ch true data = (((s.dmaOver ch).sbWrite x.sbd ((data ++ List.replicate x.len 0).take x.len)).setReg
      MEP_DMA_STATUS ch 0).answerInvals := by
  simp only [State.dmaDone, hx, dmaBusy_of_busy h, ht, ha, Bool.not_true, Bool.false_eq_true, if_false, if_true]
  rfl

theorem dmaDone_outside (ht : x.toHost = false) (ha : x.inHostArea = false) :
    s.dmaDone ch true data = ((s.dmaOver ch).setReg MEP_DMA_STATUS ch 3).answerInvals := by
  simp only [State.dmaDone, hx, dmaBusy_of_busy h, ht, ha, Bool.not_true, Bool.false_eq_true, if_false]
  rfl

end

end

/-- Settles O40, by the link that is up or down and the FLR that runs or does not. -/
theorem endpointLinkAndResetsAct : Obligations.EndpointLinkAndResetsAct := by
  intro s ht leaves bmeOff flr
  refine ⟨?bmeClear, ?flrStart, ?perst, fun p hm => ?ready, ?bmeSet, fun h => ?flrDone, fun h => ?noFlr, fun d3 => ?power, ?linkDown,
    fun width top hw => ?linkUp, fun hup hdma hw => ?l1, fun unc cor hdr => ?aer⟩
  case bmeClear => exact command_next .bmeClear s State.bmeClear rfl ht
  case flrStart => exact command_next .functionLevelReset s State.flrStart rfl ht
  case perst => exact commandIf_of_eq State.mepPerst rfl ht mepPerst_eq
  case ready => exact commandIf_path true s p MEP_CTRL_CFG_READY.addr State.setCfgReady rfl ht hm
  case bmeSet => exact command_next .bmeSet s (fun s => (s.setFlag MEP_LINK_BME 0 true).sendPending) rfl ht
  case flrDone => exact commandIf_of_eq State.flrDone rfl ht (flrDone_of_running h)
  case noFlr => exact commandIf_of_eq State.flrDone rfl ht (flrDone_of_idle h)
  case power =>
    exact commandIf_next true s (fun s => State.sendPending { s with mep := { s.mep with d3 := d3 } }) rfl ht
  case linkDown => exact command_next .mepLinkDown s State.mepLinkLeaves rfl ht
  case linkUp => exact commandIf_next _ s (·.mepLinkUp width top) (decide_eq_true hw) ht
  case l1 => exact commandIf_of_eq State.enterL1 rfl ht (enterL1_of_idle hup hdma hw)
  case aer => exact commandIf_next true s (·.endpointAer unc cor hdr) rfl ht

/-- Settles O41: a start by GO, Bus Master Enable and the settings, an end by the channel's status and the copy's direction. -/
theorem vectorsAndCopiesAct : Obligations.VectorsAndCopiesAct := by
  intro s ht leaves
  refine ⟨fun p mask hm => ?ack, fun p v hv hm => ?unmask, ?enable, fun p ch ctl hch hctl hm => ?start,
    fun ch x data hch hx => ?ends, fun addr size tag => ?invalidate, ?disable⟩
  case ack => exact commandIf_path true s p MEP_VEC_ACK_ACK.addr (·.ackVectors mask) rfl ht hm
  case unmask => exact commandIf_path _ s p _ (·.setMsixMask v false) (decide_eq_true hv) ht hm
  case enable => exact command_next .msixEnable s (fun s => (s.setFlag MEP_LINK_MSIX 0 true).sendPending) rfl ht
  case start =>
    have hok : (decide (ch < 4) && decide (ctl < 8)) = true := by simp [hch, hctl]
    have starts {u : State} (h : s.dmaStart ch ctl = u) : leaves u (exec (.dmaStart p ch ctl) s) :=
      commandIf_path_of_eq (·.dmaStart ch ctl) hok ht hm h
    exact ⟨fun h => starts (dmaStart_of_not_go h), fun hgo hidle hb => starts (dmaStart_of_no_bme hgo hidle hb),
      fun hgo hidle hb hl => starts (dmaStart_of_illegal hgo hidle hb hl),
      fun hgo hidle hb hl => starts (dmaStart_of_legal hgo hidle hb hl)⟩
  case ends =>
    have ends {ok : Bool} {u : State} (h : s.dmaDone ch ok data = u) : leaves u (exec (.dmaDone ch ok data) s) :=
      commandIf_of_eq (·.dmaDone ch ok data) (decide_eq_true hch) ht h
    exact ⟨fun ok h => ends (dmaDone_of_aborted hx h), fun h => ends (dmaDone_of_failed hx h),
      fun h hto => ends (dmaDone_to_host hx h hto), fun h hto ha => ends (dmaDone_to_hostArea hx h hto ha),
      fun h hto ha => ends (dmaDone_outside hx h hto ha)⟩
  case invalidate => exact commandIf_next true s (·.invalidate addr size tag) rfl ht
  case disable =>
    exact command_next .atsEnableClear s (fun s => { s with mep := { s.mep with atsOn := false, ats := [] } }) rfl ht

end Sys2Proof.Machine
end

