-- ==== Sys2Proof/Proofs/PairCommands.lean ====
section
/-! SUPPORT. HNG_CMD, the pair's timers and the power-fail warning (R345 to R359, R402, R409). -/

namespace Sys2Proof.Machine

open Sys2Proof.Reg

section
variable {s : State}

/-! ### HNG_CMD (R353, R354, R359) -/

/-- A planned swap may begin: on a paired active, with no swap, power-fail warning or ACTIVATE under way (R354, R402). -/
def State.MaySwap (s : State) : Prop :=
  s.runs bHNG = true ∧ s.isActive = true ∧ s.hng.paired = true ∧ s.hng.swapping = 0 ∧ s.top.pfw = false ∧ s.activating = false

theorem maySwap_iff : (s.runs bHNG ∧ s.isActive ∧ s.hng.paired ∧ s.hng.swapping = 0 ∧ !s.top.pfw ∧ !s.activating) ↔ s.MaySwap := by
  simp [State.MaySwap]

theorem hngSwap_of_maySwap (h : s.MaySwap) : s.hngSwap = { s with hng := { s.hng with swapping := 1 } } :=
  if_pos (maySwap_iff.mpr h)

theorem hngSwap_of_not_maySwap (h : ¬ s.MaySwap) : s.hngSwap = s.raise HNG_EVENT_CMD_REFUSED :=
  if_neg (mt maySwap_iff.mp h)

/-- A part may rejoin: it is DETACHED, or FENCED with a live active peer. -/
def State.MayRejoin (s : State) : Prop :=
  s.runs bHNG = true ∧ (s.pair = 3 ∨ (s.pair = 4 ∧ s.livePeer = true))

theorem hngRejoin_of_mayRejoin (h : s.MayRejoin) : s.hngRejoin = s.becomeStandby :=
  if_pos h

theorem hngRejoin_of_not_mayRejoin (h : ¬ s.MayRejoin) : s.hngRejoin = s.raise HNG_EVENT_CMD_REFUSED :=
  if_neg h

theorem hngDetach_of_paired (h : s.runs bHNG = true ∧ s.isActive = true ∧ s.hng.paired = true) :
    s.hngDetach = { s with hng := { s.hng with detachReq := true } } :=
  if_pos h

theorem hngDetach_of_not_paired (h : ¬ (s.runs bHNG = true ∧ s.isActive = true ∧ s.hng.paired = true)) :
    s.hngDetach = s.raise HNG_EVENT_CMD_REFUSED :=
  if_neg h

/-! ### Timers (R346, R348, R350, R353) -/

theorem deferEnds_of_deferring (hd : s.hng.deferring = true) (hr : s.role = 0) (hb : s.runs bHNG = true) :
    s.deferEnds = State.startContest { s with hng := { s.hng with deferring := false } } 0 :=
  if_pos ⟨hd, hr, hb⟩

theorem announceAgain_of_owed (h : s.hng.announce ≠ 0) (ha : s.isActive = true) :
    s.announceAgain = State.announceAll { s with hng := { s.hng with announce := s.hng.announce - 1 } } :=
  if_neg (by simp [h, ha])

theorem copyEndMiss_of_standby (hr : s.role = 2) (hb : s.runs bHNG = true) :
    s.copyEndMiss = State.followPaths { s with hng := { s.hng with missed := s.hng.missed + 1 } } :=
  if_pos ⟨hr, hb⟩

/-! ### The power-fail warning (R355, R358, R409) -/

theorem powerFails_of_warned (h : s.top.pfw = true) : s.powerFails = s :=
  if_pos h

theorem powerFails_of_powered (h : s.top.pfw = false) :
    let u := ((s.setPfw true).raise SLP_EVENT_PFW).powerRecord 1 0
    let v : State := { u with hng := { u.hng with swapping := 0, c0 := [] } }
    s.powerFails = (if 1 ≤ u.hng.swapping ∧ u.hng.swapping ≤ 3 then v else u).startFlush 2 :=
  if_neg (ne_true_of_eq_false h)

theorem powerReturns_of_warned (h : s.top.pfw = true) : s.powerReturns = ((s.setPfw false).powerRecord 2 0).settle :=
  if_pos h

theorem powerReturns_of_powered (h : s.top.pfw = false) : s.powerReturns = s :=
  if_neg (ne_true_of_eq_false h)

end

/-- Settles O36: HNG_CMD by what each OP asks of the pair, a timer by the role it acts in, the warning by the one that shows. -/
theorem pairCommandsAndPowerWarningsAct : Obligations.PairCommandsAndPowerWarningsAct := by
  intro s ht leaves refused
  refine ⟨fun p hm => ?commands, fun hd hr hb => ?defer, fun d hd hc => ?contest, fun h ha => ?announce, fun hr hb => ?missed,
    ?watchdog, fun h => ?warnedAgain, fun h => ?warned, fun h => ?released, fun h => ?unwarned⟩
  case commands =>
    have swap {u : State} (h : s.hngSwap = u) : leaves u (exec (.roleSwap p) s) :=
      commandIf_path_of_eq State.hngSwap rfl ht hm h
    have rejoin {u : State} (h : s.hngRejoin = u) : leaves u.settle (exec (.rejoin p) s) :=
      commandIf_path_of_eq (fun s => s.hngRejoin.settle) rfl ht hm (congrArg State.settle h)
    have detach {u : State} (h : s.hngDetach = u) : leaves u (exec (.detach p) s) :=
      commandIf_path_of_eq State.hngDetach rfl ht hm h
    exact ⟨fun h => swap (hngSwap_of_maySwap h), fun h => swap (hngSwap_of_not_maySwap h),
      fun h => rejoin (hngRejoin_of_mayRejoin h), fun h => rejoin (hngRejoin_of_not_mayRejoin h),
      fun h => detach (hngDetach_of_paired h), fun h => detach (hngDetach_of_not_paired h)⟩
  case defer => exact commandIf_of_eq (fun s => s.deferEnds.settle) rfl ht (congrArg State.settle (deferEnds_of_deferring hd hr hb))
  case contest =>
    exact commandIf_of_eq (fun s => if s.hng.contesting then (s.contestTimesOut d).pumpAll.settle else s) (decide_eq_true hd) ht
      (if_pos hc)
  case announce => exact commandIf_of_eq State.announceAgain rfl ht (announceAgain_of_owed h ha)
  case missed =>
    exact commandIf_of_eq (fun s => s.copyEndMiss.settle) rfl ht (congrArg State.settle (copyEndMiss_of_standby hr hb))
  case watchdog => exact command_next .watchdogLapse s (fun s => { s with hng := { s.hng with coreOk := false } }) rfl ht
  case warnedAgain =>
    exact commandIf_of_eq (fun s => s.powerFails.settle) rfl ht (congrArg State.settle (powerFails_of_warned h))
  case warned =>
    exact commandIf_of_eq (fun s => s.powerFails.settle) rfl ht (congrArg State.settle (powerFails_of_powered h))
  case released => exact commandIf_of_eq State.powerReturns rfl ht (powerReturns_of_warned h)
  case unwarned => exact commandIf_of_eq State.powerReturns rfl ht (powerReturns_of_powered h)

end Sys2Proof.Machine
end

