-- ==== Sys2Proof/Proofs/TetherPath.lean ====
section
/-! SUPPORT. Tether frames that arrive, the frame's tick, and the path's silence (R335, R344 to R347, R352, R353, R358). -/

namespace Sys2Proof.Machine

open Sys2Proof.Reg

section
variable {s : State} {pair : Nat} {f : TetherFrame}

/-! ### A frame arrives (R344) -/

/-- A frame is valid: version 1 and a good CRC-8. -/
def validTether (f : TetherFrame) : Prop :=
  bitsOf f.bits.toNat 60 4 = 1 ∧ f.bits.toNat % 256 = tetherCrc f.bits.toNat

/-- A frame names this part's own unit. -/
def State.OwnUnit (s : State) (f : TetherFrame) : Prop :=
  Bool.nat (f.bits.toNat.testBit 59) = s.top.unitSel % 2

/-- The peer's pair is live, and what its frame says of it shows. -/
def State.showPeer (s : State) (pair : Nat) (f : TetherFrame) : State :=
  let v := f.bits.toNat
  let u : State := { s with hng := { s.hng with
    tetherAt := SMap.put pair s.ns s.hng.tetherAt, peerPfw := v.testBit 51, tetherSilent := s.hng.tetherSilent && !v.testBit 52 } }
  let w := (u.showTether.setReg HNG_STATUS_PEER_ROLE 0 (bitsOf v 56 3)).setReg HNG_STATUS_PEER_PAIR 0 (bitsOf v 53 3)
  (w.setFlag HNG_STATUS_PEER_CORE_OK 0 (v.testBit 52)).followPaths

theorem tetherArrives_of_invalid (h : bitsOf f.bits.toNat 60 4 ≠ 1 ∨ f.bits.toNat % 256 ≠ tetherCrc f.bits.toNat) :
    s.tetherArrives pair f = s :=
  if_pos h

theorem tetherArrives_of_valid (h : validTether f) :
    s.tetherArrives pair f = if Bool.nat (f.bits.toNat.testBit 59) = s.top.unitSel % 2 then
        if s.runs bHNG ∧ s.pairEn then s.refusePair 1 else s
      else (s.showPeer pair f).followPeer f.bits.toNat :=
  if_neg (not_or.mpr ⟨Classical.not_not.mpr h.1, Classical.not_not.mpr h.2⟩)

/-- A frame of this part's own unit refuses the pairing where it is enabled (R352). -/
theorem tetherArrives_of_own_refused (h : validTether f) (ho : s.OwnUnit f) (hr : s.runs bHNG = true) (he : s.pairEn = true) :
    s.tetherArrives pair f = s.refusePair 1 :=
  (tetherArrives_of_valid h).trans ((if_pos ho).trans (if_pos ⟨hr, he⟩))

theorem tetherArrives_of_own_ignored (h : validTether f) (ho : s.OwnUnit f) (hno : s.runs bHNG = false ∨ s.pairEn = false) :
    s.tetherArrives pair f = s :=
  (tetherArrives_of_valid h).trans ((if_pos ho).trans (if_neg fun ⟨hr, he⟩ => by simp [hr, he] at hno))

theorem tetherArrives_of_peer (h : validTether f) (ho : ¬ s.OwnUnit f) :
    s.tetherArrives pair f = (s.showPeer pair f).followPeer f.bits.toNat :=
  (tetherArrives_of_valid h).trans (if_neg ho)

/-! ### What the part follows in its peer's frame (R335, R352, R353) -/

section
variable {v : Nat} (hr : s.runs bHNG = true) (he : s.pairEn = true)
include hr he

/-- A STARTING part that sees an ACTIVE peer becomes its standby. -/
theorem followPeer_of_starting (hrole : s.role = 0) (ha : s.isActive = false) (hp : bitsOf v 56 3 = 1)
    (hc : s.hng.contesting = false) : s.followPeer v = s.becomeStandby := by
  have standby : ¬ s.role = roleSTANDBY := by rw [hrole]; decide
  unfold State.followPeer
  rw [if_neg (by simp [hr, he]), if_neg standby, if_neg (by simp [ha]), if_pos ⟨hrole, hp, by simp [hc]⟩]

/-- An active with copies flowing that sees a SYNCED standby pairs at the next boundary. -/
theorem followPeer_of_synced (hrole : s.role ≠ 2) (ha : s.isActive = true) (hp : bitsOf v 56 3 = 2) (hpp : bitsOf v 53 3 = 2)
    (hd : s.hng.detachReq = false) (hc : s.hng.copying = true) (hn : s.hng.paired = false) :
    s.followPeer v = { s with hng := { s.hng with pairNext := true } } := by
  have active : ¬ s.role = roleSTANDBY := hrole
  have standby : bitsOf v 56 3 = roleSTANDBY := hp
  have synced : bitsOf v 53 3 = pairSYNCED := hpp
  simp only [State.followPeer, hr, he, active, ha, hd, standby, synced, hc, hn, Bool.not_true, Bool.not_false, Bool.false_eq_true,
    or_self, and_false, and_self, ne_eq, not_true_eq_false, if_false, if_true]

end

/-! ### The tick (R344, R346) -/

/-- The part's frame leaves, and an interval without a valid frame of the peer is counted. -/
def State.tetherLeaves (s : State) : State :=
  let u : State := { s with hng := { s.hng with tetherOut := s.tetherBits, tetherSeq := (s.hng.tetherSeq + 1) % 65536 } }
  if (u.hng.tetherAt.any fun e => decide (u.ns < 10000 + e.2)) then u else u.bump HNG_TETHER_MISS

/-- One pair of two is no longer live, in a part that pairs. -/
def State.TetherDegrades (s : State) : Prop :=
  let t := s.tetherLeaves
  let w := t.showTether
  (t.flag HNG_STATUS_TETHER0 = true ∧ t.flag HNG_STATUS_TETHER1 = true) ∧ w.tetherLive 0 ≠ w.tetherLive 1 ∧
    w.runs bHNG = true ∧ w.pairEn = true

theorem tetherDegrades_iff :
    let t := s.tetherLeaves
    let w := t.showTether
    (((t.flag HNG_STATUS_TETHER0 && t.flag HNG_STATUS_TETHER1) = true) ∧ w.tetherLive 0 ≠ w.tetherLive 1 ∧ w.runs bHNG ∧ w.pairEn) ↔
      s.TetherDegrades :=
  and_congr_left' Bool.and_eq_true_iff

theorem tetherTick_of_degrades (h : s.TetherDegrades) : s.tetherTick = s.tetherLeaves.showTether.degraded :=
  if_pos (tetherDegrades_iff.mpr h)

theorem tetherTick_of_not_degrades (h : ¬ s.TetherDegrades) : s.tetherTick = s.tetherLeaves.showTether :=
  if_neg (mt tetherDegrades_iff.mp h)

end

/-- Settles O38: a frame by its version, CRC and unit, the tick by the pairs that are live. -/
theorem tetherFramesAct : Obligations.TetherFramesAct := by
  intro s ht leaves
  refine ⟨fun pair f hpair => ?arrives, ?sends, ?silent⟩
  case arrives =>
    intro v own u w x
    have arrives {t : State} (h : s.tetherArrives pair f = t) : leaves t.settle (exec (.tetherFrame pair f) s) :=
      commandIf_of_eq (fun s => (s.tetherArrives pair f).settle) (decide_eq_true hpair) ht (congrArg State.settle h)
    exact ⟨fun h => arrives (tetherArrives_of_invalid h),
      fun hv hcrc ho hr he => arrives (tetherArrives_of_own_refused ⟨hv, hcrc⟩ ho hr he),
      fun hv hcrc ho hno => arrives (tetherArrives_of_own_ignored ⟨hv, hcrc⟩ ho hno),
      fun hv hcrc ho => arrives (tetherArrives_of_peer ⟨hv, hcrc⟩ ho),
      fun hr he hrole ha hp hc => followPeer_of_starting hr he hrole ha hp hc,
      fun hr he hrole ha hp hpp hd hc hn => followPeer_of_synced hr he hrole ha hp hpp hd hc hn⟩
  case sends =>
    intro u heard t both w
    have sends {t : State} (h : s.tetherTick = t) : leaves t (exec .tetherSend s) := commandIf_of_eq State.tetherTick rfl ht h
    exact ⟨fun h => sends (tetherTick_of_not_degrades h),
      fun hb hl hr he => sends (tetherTick_of_degrades ⟨hb, hl, hr, he⟩)⟩
  case silent => exact command_next .tetherSilent s (fun s => s.tetherFalls.settle) rfl ht

end Sys2Proof.Machine
end

