-- ==== Sys2Proof/Proofs/HingeFrames.lean ====
section
/-! SUPPORT. Hinge frames: which are taken and which are not, what each does that is taken, and the link's lanes (R261, R336 to R342,
R346, R352, R354, R411). -/

namespace Sys2Proof.Machine

open Sys2Proof.Reg

/-! ### Which frames are taken (R199, R339) -/

/-- HNG runs, and its link is up. -/
def State.HingeUp (s : State) : Prop := s.runs bHNG = true ∧ s.hng.linkUp = true

/-- The system account has cells for `n` bytes of payload. -/
def State.HingeRoomFor (s : State) (n : Nat) : Prop :=
  s.withinLimits none (cellsOf n) = true ∧ s.fill + cellsOf n ≤ s.cabUsable

/-- A frame of `n` bytes is the next, whole, and finds its cells. -/
def State.HingeGood (s : State) (h : HingeHdr) (n : Nat) : Prop :=
  s.HingeUp ∧ h.ver = 1 ∧ h.crcOk = true ∧ h.seq = s.hng.rxSeq ∧ s.HingeRoomFor n

/-- A frame of `n` bytes is counted and passes through its cells. -/
def State.hingeTaken (s : State) (n : Nat) : State :=
  let u := (s.hold none (cellsOf n)).unhold none (cellsOf n)
  State.bump { u with hng := { u.hng with rxSeq := (u.hng.rxSeq + 1) % 65536, sinceAck := u.hng.sinceAck + 1 } } HNG_RX_FRAMES

/-- 32 frames that no ACK covers send one. -/
def State.acked (u : State) : State := if 32 ≤ u.hng.sinceAck then u.hingeAckNow else u

section
variable {s : State} {h : HingeHdr} {n : Nat} {act : State → State}

theorem not_down_of_hingeUp (hup : s.HingeUp) : ¬ ((!s.runs bHNG) = true ∨ (!s.hng.linkUp) = true) := by
  obtain ⟨hr, hl⟩ := hup
  simp [hr, hl]

theorem hingeRoomFor_iff :
    s.HingeRoomFor n ↔ ¬ ((!s.withinLimits none (cellsOf n)) = true ∨ s.cabUsable < s.fill + cellsOf n) := by
  simp [State.HingeRoomFor]

theorem hingeReceive_of_version (hup : s.HingeUp) (hv : h.ver ≠ 1) : s.hingeReceive h n act = s.bump HNG_CRC_ERR :=
  (if_neg (not_down_of_hingeUp hup)).trans (if_pos hv)

section
variable (hup : s.HingeUp) (hv : h.ver = 1)
include hup hv

theorem hingeReceive_of_trailer (hc : h.crcOk = false) :
    s.hingeReceive h n act = s.hingeBad.hingeControl 5 s.hng.rxSeq :=
  (if_neg (not_down_of_hingeUp hup)).trans ((if_neg (Classical.not_not.mpr hv)).trans (if_pos (by rw [hc]; rfl)))

theorem hingeReceive_of_whole (hc : h.crcOk = true) :
    s.hingeReceive h n act =
      if h.seq ≠ s.hng.rxSeq ∨ (!s.withinLimits none (cellsOf n)) = true ∨ s.cabUsable < s.fill + cellsOf n then
        s.hingeControl 5 s.hng.rxSeq
      else (act (s.hingeTaken n)).acked :=
  (if_neg (not_down_of_hingeUp hup)).trans ((if_neg (Classical.not_not.mpr hv)).trans (if_neg (by simp [hc])))

/-- A whole frame that is not the next, or finds no cells, is answered with NAK. -/
theorem hingeReceive_of_out_of_turn (hc : h.crcOk = true) (ho : h.seq ≠ s.hng.rxSeq ∨ ¬ s.HingeRoomFor n) :
    s.hingeReceive h n act = s.hingeControl 5 s.hng.rxSeq :=
  (hingeReceive_of_whole hup hv hc).trans
    (if_pos (ho.imp_right fun hr => Classical.not_not.mp (mt hingeRoomFor_iff.mpr hr)))

theorem hingeReceiveControl_of_whole (hc : h.crcOk = true) : s.hingeReceiveControl h act = act s :=
  (if_neg (not_down_of_hingeUp hup)).trans ((if_neg (Classical.not_not.mpr hv)).trans (if_neg (by simp [hc])))

end

theorem hingeReceive_of_good (hg : s.HingeGood h n) : s.hingeReceive h n act = (act (s.hingeTaken n)).acked := by
  obtain ⟨hup, hv, hc, hseq, hroom⟩ := hg
  exact (hingeReceive_of_whole hup hv hc).trans
    (if_neg (not_or.mpr ⟨Classical.not_not.mpr hseq, hingeRoomFor_iff.mp hroom⟩))

/-- A row whose frame is good: it acts on the state that took it. -/
theorem hingeReceive_of_good_eq {u : State} (hg : s.HingeGood h n) (hu : act (s.hingeTaken n) = u) :
    s.hingeReceive h n act = u.acked :=
  (hingeReceive_of_good hg).trans (congrArg State.acked hu)

/-! ### CONFIRM (R261, R342, R354) -/

/-- A CONFIRM at the active; the last one of a planned swap makes it stand down. -/
theorem confirmArrives_eq (epoch result : Nat) :
    let c := s.confirmCopy epoch result
    let u := if c.1 = true ∧ c.2.hng.swapping = 3 then ((c.2.raise HNG_EVENT_SWAPPED).pairRecord 7).becomeStandby else c.2
    s.confirmArrives epoch result = if s.isActive = false then s else u := by
  cases ha : s.isActive <;> simp [State.confirmArrives, ha]

/-! ### COPY and SYNC (R341, R352) -/

/-- The sections of a COPY wait in system cells at a receiving standby. -/
theorem copyArrives_eq (sections : List CopySection) :
    s.copyArrives sections = if s.receivesCopy then
        State.hold { s with hng := { s.hng with rxCopy := s.hng.rxCopy ++ sections } } none (copyCells sections) else s :=
  rfl

/-- The sections of a SYNC act at a synchronising standby; its last frame drains the queue. -/
theorem syncArrives_eq (sections : List CopySection) :
    let u := s.applySections sections
    s.syncArrives h sections =
      if s.receivesCopy = true ∧ s.hng.syncing = true then (if h.last then u.drainSync else u) else s :=
  rfl

/-! ### COPY_END (R341, R346, R352) -/

/-- A copy that has arrived whole acts, or waits behind the sync; one whose CRC differs is confirmed with result 1. -/
theorem copyEndArrives_eq (crc : Nat) :
    let u := State.followPaths { s with hng := { s.hng with missed := 0 } }
    let cs := u.hng.rxCopy
    let v : State := { u with hng := { u.hng with rxCopy := [] } }
    let w := if (crc32c (cs.map sectionBytes).flatten).toNat ≠ crc then (v.unhold none (copyCells cs)).sendConfirm h.epoch crc 1
      else if v.hng.syncing then { v with hng := { v.hng with syncQueue := v.hng.syncQueue ++ [(h.epoch, h.swap, cs)] } }
      else (v.unhold none (copyCells cs)).applyCopy h.epoch h.swap cs
    s.copyEndArrives h crc = if u.receivesCopy = false then u else w :=
  if_congr (iff_of_eq (Bool.not_eq_true' _)) rfl rfl

/-! ### TIME (R352) -/

/-- The phase is beyond 2 lines. -/
def widePhase (phase : Int) : Prop := phase < -8192 ∨ 8192 < phase

theorem pairRefusal_of_wide {phase : Int} (hw : widePhase phase) : s.pairRefusal h phase = 2 :=
  if_pos hw

section
variable {phase : Int} (hw : ¬ widePhase phase)
include hw

theorem pairRefusal_of_svn (hs : h.svn ≠ s.reg FWU_SVN_FUSED) : s.pairRefusal h phase = 3 :=
  (if_neg hw).trans (if_pos hs)

theorem pairRefusal_of_key (hs : h.svn = s.reg FWU_SVN_FUSED) (hk : h.rkey / 2 ≠ s.reg DRV_RKEY_KEY / 2) :
    s.pairRefusal h phase = 4 :=
  (if_neg hw).trans ((if_neg (Classical.not_not.mpr hs)).trans (if_pos hk))

theorem pairRefusal_of_fits (hf : h.svn = s.reg FWU_SVN_FUSED ∧ h.rkey / 2 = s.reg DRV_RKEY_KEY / 2) :
    s.pairRefusal h phase = 0 :=
  (if_neg hw).trans ((if_neg (Classical.not_not.mpr hf.1)).trans (if_neg (Classical.not_not.mpr hf.2)))

end

/-- The phase shows. -/
def State.showPhase (s : State) (time flight : Nat) : State :=
  s.setReg HNG_PHASE_SUB 0 (int32 (s.peerPhase time flight))

section
variable {time epoch flight : Nat}

theorem timeArrives_eq :
    let u := s.showPhase time flight
    let reason := u.pairRefusal h (s.peerPhase time flight)
    s.timeArrives h time epoch flight =
      if u.role = 2 ∧ u.pair = 1 then
        if reason ≠ 0 then u.refusePair reason
        else State.setReg { u with rtu := { u.rtu with cycle := time / 2 ^ 24 } } RTU_EPOCH_COUNT_COUNT 0 epoch
      else if u.isActive ∧ u.pairEn then if reason ≠ 0 then u.refusePair reason else u.sendTime.startSync
      else if reason = 2 then u.degraded
      else u :=
  rfl

/-- A synchronising standby refuses the pairing for a reason. -/
theorem timeArrives_of_refusal {reason : Nat} (hr : (s.showPhase time flight).role = 2) (hp : (s.showPhase time flight).pair = 1)
    (hn : reason ≠ 0) (h0 : (s.showPhase time flight).pairRefusal h (s.peerPhase time flight) = reason) :
    s.timeArrives h time epoch flight = (s.showPhase time flight).refusePair reason := by
  subst h0
  exact timeArrives_eq.trans ((if_pos ⟨hr, hp⟩).trans (if_pos hn))

variable (h0 : (s.showPhase time flight).pairRefusal h (s.peerPhase time flight) = 0)
include h0

/-- A synchronising standby that fits takes the active's epoch and cycle. -/
theorem timeArrives_of_standby (hr : (s.showPhase time flight).role = 2) (hp : (s.showPhase time flight).pair = 1) :
    let u := s.showPhase time flight
    s.timeArrives h time epoch flight =
      State.setReg { u with rtu := { u.rtu with cycle := time / 2 ^ 24 } } RTU_EPOCH_COUNT_COUNT 0 epoch :=
  timeArrives_eq.trans ((if_pos ⟨hr, hp⟩).trans (if_neg (Classical.not_not.mpr h0)))

variable (hr : (s.showPhase time flight).role ≠ 2)
include hr

/-- An active that may pair answers and starts the sync. -/
theorem timeArrives_of_active (ha : (s.showPhase time flight).isActive = true) (he : (s.showPhase time flight).pairEn = true) :
    s.timeArrives h time epoch flight = (s.showPhase time flight).sendTime.startSync :=
  timeArrives_eq.trans ((if_neg fun hs => hr hs.1).trans ((if_pos ⟨ha, he⟩).trans (if_neg (Classical.not_not.mpr h0))))

theorem timeArrives_of_other (ha : (s.showPhase time flight).isActive = false) :
    s.timeArrives h time epoch flight = s.showPhase time flight :=
  timeArrives_eq.trans ((if_neg fun hs => hr hs.1).trans
    ((if_neg fun hs => ne_true_of_eq_false ha hs.1).trans (if_neg (by rw [h0]; decide))))

end

/-! ### Timers and lanes (R336, R339) -/

theorem resendDue_of_unacked {f : HingeFrame} {rest : List HingeFrame} (hq : s.hng.unacked = f :: rest) (hup : s.HingeUp) :
    s.resendDue = s.hingeResend f.seq := by
  rw [State.resendDue, hq]
  exact if_pos hup

theorem ackDue_of_owed (hs : s.hng.sinceAck ≠ 0) (hl : s.hng.linkUp = true) : s.ackDue = s.hingeAckNow :=
  if_neg (by simp [hs, hl])

section
variable {lanes : Nat}

theorem lanesFail_of_few (hl : lanes < (s.setReg HNG_STATUS_LANES 0 lanes).lanesMin) :
    let u := s.setReg HNG_STATUS_LANES 0 lanes
    s.lanesFail lanes = State.followPaths { u with hng := { u.hng with linkUp := false } } :=
  if_pos hl

theorem lanesFail_of_enough (hl : (s.setReg HNG_STATUS_LANES 0 lanes).lanesMin ≤ lanes) :
    s.lanesFail lanes = (s.setReg HNG_STATUS_LANES 0 lanes).degraded :=
  if_neg (Nat.not_lt.mpr hl)

theorem lanesTrain_of_few (hl : lanes < (s.setReg HNG_STATUS_LANES 0 lanes).lanesMin) :
    s.lanesTrain lanes = s.setReg HNG_STATUS_LANES 0 lanes :=
  if_pos hl

theorem lanesTrain_of_enough (hl : (s.setReg HNG_STATUS_LANES 0 lanes).lanesMin ≤ lanes) :
    let u := s.setReg HNG_STATUS_LANES 0 lanes
    let v := State.followPaths { u with hng := { u.hng with linkUp := true, missed := 0 } }
    let w := if lanes < 8 then v.degraded else v
    s.lanesTrain lanes = if w.runs bHNG = true ∧ w.role = 2 ∧ w.pair = 1 then w.sendTime else w :=
  if_neg (Nat.not_lt.mpr hl)

end

end

/-- Settles O37: a sequenced frame by what takes it and then by what it does, ACK, NAK and the timers by the frames that wait, the
lanes by LANES_MIN. -/
theorem hingeFramesAct : Obligations.HingeFramesAct := by
  intro s ht leaves up room taken good acked
  -- The statement's own words by the names they have above.
  have htaken : taken = s.hingeTaken := rfl
  have hacked : acked = State.acked := rfl
  have hup : up = s.HingeUp := rfl
  have hgood : good = s.HingeGood := rfl
  clear_value taken acked good up
  subst htaken hacked hgood hup
  have received {i : Instr} {h : HingeHdr} {n : Nat} {u : State} (act : State → State)
      (hrow : exec i s = command i s (·.hingeReceive h n act)) (hok : i.wellFormed = true) (hu : s.hingeReceive h n act = u) :
      leaves u (exec i s) :=
    hrow.trans (commandIf_of_eq (·.hingeReceive h n act) hok ht hu)
  have controlled {i : Instr} {h : HingeHdr} {u : State} (act : State → State)
      (hrow : exec i s = command i s (·.hingeReceiveControl h act)) (hok : i.wellFormed = true)
      (hu : s.hingeReceiveControl h act = u) : leaves u (exec i s) :=
    hrow.trans (commandIf_of_eq (·.hingeReceiveControl h act) hok ht hu)
  refine ⟨fun h sections => ?copy, fun h sections hup hv => ?version, fun h sections hup hv hc => ?trailer,
    fun h sections hup hv hc ho => ?outOfTurn, fun h counts crc hg => ?copyEnd, fun h epoch crc result hg => ?confirm,
    fun h sections => ?sync, fun h time epoch flight hsvn hkey hg => ?time, fun h data hg => ?recorder,
    fun h seq hseq hup hv hc => ⟨?ack, ?nak⟩, fun f rest hq hup => ?resend, fun hs hl => ?ackTimer, fun n hn => ?lanes⟩
  case copy =>
    intro n t hg
    have acts : s.hingeReceive h n (·.copyArrives sections) = (t.copyArrives sections).acked := hingeReceive_of_good hg
    exact received (·.copyArrives sections) rfl rfl (acts.trans (congrArg State.acked (copyArrives_eq sections)))
  case version => exact received (·.copyArrives sections) rfl rfl (hingeReceive_of_version hup hv)
  case trailer => exact received (·.copyArrives sections) rfl rfl (hingeReceive_of_trailer hup hv hc)
  case outOfTurn => exact received (·.copyArrives sections) rfl rfl (hingeReceive_of_out_of_turn hup hv hc ho)
  case copyEnd =>
    exact received (·.copyEndArrives h crc) rfl rfl (hingeReceive_of_good_eq hg (copyEndArrives_eq crc))
  case confirm =>
    intro t c u
    have acts : s.hingeReceive h 13 (·.confirmArrives epoch result) = (t.confirmArrives epoch result).acked :=
      hingeReceive_of_good hg
    have ends : t.confirmArrives epoch result = if t.isActive = false then t else u := by rw [confirmArrives_eq]
    exact commandIf_of_eq (fun s => (s.hingeReceive h 13 (·.confirmArrives epoch result)).pumpAll.settle) rfl ht
      (congrArg (fun v : State => v.pumpAll.settle) (acts.trans (congrArg State.acked ends)))
  case sync =>
    intro n t hg u
    have acts : s.hingeReceive h n (·.syncArrives h sections) = (t.syncArrives h sections).acked := hingeReceive_of_good hg
    exact received (·.syncArrives h sections) rfl rfl (acts.trans (congrArg State.acked (syncArrives_eq sections)))
  case time =>
    intro t u wide fits
    have hok : (Instr.hingeTime h time epoch flight).wellFormed = true := by
      rw [Instr.wellFormed, decide_eq_true hsvn, decide_eq_true hkey]
      rfl
    have arrives {v : State} (hv : t.timeArrives h time epoch flight = v) :
        leaves v.acked (exec (.hingeTime h time epoch flight) s) :=
      received (·.timeArrives h time epoch flight) rfl hok (hingeReceive_of_good_eq hg hv)
    exact ⟨fun hw hf hr ha => arrives (timeArrives_of_other (pairRefusal_of_fits hw hf) hr ha),
      fun hw hr hp => arrives (timeArrives_of_refusal hr hp (by decide) (pairRefusal_of_wide hw)),
      fun hw hs hr hp => arrives (timeArrives_of_refusal hr hp (by decide) (pairRefusal_of_svn hw hs)),
      fun hw hs hk hr hp => arrives (timeArrives_of_refusal hr hp (by decide) (pairRefusal_of_key hw hs hk)),
      fun hw hf hr hp => arrives (timeArrives_of_standby (pairRefusal_of_fits hw hf) hr hp),
      fun hw hf hr ha he => arrives (timeArrives_of_active (pairRefusal_of_fits hw hf) hr ha he)⟩
  case recorder => exact received (·.peerExtent data) rfl rfl (hingeReceive_of_good hg)
  case ack =>
    exact controlled (fun s => ((s.ackRecorder seq).hingeAcked seq).planFlush) rfl (decide_eq_true hseq)
      (hingeReceiveControl_of_whole hup hv hc)
  case nak => exact controlled (·.hingeResend seq) rfl (decide_eq_true hseq) (hingeReceiveControl_of_whole hup hv hc)
  case resend => exact commandIf_of_eq State.resendDue rfl ht (resendDue_of_unacked hq hup)
  case ackTimer => exact commandIf_of_eq State.ackDue rfl ht (ackDue_of_owed hs hl)
  case lanes =>
    intro u v w
    have hok : decide (n ≤ 8) = true := decide_eq_true hn
    have fails {t : State} (h : s.lanesFail n = t) : leaves t.settle (exec (.hingeLinkDown n) s) :=
      commandIf_of_eq (fun s => (s.lanesFail n).settle) hok ht (congrArg State.settle h)
    have trains {t : State} (h : s.lanesTrain n = t) : leaves t (exec (.hingeLinkUp n) s) :=
      commandIf_of_eq (·.lanesTrain n) hok ht h
    exact ⟨fun h => fails (lanesFail_of_few h), fun h => fails (lanesFail_of_enough h), fun h => trains (lanesTrain_of_few h),
      fun h => trains (lanesTrain_of_enough h)⟩

end Sys2Proof.Machine
end

