-- ==== Sys2Proof/Proofs/Firmware.lean ====
section
/-! SUPPORT. FWU_CMD: the checks of each operation, how one begins, and what its end leaves (R390 to R400). -/

namespace Sys2Proof.Machine

open Sys2Proof.Reg

section
variable {s : State} {op : Nat} {j : FwuJob} {m : Bool}

/-! ### The checks (R398) -/

theorem fwuChecks_verify_length (h : s.reg FWU_LEN_UNITS < 2 ∨ 15739 < s.reg FWU_LEN_UNITS) : s.fwuChecks 1 = 1 :=
  if_pos h

/-- A VERIFY of a length that fits checks the staged image. -/
theorem fwuChecks_verify (hlow : 2 ≤ s.reg FWU_LEN_UNITS) (hhigh : s.reg FWU_LEN_UNITS ≤ 15739) :
    s.fwuChecks 1 = s.checkFw (s.staged (s.reg FWU_LEN_UNITS * 4096)) (s.reg FWU_LEN_UNITS * 4096) :=
  if_neg (not_or.mpr ⟨Nat.not_lt.mpr hlow, Nat.not_lt.mpr hhigh⟩)

section
variable {img : List Byte} {len : Nat}

theorem checkFw_of_bad_header (h : fwHeaderOk img len = false ∨ s.steppingOk img = false) : s.checkFw img len = 2 :=
  if_pos (h.imp (fun hh => by rw [hh]; rfl) fun hs => by rw [hs]; rfl)

variable (hh : fwHeaderOk img len = true) (hs : s.steppingOk img = true)
include hh hs

theorem checkFw_of_header :
    s.checkFw img len = if !fwCrcOk img then 3 else if fwSvn img < s.reg FWU_SVN_FUSED then 4
      else if !fwSigned img len then 5 else 0 :=
  if_neg (by simp [hh, hs])

theorem checkFw_of_bad_crc (hc : fwCrcOk img = false) : s.checkFw img len = 3 :=
  (checkFw_of_header hh hs).trans (if_pos (by rw [hc]; rfl))

theorem checkFw_of_low_svn (hc : fwCrcOk img = true) (hv : fwSvn img < s.reg FWU_SVN_FUSED) : s.checkFw img len = 4 :=
  (checkFw_of_header hh hs).trans ((if_neg (by simp [hc])).trans (if_pos hv))

end

theorem fwuChecks_unverified (h : s.flag FWU_STATUS_VERIFIED = false) : s.fwuChecks 2 = 6 ∧ s.fwuChecks 3 = 6 := by
  simp [State.fwuChecks, h]

theorem fwuChecks_program (h : s.flag FWU_STATUS_VERIFIED = true) : s.fwuChecks 2 = if s.top.pfw then 7 else 0 := by
  simp [State.fwuChecks, h]

theorem fwuChecks_in_recovery (h : s.inRecovery = true) : s.fwuChecks 4 = 8 ∧ s.fwuChecks 5 = 8 := by
  simp [State.fwuChecks, h]

theorem fwuChecks_commitSvn (h : s.inRecovery = false) : s.fwuChecks 4 = 0 := by
  simp [State.fwuChecks, h]

/-! ### An operation begins (R398) -/

/-- The operation that a write of FWU_CMD starts, with the result of its checks and the image it acts on. -/
def State.fwuAsked (s : State) (op : Nat) : FwuJob :=
  let r := s.fwuChecks op
  let len := if op = 1 then s.reg FWU_LEN_UNITS * 4096 else fwLength (s.staged 4096)
  { op := op, result := r, image := if op ≤ 3 ∧ r = 0 then s.staged len else [] }

theorem fwuStart_of_busy (h : s.fwu.job.isSome = true) :
    s.fwuStart op = (s.setReg FWU_STATUS_RESULT 0 9).raise FWU_EVENT_FAILED :=
  if_pos h

theorem fwuStart_of_idle (h : s.fwu.job = none) :
    let u := State.setFlag { s with fwu := { s.fwu with job := some (s.fwuAsked op) } } FWU_STATUS_BUSY 0 true
    s.fwuStart op = if s.fwuChecks op = 0 then u.fwuBegin op (s.fwuAsked op) else u :=
  if_neg (by rw [h]; decide)

/-! ### An operation ends (R398) -/

/-- No operation runs; the result shows, with its event and record. -/
def State.fwuEnded (s : State) (j : FwuJob) (r : Nat) : State :=
  let v := State.setFlag { s with fwu := { s.fwu with job := none } } FWU_STATUS_BUSY 0 false
  ((v.setReg FWU_STATUS_RESULT 0 r).raise (if r = 0 then FWU_EVENT_DONE else FWU_EVENT_FAILED)).fwuRecord 0 j.op r

/-- What an operation that ends comes to: its result, and the state in which it shows. -/
def State.fwuOutcome (s : State) (j : FwuJob) (m : Bool) : Nat × State :=
  if j.op = 1 ∧ j.dirtied then (6, s)
  else if j.result ≠ 0 then (j.result, if j.op = 1 then s.endVerified else s)
  else s.fwuEffect j m

/-- In recovery a PROGRAM that succeeds restarts the part (R395). -/
def State.fwuRestarts (s : State) (j : FwuJob) (r : Nat) : State :=
  if j.op = 2 ∧ r = 0 ∧ s.inRecovery then s.warmReset 0 else s

theorem fwuRestarts_of_program (hop : j.op = 2) : s.fwuRestarts j 0 = if s.inRecovery then s.warmReset 0 else s := by
  simp only [State.fwuRestarts, hop, true_and]

theorem fwuDone_of_none (h : s.fwu.job = none) : s.fwuDone m = s := by
  simp only [State.fwuDone, h]

section
variable (hj : s.fwu.job = some j)
include hj

theorem fwuDone_of_not_ready (h : s.fwuReady j = false) : s.fwuDone m = s := by
  simp only [State.fwuDone, hj, h, Bool.not_false, if_true]

theorem fwuDone_of_ready (h : s.fwuReady j = true) :
    s.fwuDone m = ((s.fwuOutcome j m).2.fwuEnded j (s.fwuOutcome j m).1).fwuRestarts j (s.fwuOutcome j m).1 := by
  simp only [State.fwuDone, hj, h, Bool.not_true, Bool.false_eq_true, if_false]
  rfl

/-- An operation that ends and restarts nothing. -/
theorem fwuDone_of_outcome {r : Nat} {u : State} (h : s.fwuReady j = true) (ho : s.fwuOutcome j m = (r, u))
    (hr : ¬ (j.op = 2 ∧ r = 0)) : s.fwuDone m = u.fwuEnded j r := by
  rw [fwuDone_of_ready hj h, ho]
  exact if_neg fun hs => hr ⟨hs.1, hs.2.1⟩

end

theorem fwuReady_of_not_activate (h : j.op ≠ 3) : s.fwuReady j = true := by
  simp [State.fwuReady, h]

theorem fwuReady_of_failed (h : j.result ≠ 0) : s.fwuReady j = true := by
  simp [State.fwuReady, h]

/-- A VERIFY whose staging was written while it ran. -/
theorem fwuOutcome_of_dirtied (hop : j.op = 1) (hd : j.dirtied = true) : s.fwuOutcome j m = (6, s) :=
  if_pos ⟨hop, hd⟩

theorem fwuOutcome_of_failed_verify (hop : j.op = 1) (hd : j.dirtied = false) (hr : j.result ≠ 0) :
    s.fwuOutcome j m = (j.result, s.endVerified) := by
  simp only [State.fwuOutcome, hop, hd, Bool.false_eq_true, and_false, if_false, ne_eq, hr, not_false_eq_true, if_true]

theorem fwuOutcome_of_failed (hop : j.op ≠ 1) (hr : j.result ≠ 0) : s.fwuOutcome j m = (j.result, s) := by
  simp only [State.fwuOutcome, hop, false_and, if_false, ne_eq, hr, not_false_eq_true, if_true]

/-- An operation that its checks let pass takes effect. -/
theorem fwuOutcome_of_passed (hd : ¬ (j.op = 1 ∧ j.dirtied = true)) (hr : j.result = 0) :
    s.fwuOutcome j m = s.fwuEffect j m :=
  (if_neg hd).trans (if_neg (Classical.not_not.mpr hr))

/-! ### The effects (R392, R397, R398, R399) -/

theorem fwuEffect_verify (hop : j.op = 1) :
    s.fwuEffect j m = (0, ((s.setFlag FWU_STATUS_VERIFIED 0 true).setReg FWU_VER_STAGED 0 (fwVersion j.image)).setReg
      FWU_SVN_STAGED 0 (fwSvn j.image)) := by
  simp only [State.fwuEffect, hop]

/-- A PROGRAM that reads back wrong leaves an open unit count. -/
theorem fwuEffect_program_mismatch (hop : j.op = 2) :
    s.fwuEffect j true = (10, (s.freeBits 14).2.setReg FWU_PROG_UNITS 0 ((s.freeBits 14).1 % (j.image.length / 4096 + 1))) := by
  simp only [State.fwuEffect, hop, if_true]

/-- The NOR holds the image and its seal (R393, R399). -/
def State.norWritten (s : State) (j : FwuJob) : State :=
  { s with fwu := { s.fwu with image := j.image ++ s.fwu.image.drop j.image.length, sealBlock := sealFor j.image j.count } }

theorem fwuEffect_program (hop : j.op = 2) :
    s.fwuEffect j false = (0, ((s.norWritten j).setReg FWU_PROG_UNITS 0 (j.image.length / 4096)).bump FWU_PROGRAMS) := by
  simp only [State.fwuEffect, hop, Bool.false_eq_true, if_false]
  rfl

theorem fwuEffect_commitSvn (hop : j.op = 4) :
    let n := max (s.reg FWU_SVN_FUSED) (s.reg FWU_SVN_RUNNING)
    let u := s.setReg FWU_SVN_FUSED 0 n
    s.fwuEffect j m = (0, if u.flag FWU_STATUS_VERIFIED = true ∧ u.reg FWU_SVN_STAGED < n then u.endVerified else u) := by
  simp only [State.fwuEffect, hop]

theorem fwuEffect_writeRecovery (hop : j.op = 5) :
    s.fwuEffect j m = (0, { s with fwu := { s.fwu with recovery := s.recoveryRecord } }) := by
  simp only [State.fwuEffect, hop]

theorem fwuEffect_clearStaging (hop : j.op = 6) :
    let keep := s.sbd.mem.filter fun e => decide (e.1 < hostArea) || decide (hostArea + stagingSize ≤ e.1)
    s.fwuEffect j m = (0, State.endVerified { s with sbd := { s.sbd with mem := keep } }) := by
  simp only [State.fwuEffect, hop]

theorem fwuDone_of_restart {u : State} (hj : s.fwu.job = some j) (hop : j.op = 2) (ho : s.fwuOutcome j m = (0, u)) :
    s.fwuDone m = if (u.fwuEnded j 0).inRecovery then (u.fwuEnded j 0).warmReset 0 else u.fwuEnded j 0 := by
  rw [fwuDone_of_ready hj (fwuReady_of_not_activate (by omega)), ho, fwuRestarts_of_program hop]

/-- A PROGRAM that read back right ends well, and restarts the part from recovery (R395, R399). -/
theorem fwuDone_program (hj : s.fwu.job = some j) (hop : j.op = 2) (hr : j.result = 0) :
    let v := (((s.norWritten j).setReg FWU_PROG_UNITS 0 (j.image.length / 4096)).bump FWU_PROGRAMS).fwuEnded j 0
    s.fwuDone false = if v.inRecovery then v.warmReset 0 else v :=
  fwuDone_of_restart hj hop ((fwuOutcome_of_passed (by omega) hr).trans (fwuEffect_program hop))

end

/-- Settles O42: each operation's checks in their order, its start, and its end by what it comes to. -/
theorem firmwareOperationsRunAndEnd : Obligations.FirmwareOperationsRunAndEnd := by
  intro s ht leaves ended asked
  refine ⟨fun p hm => ?asked, ⟨?length, ?header, ?crc, ?svn, ?unverified, ?program, ?recovery, ?commit, ?clear⟩, fun m => ?done,
    fun h m => fwuDone_of_none h, fun j m hj => ?ends, fun p idx val hidx hval hm => ?deliver⟩
  case asked =>
    have starts (op : Nat) (r : Host.Outcome State Fault Refusal)
        (row : r = commandIf true s fun s => s.viaWrite p FWU_CMD_OP.addr (·.fwuStart op)) : asked op r :=
      ⟨fun h => row.trans (commandIf_path_of_eq (·.fwuStart op) rfl ht hm (fwuStart_of_busy h)),
        fun h => row.trans (commandIf_path_of_eq (·.fwuStart op) rfl ht hm (fwuStart_of_idle h))⟩
    exact ⟨starts 1 _ rfl, starts 2 _ rfl, starts 3 _ rfl, starts 4 _ rfl, starts 5 _ rfl, starts 6 _ rfl⟩
  case length => exact fwuChecks_verify_length
  case header => exact fun hlow hhigh h => (fwuChecks_verify hlow hhigh).trans (checkFw_of_bad_header h)
  case crc => exact fun hlow hhigh hh hs hc => (fwuChecks_verify hlow hhigh).trans (checkFw_of_bad_crc hh hs hc)
  case svn => exact fun hlow hhigh hh hs hc hv => (fwuChecks_verify hlow hhigh).trans (checkFw_of_low_svn hh hs hc hv)
  case unverified => exact fwuChecks_unverified
  case program => exact fwuChecks_program
  case recovery => exact fwuChecks_in_recovery
  case commit => exact fwuChecks_commitSvn
  case clear => rfl
  case done =>
    exact commandIf_next true s
      (fun s => if s.handingOver && !(s.fwuDone m).handingOver then (s.fwuDone m).deliverAll.settle else s.fwuDone m) rfl ht
  case ends =>
    intro r units
    have hended : ended = State.fwuEnded := rfl
    clear_value ended
    subst hended
    -- An operation other than VERIFY that its checks let pass ends with its effect.
    have passes {op n : Nat} {u : State} (hop : j.op = op) (h1 : op ≠ 1) (h3 : op ≠ 3) (h2 : ¬ (op = 2 ∧ n = 0)) (hr : j.result = 0)
        (he : s.fwuEffect j m = (n, u)) : r = u.fwuEnded j n := by
      subst hop
      exact fwuDone_of_outcome hj (fwuReady_of_not_activate h3) ((fwuOutcome_of_passed (fun h => h1 h.1) hr).trans he) h2
    refine ⟨fun h => fwuDone_of_not_ready hj h, fun hop hd => ?dirtied, fun hop hd hr => ?verifyFails, fun h1 h2 hr => ?fails,
      fun hop hd hr => ?verified, fun hop hr hm => ?mismatch, fun hop hr hm => ?programmed, fun hop hr => ?svnRaised,
      fun hop hr => ?recoveryWritten, fun hop hr => ?cleared⟩
    case dirtied =>
      exact fwuDone_of_outcome hj (fwuReady_of_not_activate (by omega)) (fwuOutcome_of_dirtied hop hd) (by omega)
    case verifyFails =>
      exact fwuDone_of_outcome hj (fwuReady_of_failed hr) (fwuOutcome_of_failed_verify hop hd hr) (by omega)
    case fails => exact fwuDone_of_outcome hj (fwuReady_of_failed hr) (fwuOutcome_of_failed h1 hr) (by omega)
    case verified =>
      have clean : ¬ (j.op = 1 ∧ j.dirtied = true) := fun h => ne_true_of_eq_false hd h.2
      exact fwuDone_of_outcome hj (fwuReady_of_not_activate (by omega)) ((fwuOutcome_of_passed clean hr).trans (fwuEffect_verify hop))
        (by omega)
    case mismatch =>
      subst hm
      exact passes hop (by decide) (by decide) (by decide) hr (fwuEffect_program_mismatch hop)
    case programmed =>
      subst hm
      exact fwuDone_program hj hop hr
    case svnRaised => exact passes hop (by decide) (by decide) (by decide) hr (fwuEffect_commitSvn hop)
    case recoveryWritten => exact passes hop (by decide) (by decide) (by decide) hr (fwuEffect_writeRecovery hop)
    case cleared => exact passes hop (by decide) (by decide) (by decide) hr (fwuEffect_clearStaging hop)
  case deliver =>
    have hok : (decide (idx < 1024) && decide (val < 2 ^ 32)) = true := by
      rw [decide_eq_true hidx, decide_eq_true hval]
      rfl
    exact commandIf_path _ s p _ (·.blkData p idx val) hok ht hm

end Sys2Proof.Machine
end

