-- ==== Sys2Proof/Proofs/BlockResets.lean ====
section
/-! SUPPORT. Per-block resets, the sensors and the input clocks (R427, R428, R444, R446, R448, R450). -/

namespace Sys2Proof.Machine

open Sys2Proof.Reg

section
variable {s : State} {b i t c : Nat}

/-! ### Per-block resets (R427, R428) -/

/-- A block may be reset now: its own rule lets it, and it is not in reset. -/
def State.MayReset (s : State) (b : Nat) : Prop := s.blockResettable b = true ∧ b ∉ s.top.blkrst

theorem mayReset_iff : (s.blockResettable b ∧ !s.top.blkrst.contains b) ↔ s.MayReset b := by
  simp [State.MayReset]

theorem blockReset_of_mayReset (h : s.MayReset b) : s.blockReset b = s.blockResets b :=
  if_pos (mayReset_iff.mpr h)

theorem blockReset_of_not_mayReset (h : ¬ s.MayReset b) : s.blockReset b = s.raise TOP_EVENT_BLKRST_REFUSED :=
  if_neg (mt mayReset_iff.mp h)

theorem blockResetEnds_of_nil (h : s.top.blkrst = []) : s.blockResetEnds = s := by
  simp only [State.blockResetEnds, h]

/-- The oldest reset's end unmasks its block's seats; BUSY clears after the last. -/
theorem blockResetEnds_of_cons {rest : List Nat} (h : s.top.blkrst = b :: rest) :
    let u := State.unmaskBlock { s with top := { s.top with blkrst := rest } } b
    s.blockResetEnds = (if rest = [] then u.setFlag TOP_STATUS_BUSY 0 false else u).raise TOP_EVENT_BLKRST_DONE := by
  simp only [State.blockResetEnds, h]

/-! ### Sensors (R446 to R448, R450) -/

theorem thermalWarning_wellFormed (hi : i < 8) (ht : t < 2 ^ 16) : (Instr.thermalWarning i t).wellFormed = true := by
  rw [Instr.wellFormed, decide_eq_true hi, decide_eq_true ht]
  rfl

theorem trips_of_value (hi : i < 7)
    (h : (16 * ((if i = 5 ∨ i = 6 then 110 else 120) + (if s.reg TOP_ID_ORDER = 0 then 0 else 10)) : Nat) ≤ signedTemp t) :
    s.trips i t = true :=
  Bool.and_eq_true_iff.mpr ⟨decide_eq_true hi, decide_eq_true h⟩

theorem sensorReads_of_trip (h : s.trips i t = true) : s.sensorReads i t = s.trip :=
  if_pos h

/-- A reading below the trip value is kept, with the highest of all, and warns. -/
theorem sensorReads_of_no_trip (h : s.trips i t = false) :
    let u := if i < 7 then s.setReg TOP_TEMP_TEMP i t else s
    let v := u.setReg TOP_TEMP_TEMP 7 u.hottest
    let w := if (16 * v.reg TOP_THERM_WARN : Int) ≤ signedTemp t then v.raise TOP_HW_EVENT_THERM_WARN else v
    s.sensorReads i t = if (i = 5 ∨ i = 6) ∧ 16 * 85 < signedTemp t then w.raise TOP_HW_EVENT_HBM_HOT else w :=
  if_neg (ne_true_of_eq_false h)

/-- A sensor at its trip value trips the part, held or not (R448). -/
theorem exec_thermalWarning_of_trip (hok : (Instr.thermalWarning i t).wellFormed = true) (hd : s.takes = true ∨ s.held = true)
    (h : s.trips i t = true) : exec (.thermalWarning i t) s = .next (s.trip.keepQueue s) := by
  cases hh : s.held with
  | true =>
    rw [exec_thermalWarning_of_held i t hh, commandAlwaysIf_next _ _ _ hok, if_pos h]
  | false =>
    have ht : s.takes = true := hd.resolve_right (ne_true_of_eq_false hh)
    rw [exec_thermalWarning_of_not_held i t hh, command_next _ _ _ hok ht, sensorReads_of_trip h]

/-! ### Input clocks (R444, R448) -/

/-- A clock is noted as lost. -/
def State.clockGone (s : State) (c : Nat) : State := { s with top := { s.top with clocksLost := c :: s.top.clocksLost } }

/-- A clock is noted as present again. -/
def State.clockBack (s : State) (c : Nat) : State :=
  { s with top := { s.top with clocksLost := s.top.clocksLost.filter (· != c) } }

theorem clockLost_of_lost (h : s.top.clocksLost.contains c = true) : s.clockLost c = s :=
  if_pos h

theorem clockLost_of_present (h : s.top.clocksLost.contains c = false) :
    s.clockLost c = if s.held then s.clockGone c
      else (((s.clockGone c).showClocks.raise TOP_HW_EVENT_CLK_LOSS).clockAction c).settle :=
  if_neg (ne_true_of_eq_false h)

theorem clockReturns_of_present (h : s.top.clocksLost.contains c = false) : s.clockReturns c = s :=
  if_pos (by rw [h]; rfl)

theorem clockReturns_of_lost (h : s.top.clocksLost.contains c = true) :
    let again := (s.clockBack c).showClocks.raise TOP_HW_EVENT_CLK_LOSS
    s.clockReturns c = if s.held then s.clockBack c
      else if c = 0 then again.setFlag TOP_CLKSTAT_HOLD 0 false else again :=
  if_neg (by rw [h]; decide)

/-- NETCLK1 downs the ports of physical ports 4 to 7. -/
theorem clockAction_two :
    s.clockAction 2 = (List.range 16).foldl (fun x i => if x.portRuns (16 + i) then x.portGoesDown (16 + i) else x) s :=
  rfl

end

/-- Settles O46: a reset by the block's own rule, a reading by its trip value, a clock by whether it was lost. -/
theorem blockResetsSensorsAndClocksAct : Obligations.BlockResetsSensorsAndClocksAct := by
  intro s leaves
  refine ⟨fun p b ht hb hm => ?reset, fun ht h => ?noReset, fun b rest ht h => ?resetEnds, fun i t hd hi ht => ?trip,
    fun i t hh hi ht h => ?heldReading, fun i t htakes hi ht h => ?reading, fun c hc => ?clocks⟩
  case reset =>
    have resets {u : State} (h : s.blockReset b = u) : leaves u (exec (.blockReset p b) s) :=
      commandIf_path_of_eq (·.blockReset b) (decide_eq_true hb) ht hm h
    exact ⟨fun h => resets (blockReset_of_mayReset h), fun h => resets (blockReset_of_not_mayReset h)⟩
  case noReset => exact commandIf_of_eq State.blockResetEnds rfl ht (blockResetEnds_of_nil h)
  case resetEnds => exact commandIf_of_eq State.blockResetEnds rfl ht (blockResetEnds_of_cons h)
  case trip =>
    intro value hs htrip
    exact exec_thermalWarning_of_trip (thermalWarning_wellFormed hi ht) hd (trips_of_value hs htrip)
  case heldReading => exact exec_thermalWarning_of_no_trip hh h
  case reading =>
    rw [exec_thermalWarning_of_not_held i t (takes_held s htakes)]
    exact commandIf_of_eq (·.sensorReads i t) (thermalWarning_wellFormed hi ht) htakes (sensorReads_of_no_trip h)
  case clocks =>
    intro lost back shown again
    have loses {u : State} (h : s.clockLost c = u) : leaves u (exec (.clockLoss c) s) :=
      (commandAlwaysIf_next _ s (·.clockLost c) (decide_eq_true hc)).trans (by rw [h])
    have returns {u : State} (h : s.clockReturns c = u) : leaves u (exec (.clockReturn c) s) :=
      (commandAlwaysIf_next _ s (·.clockReturns c) (decide_eq_true hc)).trans (by rw [h])
    refine ⟨fun h => loses (clockLost_of_lost h), fun h hh => ?_, fun h hh => ⟨?_, ?_, ?_⟩, fun h => returns (clockReturns_of_present h),
      fun h hh => ?_, fun h hh => ?_⟩
    · exact loses ((clockLost_of_present h).trans (if_pos hh))
    · exact loses ((clockLost_of_present h).trans (if_neg (ne_true_of_eq_false hh)))
    · rintro rfl
      rfl
    · rintro rfl
      exact clockAction_two
    · exact returns ((clockReturns_of_lost h).trans (if_pos hh))
    · exact returns ((clockReturns_of_lost h).trans (if_neg (ne_true_of_eq_false hh)))

end Sys2Proof.Machine
end

