-- ==== Sys2Proof/Proofs/SetCommands.lean ====
section
/-! SUPPORT. The commands of PAR_RB_CMD on a set: a target, a reshape, the revival of an offline set, pause and resumption (R271,
R272, R284, R285, R294). -/

namespace Sys2Proof.Machine

open Sys2Proof.Reg

section
variable {s : State} {k x d newn op : Nat}

/-! ### Results (R294) -/

/-- A refused PAR_RB_CMD: its result, and CMD_REFUSED. -/
def State.rbRefused (s : State) (op result : Nat) : State :=
  ((s.setReg PAR_RB_RESULT_RESULT 0 result).setReg PAR_RB_RESULT_OP 0 op).raise PAR_RB_EVENT_CMD_REFUSED

/-- A PAR_RB_CMD that was carried out: result 0. -/
def State.rbDone (s : State) (op : Nat) : State := (s.setReg PAR_RB_RESULT_RESULT 0 0).setReg PAR_RB_RESULT_OP 0 op

theorem rbResult_zero : s.rbResult op 0 = s.rbDone op := by
  rw [State.rbResult, if_pos rfl, State.rbDone]

theorem rbResult_of_ne_zero {result : Nat} (h : result ≠ 0) : s.rbResult op result = s.rbRefused op result := if_neg h

/-! ### OP 1 (R272) -/

theorem rbTarget_of_unfit (h : s.setExists k = false ∨ s.setOffline k = true ∨ s.reshaping k = true) :
    s.rbTarget k x d = s.rbRefused 1 1 :=
  (if_pos (h.imp_left fun h => by simp [h])).trans (rbResult_of_ne_zero (by decide))

/-- What OP 1 does once its checks pass: the Drawer becomes the position's target, whose circle starts at the cursor. -/
def State.takeTarget (s : State) (k x d : Nat) : State :=
  let u := (s.setReg PAR_POSMAP_TKIND (32 * k + x) 2).setReg PAR_POSMAP_TARGET (32 * k + x) d
  let v := u.updSet k fun t => { t with
    startRow := SMap.put x (u.cursor k) t.startRow, uncovered := SMap.del x t.uncovered, nextBoff := 0 }
  let w := if v.reg PAR_RB_STATE_PHASE k = 0 then v.setPhaseOf k 1 else v
  w.countUncovered k

section
variable (he : s.setExists k = true) (ho : s.setOffline k = false) (hr : s.reshaping k = false)
include he ho hr

theorem fit_for_target : ¬ ((!s.setExists k) = true ∨ s.setOffline k = true ∨ s.reshaping k = true) := by
  simp [he, ho, hr]

theorem rbTarget_of_no_position (hx : s.setW k ≤ x) : s.rbTarget k x d = s.rbRefused 1 2 :=
  (if_neg (fit_for_target he ho hr)).trans ((if_pos (.inl hx)).trans (rbResult_of_ne_zero (by decide)))

/-- A lost position without a target takes the Drawer that may join. -/
theorem rbTarget_of_lost (hx : x < s.setW k) (hl : s.isLost k x = true) (htg : (s.target k x).1 = 0) :
    s.rbTarget k x d = if s.joinable k d then (s.takeTarget k x d).rbDone 1 else s.rbRefused 1 3 := by
  refine (if_neg (fit_for_target he ho hr)).trans ((if_neg ?_).trans ?_)
  · simp [Nat.not_le.mpr hx, hl, htg]
  · cases hj : s.joinable k d
    · exact (if_pos rfl).trans (rbResult_of_ne_zero (by decide))
    · exact (if_neg (by decide)).trans rbResult_zero

end

/-! ### OP 2 (R285) -/

/-- The Drawers of ADD_MASK. -/
def State.addDrawers (s : State) : List Nat := (List.range 48).filter fun d => (s.reg PAR_RS_ADD_MASK).testBit d

/-- The set with NEWN data strips to a row. -/
def State.withNewN (s : State) (k newn : Nat) : State := s.setReg PAR_RB_STATE_NEWN k newn

/-- The rows of the new Drawers that the staged rows need. -/
def State.stagingStrips (s : State) (k newn : Nat) : Nat :=
  ((s.withNewN k newn).stagedRows k * s.setW k + (newn - s.setN k) - 1) / (newn - s.setN k)

/-- What OP 2 does once its checks pass: the set is RESHAPING and stages, with a checkpoint. -/
def State.beginReshape (s : State) (k newn : Nat) : State :=
  let u := ((((s.withNewN k newn).setSetState k 3).setPhaseOf k 2).setFlag PAR_RB_STATE_STAGING k true).setCursor k 0
  let v := u.updSet k fun y => { y with added := s.addDrawers, staged := false, stagingRow := 0, nextBoff := 0 }
  v.reshapeCkpt k

/-- The set is OPTIMAL and not reshaping already. -/
def State.mayReshape (s : State) (k : Nat) : Prop :=
  s.setExists k = true ∧ s.reg PAR_SET_STATE_STATE k = 0 ∧ s.reshaping k = false

theorem rbReshape_of_unfit (h : ¬ s.mayReshape k) : s.rbReshape k newn = s.rbRefused 2 1 := by
  refine (if_pos ?_).trans (rbResult_of_ne_zero (by decide))
  rw [State.mayReshape, Classical.not_and_iff_not_or_not, Classical.not_and_iff_not_or_not] at h
  exact h.imp (by simp) (.imp_right eq_true_of_ne_false)

section
variable (h : s.mayReshape k)
include h

theorem fit_for_reshape : ¬ ((!s.setExists k) = true ∨ s.reg PAR_SET_STATE_STATE k ≠ 0 ∨ s.reshaping k = true) := by
  obtain ⟨he, hs, hr⟩ := h
  simp [he, hs, hr]

theorem rbReshape_of_width (hw : newn ≤ s.setN k ∨ 22 < newn) : s.rbReshape k newn = s.rbRefused 2 4 :=
  (if_neg (fit_for_reshape h)).trans ((if_pos hw).trans (rbResult_of_ne_zero (by decide)))

variable (hlo : s.setN k < newn) (hhi : newn ≤ 22)
include hlo hhi

theorem rbReshape_of_drawers
    (hd : s.addDrawers.length ≠ newn - s.setN k ∨ s.addDrawers.all (s.joinable k) = false) :
    s.rbReshape k newn = s.rbRefused 2 5 :=
  (if_neg (fit_for_reshape h)).trans ((if_neg (by omega)).trans
    ((if_pos (hd.imp_right (congrArg Bool.not))).trans (rbResult_of_ne_zero (by decide))))

/-- With the right Drawers the room to stage decides. -/
theorem rbReshape_of_room (hn : s.addDrawers.length = newn - s.setN k) (hj : s.addDrawers.all (s.joinable k) = true) :
    s.rbReshape k newn =
      if s.setRows k - (s.withNewN k newn).newRows k < s.stagingStrips k newn then s.rbRefused 2 6
      else (s.beginReshape k newn).rbDone 2 := by
  refine (if_neg (fit_for_reshape h)).trans ((if_neg (by omega)).trans ((if_neg ?_).trans ?_))
  · exact not_or.mpr ⟨not_not_intro hn, fun hb => absurd ((congrArg Bool.not hj).symm.trans hb) (by decide)⟩
  · exact congrArg₂ (ite _) (rbResult_of_ne_zero (by decide)) rbResult_zero

end

/-! ### OP 3 (R284) -/

theorem rbRevive_of_not_offline (h : s.setExists k = false ∨ s.setOffline k = false) :
    s.rbRevive k d = s.rbRefused 3 7 :=
  (if_pos (h.imp (congrArg Bool.not) (congrArg Bool.not))).trans (rbResult_of_ne_zero (by decide))

/-- The set is back in the state it left, and its open records are resynced. -/
def State.revived (s : State) (k : Nat) : State := (s.setSetState k (s.setSt k).offlineFrom).resyncOpen k

section
variable (he : s.setExists k = true) (ho : s.setOffline k = true) (hd : (s.setSt k).offlineDrawer = none)
include he ho

theorem offline_set : ¬ ((!s.setExists k) = true ∨ (!s.setOffline k) = true) := by
  simp [he, ho]

include hd

theorem rbRevive_of_full_table (hr : 4096 ≤ s.damageRecs.length) : s.rbRevive k d = s.rbRefused 3 7 := by
  refine (if_neg (offline_set he ho)).trans ?_
  simp only [hd, if_neg (Nat.not_lt.mpr hr)]
  exact rbResult_of_ne_zero (by decide)

/-- A set that went OFFLINE for its damage table, with no checkpoint: its circles begin again at the cursor. -/
theorem rbRevive_of_room (hr : s.damageRecs.length < 4096) (hs : (s.revived k).newestRecord 0x12 k = none)
    (hb : (s.revived k).newestRecord 0x10 k = none) :
    s.rbRevive k d =
      (((s.revived k).restartCircles k).updSet k fun t => { t with offlineDrawer := none, offlineId := 0 }).rbDone 3 := by
  rw [State.revived] at hs hb
  refine (if_neg (offline_set he ho)).trans ?_
  simp only [hd, if_pos hr, hs, hb]
  exact rbResult_zero

end

/-! ### OP 4 and OP 5 (R271, R294) -/

theorem rbPause_of_unfit (h : s.setExists k = false ∨ s.setOffline k = true ∨
    (s.reg PAR_RB_STATE_PHASE k ≠ 1 ∧ s.reg PAR_RB_STATE_PHASE k ≠ 2)) : s.rbPause k = s.rbRefused 4 1 :=
  (if_pos (h.imp_left (congrArg Bool.not))).trans (rbResult_of_ne_zero (by decide))

/-- What OP 4 does: phase PAUSED, and a REBUILDING set is DEGRADED. -/
def State.pauseWork (s : State) (k : Nat) : State :=
  let u := (s.setPhaseOf k 3).updSet k fun t => { t with paused := true }
  if u.reg PAR_SET_STATE_STATE k = 2 then u.setSetState k 1 else u

theorem rbPause_of_phase (he : s.setExists k = true) (ho : s.setOffline k = false)
    (hp : s.reg PAR_RB_STATE_PHASE k = 1 ∨ s.reg PAR_RB_STATE_PHASE k = 2) : s.rbPause k = (s.pauseWork k).rbDone 4 := by
  refine (if_neg ?_).trans rbResult_zero
  simp only [he, ho, Bool.not_true, Bool.false_eq_true, false_or]
  omega

theorem rbResume_of_unfit (h : s.setExists k = false ∨ s.setOffline k = true ∨ s.reg PAR_RB_STATE_PHASE k ≠ 3) :
    s.rbResume k = s.rbRefused 5 1 :=
  (if_pos (h.imp_left (congrArg Bool.not))).trans (rbResult_of_ne_zero (by decide))

/-- What OP 5 does: phase RESHAPE or REBUILD again. -/
def State.resumeWork (s : State) (k : Nat) : State :=
  (s.setPhaseOf k (if s.reshaping k then 2 else 1)).updSet k fun t => { t with paused := false }

theorem rbResume_of_paused (he : s.setExists k = true) (ho : s.setOffline k = false)
    (hp : s.reg PAR_RB_STATE_PHASE k = 3) : s.rbResume k = (s.resumeWork k).rbDone 5 :=
  (if_neg (by simp [he, ho, hp])).trans rbResult_zero

end

/-- Settles O29: each command by its checks in their order, then its effect. -/
theorem setCommandsFollowTheirChecks : Obligations.SetCommandsFollowTheirChecks := by
  intro s p k ht hk hm leaves refused done
  refine ⟨fun x d hx hd => ?target, fun newn hn => ?reshape, fun d hd => ?revive, ?pause, ?resume⟩
  case target =>
    have acts {u : State} (h : s.rbTarget k x d = u) : leaves u (exec (.rbTarget p k x d) s) :=
      commandIf_path_of_eq (·.rbTarget k x d) (by simp [Instr.wellFormed, hk, hx, hd]) ht hm h
    refine ⟨fun h => acts (rbTarget_of_unfit h), fun he ho hr => ⟨fun hw => acts (rbTarget_of_no_position he ho hr hw), ?_, ?_⟩⟩
    · exact fun hw hl htg hj => acts ((rbTarget_of_lost he ho hr hw hl htg).trans (if_neg (ne_true_of_eq_false hj)))
    · exact fun hw hl htg hj => acts ((rbTarget_of_lost he ho hr hw hl htg).trans (if_pos hj))
  case reshape =>
    have acts {u : State} (h : s.rbReshape k newn = u) : leaves u (exec (.rbReshape p k newn) s) :=
      commandIf_path_of_eq (·.rbReshape k newn) (by simp [Instr.wellFormed, hk, hn]) ht hm h
    refine ⟨fun h => acts (rbReshape_of_unfit h), fun h hw => acts (rbReshape_of_width h hw),
      fun h hlo hhi hds => acts (rbReshape_of_drawers h hlo hhi hds), fun h hlo hhi hds hj => ⟨fun hr => ?_, fun hr => ?_⟩⟩
    · exact acts ((rbReshape_of_room h hlo hhi hds hj).trans (if_pos hr))
    · exact acts ((rbReshape_of_room h hlo hhi hds hj).trans (if_neg (Nat.not_lt.mpr hr)))
  case revive =>
    have acts {u : State} (h : s.rbRevive k d = u) : leaves u (exec (.rbRevive p k d) s) :=
      commandIf_path_of_eq (·.rbRevive k d) (by simp [Instr.wellFormed, hk, hd]) ht hm h
    exact ⟨fun h => acts (rbRevive_of_not_offline h), fun he ho hn hr => acts (rbRevive_of_full_table he ho hn hr),
      fun he ho hn hr hs hb => acts (rbRevive_of_room he ho hn hr hs hb)⟩
  case pause =>
    have acts {u : State} (h : s.rbPause k = u) : leaves u (exec (.rbPause p k) s) :=
      commandIf_path_of_eq (·.rbPause k) (decide_eq_true hk) ht hm h
    exact ⟨fun h => acts (rbPause_of_unfit h), fun he ho hp => acts (rbPause_of_phase he ho hp)⟩
  case resume =>
    have acts {u : State} (h : s.rbResume k = u) : leaves u (exec (.rbResume p k) s) :=
      commandIf_path_of_eq (·.rbResume k) (decide_eq_true hk) ht hm h
    exact ⟨fun h => acts (rbResume_of_unfit h), fun he ho hp => acts (rbResume_of_paused he ho hp)⟩

end Sys2Proof.Machine
end

