-- ==== Sys2Proof/Proofs/SetWork.lean ====
section
/-! SUPPORT. How pieces of work on a set end: ledger batches, rebuild pieces, reshape rows, the staging, resynced columns and the
write-backs of recovered blocks (R262, R264, R270, R273, R275, R287, R288). -/

namespace Sys2Proof.Machine

open Sys2Proof.Reg

section
variable {s : State} {k d : Nat}

/-! ### Ledger batches (R262, R265) -/

/-- The ring on Drawer `d` without its oldest batch `b`, which is durable: a checkpoint makes the ring count. -/
def State.takeBatch (s : State) (d : Nat) (r : Ring) (b : Batch) (rest : List Batch) : State :=
  s.updRing d fun x =>
    { x with queue := rest, counts := r.counts || b.ckpt, genDue := x.genDue || (x.replacing && !x.counts) }

/-- The batch is on the ring's media, counted, named by BSEQ, and confirms what it carried. -/
def State.batchDurable (s : State) (d : Nat) (r : Ring) (b : Batch) (rest : List Batch) : State :=
  let v := (s.takeBatch d r b rest).keepOnMedia d b
  ((v.bump LDG_BATCHES).setReg LDG_BSEQ_BSEQ 0 (max b.bseq (v.reg LDG_BSEQ_BSEQ))).confirmDurable b

theorem batchDone_of_cons {r : Ring} {b : Batch} {rest : List Batch} {ok : Bool} (hr : s.ringOn d = some r)
    (hq : r.queue = b :: rest) :
    s.batchDone d ok = if ok then s.batchDurable d r b rest else s.ledgerDriveLost d := by
  simp only [State.batchDone, hr, hq]
  cases ok <;> rfl

/-- Unless the ring on the Drawer owes a generation slot, its oldest batch's end is all that happens. -/
theorem ringBatchDone_of_not_due {ok : Bool} (h : ((s.batchDone d ok).ringOn d).map (·.genDue) ≠ some true) :
    s.ringBatchDone d ok = s.batchDone d ok := by
  rw [State.ringBatchDone]
  cases hr : (s.batchDone d ok).ringOn d with
  | none => rfl
  | some r =>
    rw [hr] at h
    exact if_neg fun ⟨hg, _⟩ => h (congrArg some hg)

/-! ### Pieces of a rebuild (R275) -/

/-- A piece that ends where the row's work stands takes the row's column mark on, or completes the row. -/
theorem pieceDone_of_next {p : Piece} (hp : (s.setSt k).piece = some p) (hk : p.kind = 2 ∨ p.kind = 5)
    (hrow : p.row = (s.pieceOver k).cursor k) (hb : ((s.pieceOver k).setSt k).nextBoff = p.boff) :
    s.pieceDone k =
      ((if p.boff + (s.pieceOver k).pieceColumns k < (s.pieceOver k).setSb k then
        (s.pieceOver k).updSet k fun t => { t with nextBoff := p.boff + (s.pieceOver k).pieceColumns k }
      else (s.pieceOver k).rowComplete k).issuePiece k).pumpAll := by
  have isRebuild : ¬ (p.kind ≠ 2 ∧ p.kind ≠ 5) := by omega
  simp only [State.pieceDone, hp, if_neg isRebuild, if_neg (not_not_intro hrow), if_neg (not_not_intro hb)]

/-! ### Reshape (R287, R288) -/

/-- The new row has its record and the cursor is behind it; every 256 rows there is a checkpoint. -/
def State.rowReshaped (s : State) (k row : Nat) : State :=
  let u := s.pieceOver k
  let v := u.putTaskRecord { kind := 0x11, set := k, row := row, lost := u.lostMask k }
  let w := (v.setCursor k (row + 1)).bump PAR_RS_ROWS
  if (row + 1) % 256 = 0 then w.reshapeCkpt k else w

theorem reshapeRowDone_of_piece {p : Piece} (hp : (s.setSt k).piece = some p) (hk : p.kind = 4) :
    s.reshapeRowDone k =
      ((if (s.rowReshaped k p.row).newRows k ≤ p.row + 1 then
        (s.rowReshaped k p.row).setSetState k (if (s.rowReshaped k p.row).lostMask k = 0 then 0 else 1)
      else s.rowReshaped k p.row).issuePiece k).pumpAll := by
  simp only [State.reshapeRowDone, hp, if_neg (not_not_intro hk)]
  rfl

theorem stagingDone_of_reshaping (hr : s.reshaping k = true) (hs : (s.setSt k).staged = false) (ho : s.setOffline k = false) :
    s.stagingDone k =
      (((s.updSet k fun t => { t with staged := true, stagingRow := s.stagedRows k }).setFlag PAR_RB_STATE_STAGING k
        false).reshapeCkpt k).issuePiece k :=
  if_pos (by simp [hr, hs, ho])

end

/-! ### Resync (R264) -/

section
variable {s : State} {k row boff n : Nat} {dis : Bool}

/-- The columns are those of the piece of resync in progress. -/
def State.resyncsPiece (s : State) (k row boff : Nat) : Bool :=
  (s.setSt k).piece == some { kind := 1, row := row, boff := boff }

theorem resyncsPiece_of_none (h : (s.setSt k).piece = none) : s.resyncsPiece k row boff = false := by
  rw [State.resyncsPiece, h]
  rfl

theorem resyncDone_of_untouched (h : s.par.resync.any (·.touches k row boff n (s.resyncsPiece k row boff)) = false) :
    s.resyncDone k row boff n dis = s :=
  if_pos (congrArg Bool.not h)

/-- Entries of another row are not touched. -/
theorem touches_of_other_row {y : Resync} {isPiece : Bool} (h : y.set = k → y.row ≠ row) :
    y.touches k row boff n isPiece = false := by
  by_cases hk : y.set = k
  · simp [Resync.touches, h hk]
  · simp [Resync.touches, hk]

theorem untouched_of_other_rows {isPiece : Bool} (h : ∀ y, y ∈ s.par.resync → y.set = k → y.row ≠ row) :
    s.par.resync.any (·.touches k row boff n isPiece) = false :=
  List.any_eq_false.mpr fun y hy => ne_true_of_eq_false (touches_of_other_row (h y hy))

theorem touches_of_open {y : Resync} {isPiece : Bool} (hk : y.set = k) (hr : y.row = row) (ho : y.ofOpen = true)
    (hlo : y.boff < boff + n) (hhi : boff < y.boff + y.count) : y.touches k row boff n isPiece = true := by
  simp [Resync.touches, hk, hr, ho, hlo, hhi]

/-- The columns of a resynced piece are counted where fewer than two of its strips are unknown, and damaged where its only
unknown strip is a data block on which P and Q disagree. -/
def State.resyncCounted (s : State) (r : RowAt) (unknown : List Nat) (k row boff n : Nat) (disagree : Bool) : State :=
  let u := if unknown.length < 2 then s.bumpBy PAR_RESYNC 0 n {} else s
  match unknown with
  | [j] =>
    if disagree ∧ j < r.n then
      (((u.damageStrips r [j] boff n 2).bumpBy PAR_DISAGREE 0 n {}).raise PAR_EVENT_DISAGREE).setRecord k 7 (r.pos j) row
    else u
  | _ => u

theorem resyncCounted_nil {r : RowAt} : s.resyncCounted r [] k row boff n dis = s.bumpBy PAR_RESYNC 0 n {} := by
  simp only [State.resyncCounted, List.length_nil, Nat.zero_lt_succ, if_true]

/-- The list of what is owed without the columns of a row. -/
def State.withoutColumns (s : State) (k row boff n : Nat) (isPiece : Bool) : State :=
  { s with par := { s.par with
    resync := s.par.resync.flatMap fun z => if z.touches k row boff n isPiece then z.cut boff n else [z] } }

/-- Columns of the row are still owed. -/
def State.owesRow (s : State) (k row : Nat) : Bool := s.par.resync.any fun z => z.ofOpen && z.set == k && z.row == row

/-- The records of the row's writes are done, unless columns of it are still owed. -/
def State.rowRecordsDone (s : State) (k row : Nat) : State :=
  if s.owesRow k row then s
  else (s.mapRecords (fun q => q.frame.isNone && q.set == k && q.row == row && decide (q.kind ≤ 6))
    fun q => { q with writesDone := true }).retireReady

/-- The piece in progress is over where it was the resynced one, and the next is issued. -/
def State.resyncGoesOn (s : State) (k : Nat) (isPiece : Bool) : State := (if isPiece then s.pieceOver k else s).issuePiece k

/-- A resync that touches what is owed: counted, taken from the list, and the work goes on. -/
theorem resyncDone_of_touched (ht : s.par.resync.any (·.touches k row boff n (s.resyncsPiece k row boff)) = true) :
    s.resyncDone k row boff n dis =
      ((((s.resyncCounted (s.layoutRow k row) (s.rowUnknown (s.layoutRow k row)) k row boff n dis).withoutColumns k row boff n
        (s.resyncsPiece k row boff)).rowRecordsDone k row).resyncGoesOn k (s.resyncsPiece k row boff)).pumpAll :=
  if_neg (by rw [← State.resyncsPiece, ht]; decide)

/-- Columns of an open record in a row whose strips are all known: counted, and no longer owed. -/
theorem resyncDone_of_known (hp : (s.setSt k).piece = none) (ht : s.par.resync.any (·.touches k row boff n false) = true)
    (hu : s.rowUnknown (s.layoutRow k row) = []) :
    s.resyncDone k row boff n dis =
      ((((s.bumpBy PAR_RESYNC 0 n {}).withoutColumns k row boff n false).rowRecordsDone k row).issuePiece k).pumpAll := by
  have noPiece : s.resyncsPiece k row boff = false := resyncsPiece_of_none hp
  rw [resyncDone_of_touched (by rw [noPiece, ht]), noPiece, hu, resyncCounted_nil, State.resyncGoesOn,
    if_neg Bool.false_ne_true]

end

/-! ### Write-backs of recovered blocks (R270, R273) -/

section
variable {s : State} {k x block : Nat} {ok : Bool}

/-- The write-back of a block is no longer under way. -/
def State.repairOver (s : State) (k x block : Nat) : State :=
  { s with par := { s.par with repairs := s.par.repairs.erase (k, x, block) } }

/-- What holds the columns of a recovered block. -/
def State.repairHolder (s : State) (k block : Nat) : Option Holder :=
  s.par.holders.find? fun h => h.frame.isNone && h.set == k && h.row == (block - s.setBase k) / s.setSb k &&
    h.boff == (block - s.setBase k) % s.setSb k && !h.submitted

/-- A holder is freed. -/
def State.freeHolder (s : State) (h : Holder) : State :=
  { s with par := { s.par with holders := s.par.holders.erase h } }

/-- The holder found, if any, is freed. -/
def State.freeFound (s : State) (found : Option Holder) : State :=
  match found with
  | some h => s.freeHolder h
  | none => s

theorem freeFound_eq {found : Option Holder} : s.freeFound found = (found.map s.freeHolder).getD s := by
  cases found <;> rfl

/-- The write-back is over and its columns are free. -/
def State.repairFreed (s : State) (k x block : Nat) : State :=
  (s.repairOver k x block).freeFound ((s.repairOver k x block).repairHolder k block)

theorem repairWritten_of_repair (h : s.par.repairs.contains (k, x, block) = true) :
    s.repairWritten k x block ok =
      (if ok then s.repairFreed k x block
        else (s.repairFreed k x block).losePosition ((s.repairFreed k x block).posDrawer k x)).pumpAll :=
  if_neg (by rw [h]; decide)

end

/-- Settles O30: each piece of work by what it finds of its set, its ring or its row. -/
theorem piecesOfWorkOnSetsEnd : Obligations.PiecesOfWorkOnSetsEnd := by
  intro s k d ht hk hd leaves
  refine ⟨fun r b rest hr hq => ⟨?durable, ?failed⟩, fun p hp hkind => ?piece, fun p hp hkind => ?row, fun hr hs ho => ?staging,
    fun row boff n disagree h => ?untouched, fun row boff n y hy hset hrow ho hlo hhi hu hp => ?resync,
    fun x block ok hx h => ?repair⟩
  case durable =>
    have acts : s.batchDone d true = s.batchDurable d r b rest := (batchDone_of_cons hr hq).trans (if_pos rfl)
    intro u v w
    have durable : s.batchDurable d r b rest = w := rfl
    clear_value w
    rw [durable] at acts
    intro hdue
    refine commandIf_of_eq (fun s => (s.ringBatchDone d true).pumpAll.settle) (decide_eq_true hd) ht
      (congrArg (fun u : State => u.pumpAll.settle) ?_)
    exact (ringBatchDone_of_not_due (by rwa [acts])).trans acts
  case failed =>
    have acts : s.batchDone d false = s.ledgerDriveLost d := (batchDone_of_cons hr hq).trans (if_neg Bool.false_ne_true)
    intro hnone
    refine commandIf_of_eq (fun s => (s.ringBatchDone d false).pumpAll.settle) (decide_eq_true hd) ht
      (congrArg (fun u : State => u.pumpAll.settle) ?_)
    exact (ringBatchDone_of_not_due (by rw [acts, hnone]; simp)).trans acts
  case piece =>
    intro u next hrow hb
    have acts {v : State} (h : s.pieceDone k = v) : leaves v.settle (exec (.rebuildPieceDone k) s) :=
      commandIf_of_eq (fun s => (s.pieceDone k).settle) (decide_eq_true hk) ht (congrArg State.settle h)
    have ends := pieceDone_of_next hp hkind hrow hb
    exact ⟨fun h => acts (by rw [ends, if_pos h]), fun h => acts (by rw [ends, if_neg (Nat.not_lt.mpr h)])⟩
  case row =>
    exact commandIf_of_eq (fun s => (s.reshapeRowDone k).settle) (decide_eq_true hk) ht
      (congrArg State.settle (reshapeRowDone_of_piece hp hkind))
  case staging =>
    exact commandIf_of_eq (·.stagingDone k) (decide_eq_true hk) ht (stagingDone_of_reshaping hr hs ho)
  case untouched =>
    exact commandIf_of_eq (fun s => (s.resyncDone k row boff n disagree).settle) (decide_eq_true hk) ht
      (congrArg State.settle (resyncDone_of_untouched (untouched_of_other_rows h)))
  case resync =>
    have touched : s.par.resync.any (·.touches k row boff n false) = true :=
      List.any_eq_true.mpr ⟨y, hy, touches_of_open hset hrow ho hlo hhi⟩
    intro v
    have counted : s.bumpBy PAR_RESYNC 0 n {} = v := rfl
    clear_value v
    intro left w owed x dis
    have taken : v.withoutColumns k row boff n false = w := rfl
    have owes : w.owesRow k row = owed := rfl
    refine commandIf_of_eq (fun s => (s.resyncDone k row boff n dis).settle) (decide_eq_true hk) ht (congrArg State.settle ?_)
    rw [resyncDone_of_known hp touched hu, counted, taken, State.rowRecordsDone, owes]
  case repair =>
    intro row boff u waits free v
    have freed : s.repairFreed k x block = v := freeFound_eq
    refine commandIf_of_eq (fun s => (s.repairWritten k x block ok).settle) (by simp [Instr.wellFormed, hk, hx]) ht
      (congrArg State.settle ?_)
    rw [repairWritten_of_repair h, freed]

end Sys2Proof.Machine
end
